-- ==== Sys2Proof/Word.lean ====
section
/-! DEFINITION. The word types of the Lojin 408 and the small index types its tables are numbered by. -/

namespace Sys2Proof

/-- A memory word (00_scope.md, Memory and words): 32 bits, bit 0 the least significant. -/
abbrev Word := BitVec 32

/-- One byte of a memory word, and one character of the tap line. -/
abbrev Byte := BitVec 8

/-- A word address: memory is 1,048,576 words (00_scope.md). -/
abbrev WordAddr := BitVec 20

/-- Feeders 0–7. -/
abbrev Feeder := Fin 8

/-- Tap ports 0–3. -/
abbrev Port := Fin 4

/-- Entries 0–575 of the Tap Directory pool (R72). -/
abbrev EntryId := Fin 576

/-- Line-up slots 0–71 (R27). -/
abbrev SlotId := Fin 72

/-- Line-up banks 0 and 1 (R27). -/
abbrev Bank := Fin 2

/-- Entries 0–7 of the scan list (R116). -/
abbrev ScanId := Fin 8

end Sys2Proof
end

