-- ==== Sys2Proof/Syntax.lean ====
section
/-! DEFINITION. The commands of the Lojin 408: one constructor for each row of spec/opcode_table.json.
A command is one whole step (95_what_each_step_holds.md). The table gives its rows no fields; the operands here are what
the rule named with the row lets reach the part from outside in that step: an address and data, a written word, a feeder,
a sampled line level, a received character, a conversion code. -/

namespace Sys2Proof

/-- The blocks of the part that can wait for room in a queue (R107, R132). -/
inductive Blk where
  | orderUnit | billing | lineUp | directory | engine (f : Feeder) | correlator | scanner | timeBase
deriving DecidableEq, Repr

/-- The commands. A command word's arrival carries the word written, `w` (R171). `mark` is the level of the feeder's
receive input when an attempt is due (R58): true at mark. -/
inductive Instr where
  -- resets (R188)
  | powerOn
  | resetLine
  | resetLineHeld
  -- the computer port and the memory port (chapter 9)
  | computerRead (addr : WordAddr)
  | computerWrite (addr : WordAddr) (be : BitVec 4) (data : Word)
  | pendingSubmissionHanded
  | memoryPortGrant
  | burstComplete
  | passedCycleCarried
  -- the control word (R180)
  | run (w : Word)
  | halt (w : Word)
  | restart (w : Word)
  | clearStatus (w : Word)
  | controlBadAction (w : Word)
  -- start-up (R182–R184) and halting (R186)
  | configurationCheck
  | directoryLoadEntry
  | billingLoad
  | carrierLossLoad
  | subscriberPassStep
  | lineupStartup
  | scannerStartup
  | outageRebuild
  | reconciliationStep
  | entryToRunning
  | haltedEntry
  -- the Time Base (chapter 8)
  | minuteEvent
  | halfSecondTick
  | timeSet (w : Word)
  | heartbeat (w : Word)
  | supervisionExpiry
  -- the Order Unit (chapter 1)
  | orderArrival (i : Nat) (w : Word)
  | backlogWalkStep
  | badOrder
  | enrol
  | connect
  | disconnect
  | retier
  | move
  | buy
  | cancel
  | audit
  | remove
  | transactionReport
  | confirmation
  | lostTapReport
  | blockedReport
  | eventStartReport
  | eventEndReport
  | eventDropReport
  | overlapReport
  | settleAnswer
  | refreshRequest
  | noticeHanded (b : Blk)
  -- the Line-up Unit (chapter 2)
  | commit (w : Word)
  | withdraw (w : Word)
  | commitBadAction (w : Word)
  | validationBurst
  | epochSwitch
  -- the Feeder Engines (chapter 3)
  | transactionStart (f : Feeder) (mark : Bool)
  | collision (f : Feeder)
  | callSent (f : Feeder)
  | answerStartBit (f : Feeder) (latency : Nat)
  | answerWindowExpiry (f : Feeder)
  | answerCharacter (f : Feeder) (c : Byte) (stopMark : Bool)
  | answerCharacterTimeout (f : Feeder)
  | answerTailStartBit (f : Feeder)
  | answerTailEnd (f : Feeder)
  | attemptGapEnd (f : Feeder) (mark : Bool)
  | receiveLineToMark (f : Feeder)
  | lineStuck (f : Feeder)
  | transmitterFault (f : Feeder)
  | blockedLineCheckExpiry (f : Feeder)
  | blockedLineCheckSpace (f : Feeder)
  | feederClear (f : Feeder)
  -- the Tap Directory (chapter 4)
  | readOutcomeOk (f : Feeder)
  | setPortOutcomeOk (f : Feeder)
  | outcomeFailed (f : Feeder)
  | staleOutcome (f : Feeder)
  | pacingTimerExpiry (f : Feeder)
  | probeOutcome (f : Feeder) (mark : Bool)
  | enumerateFresh (w : Word)
  | enumerateExtend (w : Word)
  | enumerateBadAction (w : Word)
  | enumerationRequestTaken (f : Feeder) (mark : Bool)
  | forgetOutcome (f : Feeder) (mark : Bool)
  | enumIdentifyOutcome (f : Feeder) (mark : Bool)
  | assignOutcome (f : Feeder) (mark : Bool)
  -- the correlator (chapter 5)
  | lostReport
  | returnReport
  | vacateReport
  | enumerationStartReport
  | enumerationEndReport
  | supplyLowReport
  | supplyClearReport
  -- the alarm intake and the log (chapter 5)
  | alarmSubmissionTaken (b : Blk)
  | logWrite
  | logEntryWritten
  | logDrop
  | logOverflowed
  | logConsumer (w : Word)
  -- the Telemetry Scanner (chapter 6)
  | scanOff (w : Word)
  | scanOnce (w : Word)
  | scanPeriodic (w : Word)
  | scanContinuous (w : Word)
  | scanBadAction (w : Word)
  | scanIntervalExpiry
  | sequenceStart
  | settleEnd
  | conversionEnd (code : BitVec 12)
  | lineupSwitchReport
  -- the Billing Unit (chapter 7)
  | closeOut (w : Word)
  | closeRegistrationQueued
  | closeRegistration
  | epochRegistration
  | enrolInit
  | awaitService
  | startService
  | stopService
  | moveNotice
  | retierNotice
  | outageBegin
  | outageEnd
  | overlapAnswer
  | ppvCharge
  | ppvSettle
  | sweepStep
deriving DecidableEq, Repr

end Sys2Proof
end

