-- ==== Sys2Proof/Decode.lean ====
section
/-! DEFINITION. The reading of a command from the table's bits. The part fetches and decodes no instruction: every row of
the table is a step of the part and carries no bits, so no word spells a command (assumption 1). -/

namespace Sys2Proof

/-- The command a word spells by the table's bits: none, whatever the word. -/
def decodeTableWord (_nbits _w : Nat) : Option Instr := none

end Sys2Proof
end

