-- ==== Sys2Proof/Config.lean ====
section
/-! DEFINITION. The fixed sizes and addresses of the Lojin 408 (00_scope.md, Counts and ranges; 11_memory_layouts.md).
Every number here is the spec's, except `unwrittenByte`, which assumption 2 names. The constants without a body are free
values. -/

namespace Sys2Proof.Config

/-- What a byte of memory that nothing has written reads as. DESIGN CHOICE (assumption 2). -/
def unwrittenByte : Byte := 0

/-- The bits a mirror burst shows for port `p` where its applied state is UNKNOWN: on in bit 0, the band mask in bits 8–15.
11.5 states none, so this is a free value (assumption 22), a new one for each burst `n` granted to the part. -/
opaque unknownPort (n : Nat) (p : Fin 4) : BitVec 16

/-- The bits a mirror burst shows for the feeder and position of an entry that is not placed. 11.5 states none, so this is a
free value (assumption 22), a new one for each burst `n` granted to the part. -/
opaque absentPlace (n : Nat) : BitVec 10

/-- The value of a span of minutes whose earlier minute lies above the later one: R75 and R101 subtract the two and state no
result there, so this is a free value (assumption 46). -/
opaque negativeSpan (later earlier : Nat) : BitVec 32

/-- Bits 0–7 of ENUMERATION DONE's value where more than 255 taps have been placed: 11.5 gives the count 8 bits and states no
result there, so this is a free value (assumption 56). -/
opaque countBeyond (count : Nat) : BitVec 8

/-- Order Queue entries (R5). -/
def orderQueueDepth : Nat := 32

/-- A backlog walk starts while the Order Queue holds fewer than this (R6). -/
def walkStartDepth : Nat := 8

/-- In-flight Table entries (R7). -/
def inFlightDepth : Nat := 64

/-- Purchase Index entries (R2). -/
def purchaseIndexDepth : Nat := 256

/-- The Order Unit's report queue (R4). -/
def orderReportDepth : Nat := 32

/-- The correlator's report queue (R98). -/
def corrReportDepth : Nat := 32

/-- Notice Queue entries (R132). -/
def noticeDepth : Nat := 16

/-- Alarm intake entries (R107). -/
def intakeDepth : Nat := 8

/-- Outage List records (R97). -/
def outageDepth : Nat := 16

/-- The top of the plant minute, where the clock holds (R159). -/
def minuteTop : Nat := 0xFFFFFFFF

/-- The first word of the anchor block (R179). -/
def anchorBase : Nat := 0xFFF00

/-- The first command word (11.2); the eight command words follow in order. -/
def commandBase : Nat := 0xFFF60

/-- The first live word (R175). -/
def liveBase : Nat := 0xFFFC0

/-- Persistent words of the anchor (11.2). -/
def activeBankAddr : Nat := 0xFFF80
def epochNumberAddr : Nat := 0xFFF81
def epochMinuteAddr : Nat := 0xFFF82
def prevRatesAddr : Nat := 0xFFF90
def periodAddr : Nat := 0xFFFA0
def periodStartAddr : Nat := 0xFFFA1
def prevLenAddr : Nat := 0xFFFA2
def boundaryAddr : Nat := 0xFFFA3
def cursorAddr : Nat := 0xFFFA6
def logAnchorAddr : Nat := 0xFFFB0
def lastAliveAddr : Nat := 0xFFFB8

/-- The log consumer word (11.2), which the log load reads as the consumer (R111). -/
def logConsumerAddr : Nat := 0xFFF65

/-- The gap after a failed attempt and the answer tail are counted by the engine; the transmit monitor's limit (R66). -/
def transmitLimit : Nat := 200

/-- The line watch's limit (R65). -/
def stuckLimit : Nat := 64

/-- The period of a blocked-line check timer in half-second ticks (R164): 30 s. -/
def blockedCheckTicks : Nat := 60

/-- The top of a 48-bit accumulator (R136). -/
def accTop : Nat := 2 ^ 48 - 1

/-- The top of a 32-bit count of cents (R143). -/
def centsTop : Nat := 2 ^ 32 - 1

end Sys2Proof.Config
end

