-- ==== Sys2Proof/Machine/State.lean ====
section
/-! DEFINITION. The state of the Lojin 408: every piece of state the spec gives a block, as plain data, with the values
each block holds after reset. Rules are cited where a field is named by one. -/

namespace Sys2Proof.Machine

/-! ### Names of states, results and faults (11.7) -/

/-- The part states (10.2). -/
inductive PartState where
  | idle | starting | running | halting | halted
deriving DecidableEq, Repr

/-- The reset causes (R188). -/
inductive ResetCause where
  | powerOn | resetLine | restart
deriving DecidableEq, Repr

/-- The results of command words (11.7). -/
inductive CmdResult where
  | none | accepted | inProgress | notRunning | busy | alreadyRunning | badAction | timeNotSet | timeBeforeLastAlive
  | config | layoutChanged | timeBackward | notPendingBank | alreadySealed | nothingSealed | sweepBusy | emptyPeriod
  | indexRange | feeder | outageOpen
deriving DecidableEq, Repr

/-- The configuration faults (11.7). -/
inductive ConfigFault where
  | none | logSize | subscriberCount | windowBounds | windowOverlap | lineRate | answerWindow | attempts | missThreshold
  | rollCallPeriod | outageMinimum | attentionThreshold | escalationTime | heartbeatInterval | scanList | scanEntry
  | scanMode | activeBankNumber | activeBankInvalid
deriving DecidableEq, Repr

/-- The order kinds 1–9 (11.7). -/
inductive OrderKind where
  | enrol | connect | disconnect | retier | move | buy | cancel | audit | remove
deriving DecidableEq, Repr

/-- The order results (11.7). -/
inductive OrderResult where
  | done | deferred | auditMatch | auditMismatch | unreachable | badOrder | notEnrolled | alreadyEnrolled | noSuchTap
  | portInUse | notConnected | notOff | unbilled | purchasesOpen | noSuchEvent | eventEnded | duplicate | purchaseLimit
  | indexFull | alreadyOpen | notBooked | samePort
deriving DecidableEq, Repr

/-- The validation results (11.7). -/
inductive ValResult where
  | none | passed | edited | withdrawn | aborted | classBand | badChannel | duplicateChannel | badTune | badEventId
  | eventWindow | eventOverlap | duplicateEvent | eventChanged
deriving DecidableEq, Repr

/-- The bank states, with NOT-LOADED, which only the live area shows (R30). -/
inductive BankState where
  | notLoaded | active | editable | validating | sealed
deriving DecidableEq, Repr

/-- The epoch states (R30). -/
inductive EpochState where
  | none | scheduled | held
deriving DecidableEq, Repr

/-- The event states; DARK and REGULAR slots hold none (R41). -/
inductive EvState where
  | none | scheduled | running | ended
deriving DecidableEq, Repr

/-- The Feeder Engine states (R57). -/
inductive EngState where
  | off | ready | talking | enumerating | blocked
deriving DecidableEq, Repr

/-- The five tap-line commands (R53, R54). -/
inductive TapCmd where
  | read | setPort | identify | assign | forget
deriving DecidableEq, Repr

/-- The failure kinds of a transaction (R62). -/
inductive FailKind where
  | early | noAnswer | badAnswer | collision | lineBlocked
deriving DecidableEq, Repr

/-- The states of a directory entry (R73). -/
inductive EntryState where
  | free | present | silent | lost
deriving DecidableEq, Repr

/-- The endings of an enumeration (R92). -/
inductive Ending where
  | complete | identifyFailed | assignFailed | forgetFailed | feederFull | notAdmitted | outageOpen | blocked
deriving DecidableEq, Repr

/-- FRESH and EXTEND (R86). -/
inductive EnumMode where
  | fresh | extend
deriving DecidableEq, Repr

/-- The scan modes (R120). -/
inductive ScanMode where
  | off | once | periodic | continuous
deriving DecidableEq, Repr

/-- What a scan entry's probe measures (R116). -/
inductive ScanKind where
  | supply | pilot | returnPath | temperature | carrier
deriving DecidableEq, Repr

/-- Evaluation states (R122). -/
inductive EvalState where
  | normal | low | high
deriving DecidableEq, Repr

/-- The states of a billing record (R131). -/
inductive BillState where
  | off | awaiting | service | outage
deriving DecidableEq, Repr

/-- Kinds of boundary (R145). -/
inductive BoundaryKind where
  | none | close | epoch
deriving DecidableEq, Repr

/-- States of a used purchase slot (R2). -/
inductive SlotState where
  | booked | opened
deriving DecidableEq, Repr

/-- States of a Purchase Index entry (R2). -/
inductive IndexState where
  | booked | opened | settling
deriving DecidableEq, Repr

/-- Confirmed port states of a subscriber record (R1). -/
inductive Confirmed where
  | none | off | on
deriving DecidableEq, Repr

/-- Slot classes (R29). -/
inductive SlotClass where
  | dark | regular | event
deriving DecidableEq, Repr

/-- Band kinds (R28). -/
inductive BandKind where
  | closed | tier | event
deriving DecidableEq, Repr

/-- Severities of alarm entries (R107). -/
inductive Severity where
  | info | minor | major | critical
deriving DecidableEq, Repr

/-- Alarm kinds (5.8). -/
inductive AlarmKind where
  | tapLost | tapBack | tapNew | tapMoved | tapNotAdmitted | tapStateMismatch | tapTamper | tapLowSupply
  | tapLatencyShift | outageOpen | outageMerged | outageSplit | outageClosed | outageListFull | feederBlocked
  | feederClear | transmitterFault | enumerationDone | feederFull | epochSwitched | epochHeld | closeOutDone
  | controllerSilent | controllerBack | writeSuppressed | resumed | logOverflowed | probeLow | probeHigh | probeNormal
  | carrierLow | carrierHigh | carrierNormal
deriving DecidableEq, Repr

/-- The subject of an alarm entry (R107; encodings in 11.5). -/
inductive Subject where
  | none
  | place (f : Feeder) (pos : Nat)
  | feeder (f : Feeder)
  | slot (k : SlotId)
  | probe (p : Nat)
  | outage (id : Nat)
deriving DecidableEq, Repr

/-! ### The Time Base (chapter 8) -/

/-- An interval timer (R164). `next` is the period that takes effect at the next expiry; `due` counts expiries handed to
the owner and not yet taken. -/
structure Timer where
  period  : Nat
  next    : Nat
  count   : Nat
  running : Bool
  due     : Nat
deriving DecidableEq, Repr

def Timer.stopped : Timer := { period := 1, next := 1, count := 0, running := false, due := 0 }

/-! ### Alarm entries, notices and reports -/

/-- An alarm entry of the intake (R107); its own index is given when it is written (R108). -/
structure AlarmEntry where
  kind    : AlarmKind
  sev     : Severity
  subject : Subject
  minute  : Nat
  value   : Word
deriving DecidableEq, Repr

/-- The notice kinds (R132), each with its argument. -/
inductive NoticeKind where
  | enrolInit (tiers : BitVec 16)
  | awaitService
  | startService
  | stopService
  | move
  | retier (tiers : BitVec 16)
  | outageBegin (outage : Nat)
  | outageEnd (outage : Nat)
  | ppvCharge (price : Nat)
  | ppvSettle (event : Nat) (drop : Bool)
deriving DecidableEq, Repr

/-- An entry of the Notice Queue (R132). -/
inductive QEntry where
  | notice (sub : Nat) (kind : NoticeKind) (minute : Nat)
  | closeReg (minute : Nat) (number : Nat)
  | epochReg (minute : Nat) (number : Nat)
deriving DecidableEq, Repr

/-- A port state: on or off, and a mask of eight pass flags (R44). -/
structure PortState where
  on   : Bool
  mask : BitVec 8
deriving DecidableEq, Repr

def PortState.off : PortState := { on := false, mask := 0 }

/-- How a transaction ended, as the Order Unit is told it (R8, R19, R77). -/
inductive ReportOutcome where
  | readOk (ports : Vector PortState 4)
  | setOk (answer : PortState) (minute : Nat)
  | failed
deriving DecidableEq, Repr

/-- The entries of the Order Unit's report queue (R4). A start carries the bound `before`: it arms the in-flight entries
that entered the In-flight Table earlier, those of a lower sequence number (R8). -/
inductive OrderReport where
  | start (cmd : TapCmd) (e : EntryId) (p : Port) (before : Nat)
  | outcome (cmd : TapCmd) (e : EntryId) (p : Port) (res : ReportOutcome)
  | lostTap (e : EntryId)
  | blocked (f : Feeder)
  | eventStart (id : Nat) (minute : Nat)
  | eventEnd (id : Nat) (minute : Nat)
  | eventDrop (id : Nat) (minute : Nat)
deriving DecidableEq, Repr

/-- The reports to the correlator (R98). -/
inductive CorrReport where
  | lost (e : EntryId) (f : Feeder) (pos : Nat) (silentSince : Nat)
  | back (e : EntryId) (f : Feeder) (pos : Nat) (minute : Nat)
  | vacate (e : EntryId) (f : Feeder) (pos : Nat) (minute : Nat) (wasLost : Bool)
  | enumStart (f : Feeder)
  | enumEnd (f : Feeder)
  | supplyLow (f : Feeder)
  | supplyClear (f : Feeder)
deriving DecidableEq, Repr

/-- The three kinds of arrival the Billing Unit sends the Order Unit (R23). -/
inductive BillArrival where
  | overlap (sub : Nat) (event : Nat) (minutes : Nat)
  | settle (sub : Nat) (event : Nat)
  | refresh (sub : Nat)
deriving DecidableEq, Repr

/-! ### Records in memory, decoded (11.3–11.5) -/

/-- A purchase slot of a subscriber record (R2). Event id 0 is a free slot. -/
structure Purchase where
  event   : Nat
  price   : Nat
  state   : SlotState
  charged : Bool
  overlap : Nat
deriving DecidableEq, Repr

def Purchase.free : Purchase := { event := 0, price := 0, state := .booked, charged := false, overlap := 0 }

/-- A subscriber record (R1), decoded by the layout of 11.3. `okind`, `oserial` and `oarg` are the order word. -/
structure SubRec where
  serial      : Word
  port        : Port
  tiers       : BitVec 16
  okind       : Nat
  oserial     : Nat
  oarg        : Nat
  done        : Nat
  result      : Nat
  enrolled    : Bool
  wantOn      : Bool
  claimHeld   : Bool
  claimPort   : Port
  confirmed   : Confirmed
  claimSerial : Word
  lastConfirm : Nat
  auditOn     : Bool
  auditMask   : BitVec 8
  failures    : Nat
  slots       : Vector Purchase 4
deriving DecidableEq, Repr

/-- A billing record (R130). -/
structure BillRec where
  state      : BillState
  saturated  : Bool
  epoch      : Nat
  period     : Nat
  since      : Nat
  tiers      : BitVec 16
  began      : Nat
  a          : Nat
  o          : Nat
  k          : Nat
  charged    : Nat
  refunded   : Nat
  stCharge   : Nat
  stCredit   : Nat
  stNet      : Int
  stMinutes  : Nat
deriving DecidableEq, Repr

/-- A band plan word (R28). -/
structure BandPlan where
  kind : BandKind
  tier : Nat
deriving DecidableEq, Repr

/-- A slot record's words 0–4 (R29). -/
structure Slot where
  cls     : SlotClass
  channel : Nat
  band    : Nat
  tune    : Nat
  level   : Int
  event   : Nat
  price   : Nat
  start   : Nat
  stop    : Nat
deriving DecidableEq, Repr

def Slot.dark : Slot :=
  { cls := .dark, channel := 0, band := 0, tune := 0, level := 0, event := 0, price := 0, start := 0, stop := 0 }

/-- The Line-up Unit's copy of a bank: band plan, rate table, slots and the state of each event (chapter 2). -/
structure Copy where
  plan  : Vector BandPlan 8
  rates : Vector Nat 16
  slots : Vector Slot 72
  ev    : Vector EvState 72
deriving DecidableEq, Repr

/-! ### Settings and the window map -/

/-- A scan list entry (R116). -/
structure ScanEntry where
  probe  : Nat
  kind   : ScanKind
  settle : Nat
  lset   : Int
  lclr   : Int
  hclr   : Int
  hset   : Int
  n      : Nat
  link   : Option Feeder
deriving DecidableEq, Repr

/-- A probe's gain and offset (R117). -/
structure ProbeScale where
  gain   : Nat
  offset : Int
deriving DecidableEq, Repr

/-- The settings read from the configuration at each STARTING (R179), but for the window map's. -/
structure Settings where
  enable       : BitVec 8
  rate         : Nat
  window       : Nat
  attempts     : Nat
  tr           : Nat
  missThr      : Nat
  nmin         : Nat
  tc           : Nat
  heartbeat    : Nat
  escalation   : Nat
  attention    : Nat
  scanMode     : ScanMode
  scanInterval : Nat
  scanList     : List ScanEntry
  probes       : Vector ProbeScale 13
deriving DecidableEq, Repr

/-- No settings have been read since the reset (assumption 4). -/
def Settings.none : Settings :=
  { enable := 0, rate := 0, window := 0, attempts := 0, tr := 0, missThr := 0, nmin := 0, tc := 0, heartbeat := 0,
    escalation := 0, attention := 0, scanMode := .off, scanInterval := 0, scanList := [],
    probes := Vector.replicate 13 { gain := 0, offset := 0 } }

/-- The window map (R168): the six bases, Ns and S. -/
structure WindowMap where
  sub    : Nat
  bill   : Nat
  line   : Nat
  mirror : Nat
  log    : Nat
  tele   : Nat
  ns     : Nat
  s      : Nat
deriving DecidableEq, Repr

/-! ### The Tap Directory (chapter 4) -/

/-- A feeder and a position on it. -/
structure Place where
  feeder : Feeder
  pos    : Nat
deriving DecidableEq, Repr

/-- One port of an entry (R73). `applied = none` is UNKNOWN. -/
structure TapPort where
  claim   : Option Nat
  wanted  : PortState
  applied : Option PortState
  reapply : Bool
deriving DecidableEq, Repr

def TapPort.fresh : TapPort := { claim := none, wanted := PortState.off, applied := none, reapply := false }

/-- A pool entry (R72). `pending` names the feeder whose FRESH enumeration holds the entry, with the old position kept
with the mark (R88). -/
structure Entry where
  serial      : Word
  place       : Option Place
  state       : EntryState
  misses      : Nat
  silentSince : Nat
  lastAnswer  : Nat
  latency     : Nat
  tamper      : Bool
  low         : Bool
  ports       : Vector TapPort 4
  verify      : Bool
  pending     : Option Place
deriving DecidableEq, Repr

/-- A FREE entry: cleared in every field (R72). -/
def Entry.free : Entry :=
  { serial := 0, place := none, state := .free, misses := 0, silentSince := 0, lastAnswer := 0, latency := 0,
    tamper := false, low := false, ports := Vector.replicate 4 TapPort.fresh, verify := false, pending := none }

/-- A feeder's roll call (R83): cycle count, list of positions and entries, cursor into the list, the due paced READ, the
probe-owed flag and the cycle's pacing period. -/
structure RollCall where
  count     : Nat
  list      : List (Nat × EntryId)
  cursor    : Nat
  due       : Option (Nat × EntryId)
  probeOwed : Bool
  period    : Nat
deriving DecidableEq, Repr

def RollCall.cleared : RollCall :=
  { count := 0, list := [], cursor := 0, due := none, probeOwed := false, period := 1 }

/-! ### The Feeder Engines (chapter 3) -/

/-- The phases of an attempt (R57, R58): waiting for mark, calling, awaiting, receiving (the answer tail apart), gap. -/
inductive Phase where
  | waitMark | calling | awaiting | receiving | tail | gap
deriving DecidableEq, Repr

/-- The transaction record (R57). `ended` marks a transaction whose outcome has been reported and whose engine has not yet
left TALKING (R62). -/
structure Txn where
  cmd      : TapCmd
  addr     : Nat
  entry    : EntryId
  port     : Port
  sent     : PortState
  probe    : Bool
  chars    : List Byte
  attempt  : Nat
  limit    : Nat
  phase    : Phase
  ended    : Bool
  lastFail : Option FailKind
  latency  : Nat
  rx       : List Byte
deriving DecidableEq, Repr

/-- The result part of an outcome report (R62). -/
inductive OutRes where
  | ok (latency : Nat) (tamper low gate : Bool) (payload : List Byte)
  | failed (kind : FailKind)
deriving DecidableEq, Repr

/-- An outcome report handed to the Tap Directory and not yet taken (R62). -/
structure Outcome where
  cmd      : TapCmd
  addr     : Nat
  entry    : EntryId
  port     : Port
  sent     : PortState
  probe    : Bool
  attempts : Nat
  res      : OutRes
deriving DecidableEq, Repr

/-- How an entry was chosen for a serial (R89): it holds the serial, it was FREE, or free-on-demand takes it. -/
inductive Pick where
  | held | free | reused
deriving DecidableEq, Repr

/-- An enumeration or EXTEND step in progress (R87–R93): its mode, next position, count of taps placed, and the serial,
position and entry chosen for the ASSIGN in progress. `forgot` says that a FRESH has begun its FORGET; `due` is a call whose
turn came after hand-offs that had to wait, and which the next TRANSACTION_START sends (R58). `again` says that the outcome
still to be taken is of before a halt: the loop goes on from it with the next IDENTIFY (R94). -/
structure Enum where
  mode   : EnumMode
  forgot : Bool
  next   : Nat
  count  : Nat
  serial : Word
  pos    : Nat
  choice : Option (EntryId × Pick)
  due    : Option TapCmd
  again  : Bool
deriving DecidableEq, Repr

/-- An enumeration as it begins (R87, R88, R93). -/
def Enum.start (mode : EnumMode) : Enum :=
  { mode := mode, forgot := false, next := 1, count := 0, serial := 0, pos := 0, choice := none, due := none,
    again := false }

/-! ### The memory port (chapter 9) -/

/-- The eight command words (R171), in address order. -/
inductive Trigger where
  | control | heartbeat | timeSet | commit | closeOut | logConsumer | enumerate | scan
  | order (i : Nat)
deriving DecidableEq, Repr

/-- A passed computer cycle (R167), as decided when it was taken: its trigger, if it raises one. -/
structure Cycle where
  addr    : Nat
  write   : Bool
  be      : BitVec 4
  data    : Word
  trigger : Option Trigger
deriving DecidableEq, Repr

/-- The seven part requesters, in ring order (R177). -/
inductive Requester where
  | orderUnit | billing | lineUp | directory | alarm | scanner | runControl
deriving DecidableEq, Repr

/-- The bursts a block asks for (R176). A write names the record; its words are taken from the block's state at the grant.
A record of which the block keeps no table inside the part names the block's working words, of which the latest are
written. `result` is the one-word burst of a failing check of the active bank (R45), `readPending` the read of the pending bank's
header at start-up (R46). `read` is a read burst of a step of the block, with its address and its length (assumption 7). -/
inductive Burst where
  | sub (i : Nat) (ws : List Word) (answer : Bool)
  | bill (i : Nat) (ws : List Word)
  | header (b : Bank)
  | result (b : Bank)
  | word5 (k : SlotId)
  | prevRates
  | switchAnchor
  | mirror (e : EntryId)
  | logEntry
  | logAnchor
  | teleHeader
  | teleEntry (i : ScanId)
  | teleSlot (k : SlotId)
  | carrier (k : SlotId)
  | lastAlive
  | closeAnchor
  | boundary (ask : Bool)
  | cursor
  | readLastAlive
  | readBank (b : Bank) (part : Nat)
  | readPending (b : Bank)
  | read (addr : Nat) (len : Nat)
deriving DecidableEq, Repr

/-- A read that a step has to make: the address of the first word, and the number of words, all within one record (R176). -/
abbrev ReadReq := Nat × Nat

/-- A read burst that has ended for a step still to be made: its address, its length and the words it found (R176). -/
structure ReadDone where
  addr  : Nat
  len   : Nat
  words : List Word
deriving DecidableEq, Repr

/-- Who holds the memory port. `orphan` marks a burst whose block has been reset: it runs to its last word (R178). -/
inductive PortUse where
  | free
  | cycle (c : Cycle)
  | burst (r : Requester) (b : Burst) (addr : Nat) (ws : List Word) (orphan : Bool)
deriving DecidableEq, Repr

/-! ### Work in progress -/

/-- A dispatched order whose checks have passed (R7): the record as read, the order minute, and the entry of a new claim.
`reorder` says that an order arrival named its index since its dispatch began (R5; assumption 45). -/
structure OrderItem where
  kind    : OrderKind
  sub     : Nat
  record  : SubRec
  minute  : Nat
  entry   : Option EntryId
  reorder : Bool
deriving DecidableEq, Repr

/-- A confirmation being worked on (R19): `opens` are the purchase slots that become OPEN. -/
structure ConfirmItem where
  sub    : Nat
  e      : EntryId
  p      : Port
  answer : PortState
  minute : Nat
  opens  : List (Fin 4)
deriving DecidableEq, Repr

/-- A Purchase Index entry (R2). -/
structure IndexEntry where
  sub   : Nat
  event : Nat
  band  : Nat
  state : IndexState
deriving DecidableEq, Repr

/-- One record of the subscriber pass (R25), its notices handed first. -/
structure PassItem where
  i       : Nat
  record  : SubRec
  changed : Bool
deriving DecidableEq, Repr

/-- The steps of a block's work item that may have to wait: hand-offs, waits for its own bursts or an answer, and the
effects that come after them. A block's `work` list is what is left of its work item, oldest first. -/
inductive Task where
  | notice (q : QEntry)
  | alarm (kind : AlarmKind) (sev : Severity) (subject : Subject) (value : Word) (stamp : Option Nat)
  | orderReport (r : OrderReport)
  | corrReport (r : CorrReport)
  | burst (r : Requester) (b : Burst)
  | awaitWritten (r : Requester)
  | awaitAnswer
  | applyOrder (o : OrderItem)
  | applyConfirm (c : ConfirmItem)
  | setSettling (sub : Nat) (event : Nat)
  | freeBooked (sub : Nat) (event : Nat)
  | recompute (sub : Nat)
  | applyPass (p : PassItem)
  | passNext (p : PassItem)
  | overlapOut (sub : Nat) (event : Nat) (minutes : Nat)
  | settleOut (sub : Nat) (event : Nat)
  | refreshOut (sub : Nat)
  | noticeDone
  | sweepAdvance
  | sweepEnd
  | reconAdvance
  | takeBuyers
  | switchReportOut
  | switchDone
  | beginCall (f : Feeder) (cmd : TapCmd)
  | dueCall (f : Feeder) (cmd : TapCmd)
  | enumOver (f : Feeder)
  | blockedOver (f : Feeder)
  | awaitBlocked (f : Feeder)
  | scanNext
deriving DecidableEq, Repr

/-! ### The blocks -/

/-- Where a start stands (R181–R184). The configuration check goes through the configuration area, the active bank number,
the active bank and the log; `refusing` waits for the burst of a failing bank's result (R45). -/
inductive StartPhase where
  | none
  | lastAlive
  | check
  | bankNumber
  | bank (b : Bank)
  | refusing (b : Bank)
  | log
  | load (e : Nat)
  | loads (billing scanner : Bool)
  | pass (i : Nat)
  | lineup
  | lineupWait
  | states (scanner correlator : Bool)
  | recon (i : Nat)
  | enter
deriving DecidableEq, Repr

/-- Run Control (chapter 10). `held` is the reset line. `fromHalted` says where the STARTING in progress came from.
`staged` are settings that have been read and are not yet in force: those of a start from IDLE until its check has passed,
those of a resume until its entry to RUNNING. -/
structure RunControl where
  part       : PartState
  cause      : ResetCause
  fault      : ConfigFault
  held       : Bool
  fromHalted : Bool
  phase      : StartPhase
  runMinute  : Option Nat
  lastAlive  : Nat
  staged     : Option Settings
  result     : CmdResult
deriving DecidableEq, Repr

/-- The Time Base (chapter 8). -/
structure TimeBase where
  minute        : Nat
  half          : Nat
  clockSet      : Bool
  pacing        : Vector Timer 8
  blockedCheck  : Vector Timer 8
  scan          : Timer
  supervision   : Timer
  silent        : Bool
  silenceMinute : Nat
  timeResult    : CmdResult
  beatResult    : CmdResult
  work          : List Task
deriving DecidableEq, Repr

/-- The Memory Path (chapter 9). `cycle` is the passed cycle the computer presents and the port has not taken up;
`partNext` says that the port came free at the end of a computer cycle with a part request waiting (R177); `arrivals` are
the triggers raised and not yet taken by their owners, in the order their writes were taken by memory (R171). `reads` holds,
for each requester, the read bursts that have ended for its next step, and `turns` the read it presents with the number of the
bursts of its line that go before, noted when a burst is asked for behind it; `freeCount` is the model's own count of bursts granted
to the part, which picks the free values of Config. -/
structure MemPath where
  map             : Option WindowMap
  protActive      : Option Bank
  protSealed      : Option Bank
  suppressedCount : Nat
  suppressedAddr  : Nat
  suppressed      : Bool
  ignoredAddr     : Nat
  ignored         : Bool
  armed           : Bool
  pendingSub      : Option AlarmEntry
  ring            : Requester
  lines           : Vector (List Burst) 7
  port            : PortUse
  cycle           : Option Cycle
  partNext        : Bool
  arrivals        : List (Trigger × Word)
  reads           : Vector (List ReadDone) 7
  turns           : Vector (Option (Nat × ReadReq)) 7
  dataOut         : Word
  freeCount       : Nat
deriving DecidableEq, Repr

/-- An in-flight order (R8). `seq` is the model's own count of entries into the table, which orders starts and entries. -/
structure InFlight where
  sub     : Nat
  serial  : Nat
  kind    : OrderKind
  e       : EntryId
  p       : Port
  armed   : Bool
  reorder : Bool
  seq     : Nat
deriving DecidableEq, Repr

/-- A backlog walk (R6): the next index, whether it appended one, whether the queue was found full while it ran. -/
structure Walk where
  next     : Nat
  appended : Bool
  full     : Bool
deriving DecidableEq, Repr

/-- A dispatch whose record is being read (R7): the index, which has left the Order Queue, and whether an order arrival has named
it since (assumption 45). -/
structure Dispatch where
  sub     : Nat
  reorder : Bool
deriving DecidableEq, Repr

/-- The Order Unit (chapter 1). -/
structure OrderUnit where
  queue    : List Nat
  taken    : Option Dispatch
  inflight : List InFlight
  index    : List IndexEntry
  backlog  : Bool
  walk     : Option Walk
  reports  : List OrderReport
  billing  : List BillArrival
  nextSeq  : Nat
  work     : List Task
deriving DecidableEq, Repr

/-- A validation in progress (R33): the next part to be read (0 header, 1 band plan, 2–3 rates, 4–75 slots), the edited
mark, what has been read, and whether it is the start-up validation (R46). -/
structure Validation where
  bank    : Bank
  part    : Nat
  edited  : Bool
  minute  : Nat
  plan    : Vector BandPlan 8
  slots   : List Slot
  startup : Bool
deriving DecidableEq, Repr

/-- The ask for an EPOCH boundary (R148): none, taken and waiting for its burst, or answered at the boundary minute. -/
inductive Ask where
  | none
  | taken (minute : Nat)
  | answered (minute : Nat)
deriving DecidableEq, Repr

/-- A switch in progress (R39): the new bank, the switch minute, the staging copy and whether step 3 has been reached. -/
structure Switch where
  bank    : Bank
  minute  : Nat
  staging : Copy
  made    : Bool
deriving DecidableEq, Repr

/-- The line-up switch report (R126): the outgoing copy and the ids of the events carried. -/
structure SwitchReport where
  outgoing : Copy
  carried  : List Nat
deriving DecidableEq, Repr

/-- The Line-up Unit (chapter 2). `results` are the last validation result and failing slot of the
two banks' headers, bits 0–15 of their word 3 as last read or written; `last` is the live one. -/
structure LineUp where
  copy       : Option Copy
  active     : Option Bank
  bankState  : Vector BankState 2
  results    : Vector (BitVec 16) 2
  last       : ValResult × Bank × Option SlotId
  epoch      : EpochState
  epochReq   : Nat
  validation : Option Validation
  ask        : Ask
  switch     : Option Switch
  outgoing   : Option SwitchReport
  buyers     : Vector Nat 72
  written5   : Vector (EvState × Nat) 72
  result     : CmdResult
  work       : List Task
deriving DecidableEq, Repr

/-- The Tap Directory (chapter 4). The position lists are read off the pool (`placeAt`). -/
structure Directory where
  pool     : Vector Entry 576
  rolls    : Vector RollCall 8
  result   : CmdResult
  work     : List Task
deriving DecidableEq, Repr

/-- A Feeder Engine (chapter 3). `mark` is the receive input as last sampled; `watch` and `monitor` are the counts of the
line watch and the transmit monitor as last set by a step; `quiet` is the gap after a failed last attempt of an
enumeration call (R62). -/
structure Engine where
  state        : EngState
  txn          : Option Txn
  outcome      : Option Outcome
  enum         : Option Enum
  request      : Option EnumMode
  quiet        : Bool
  mark         : Bool
  watch        : Nat
  monitor      : Nat
  cut          : Bool
  checking     : Bool
  blockedSince : Nat
  work         : List Task
deriving DecidableEq, Repr

def Engine.reset : Engine :=
  { state := .off, txn := none, outcome := none, enum := none, request := none, quiet := false, mark := true, watch := 0,
    monitor := 0, cut := false, checking := false, blockedSince := 0, work := [] }

/-- An open outage (R97). -/
structure Outage where
  id       : Nat
  feeder   : Feeder
  first    : Nat
  last     : Nat
  start    : Nat
  declared : Nat
deriving DecidableEq, Repr

/-- The correlator of the Alarm Unit (5.1–5.4). -/
structure Correlator where
  outages     : List Outage
  nextId      : Nat
  reports     : List CorrReport
  lowSupply   : Vector Nat 8
  enumerating : Vector Bool 8
  listFull    : Bool
  work        : List Task
deriving DecidableEq, Repr

/-- The log side of the Alarm Unit (5.6, 5.7). The indices are held while `loaded`. `waiting` are consumer arrivals that
came before the log was loaded (R109). -/
structure AlarmLog where
  intake    : List AlarmEntry
  loaded    : Bool
  producer  : Nat
  consumer  : Nat
  slot      : Nat
  writing   : Option AlarmEntry
  dropped   : Nat
  critical  : List (Nat × Nat)
  attention : Bool
  escalated : Bool
  contact   : Bool
  result    : CmdResult
  waiting   : List Nat
deriving DecidableEq, Repr

/-- Evaluation state with its counts (R122). -/
structure Eval where
  state : EvalState
  low   : Nat
  high  : Nat
  clear : Nat
deriving DecidableEq, Repr

def Eval.normal : Eval := { state := .normal, low := 0, high := 0, clear := 0 }

/-- An entry record of the Telemetry Block with the entry's evaluation (R122, R124). -/
structure TeleEntry where
  eval   : Eval
  value  : Int
  code   : Nat
  shown  : EvalState
  sat    : Bool
  count  : Nat
  minute : Nat
deriving DecidableEq, Repr

def TeleEntry.cleared : TeleEntry :=
  { eval := Eval.normal, value := 0, code := 0, shown := .normal, sat := false, count := 0, minute := 0 }

/-- A slot record of the Telemetry Block with the slot's carrier evaluation and carrier-loss count (R122–R125). -/
structure TeleSlot where
  eval    : Eval
  value   : Int
  sat     : Bool
  sampled : Bool
  minute  : Nat
  loss    : Nat
deriving DecidableEq, Repr

def TeleSlot.cleared : TeleSlot :=
  { eval := Eval.normal, value := 0, sat := false, sampled := false, minute := 0, loss := 0 }

/-- A record of the retained list (R126). -/
structure Retained where
  event : Nat
  start : Nat
  stop  : Nat
  loss  : Nat
deriving DecidableEq, Repr

/-- A sample in progress (R118): its list index, its entry, the slot with its data for CARRIER, whether it converts, and
whether its slot is one of the outgoing copy of a switch (R126). -/
structure Sample where
  i          : ScanId
  entry      : ScanEntry
  slot       : Option (SlotId × Slot)
  converting : Bool
  old        : Bool
deriving DecidableEq, Repr

/-- The Telemetry Scanner (chapter 6). `startDue` says that a start is called for (R120); `ofOnce` that the sequence in
progress is the one an ONCE called for; `cut` that it ends after its sample in progress (R128). -/
structure Scanner where
  mode     : ScanMode
  interval : Nat
  scanning : Bool
  late     : Bool
  carrier  : Option SlotId
  seqCount : Nat
  startMin : Nat
  endMin   : Nat
  entries  : Vector TeleEntry 8
  slots    : Vector TeleSlot 72
  retained : List Retained
  sample   : Option Sample
  next     : Nat
  sampled  : Bool
  startDue : Bool
  ofOnce   : Bool
  cut      : Bool
  tune     : Nat
  result   : CmdResult
  work     : List Task
deriving DecidableEq, Repr

/-- The boundary the Billing Unit holds (R145). Kind NONE is no boundary outstanding. -/
structure Boundary where
  kind   : BoundaryKind
  minute : Nat
  number : Nat
deriving DecidableEq, Repr

/-- The Billing Unit (chapter 7). `closing` is a CLOSE registration whose anchor burst has not ended; `regWait` a
registration that waits for room in the Notice Queue; `owes` says that a sweep step follows the entry handled (R133). -/
structure Billing where
  queue       : List QEntry
  regWait     : Option QEntry
  closing     : Option QEntry
  loaded      : Bool
  period      : Nat
  periodStart : Nat
  prevLen     : Nat
  epoch       : Nat
  epochMin    : Nat
  cur         : Vector Nat 16
  prev        : Vector Nat 16
  boundary    : Boundary
  cursor      : Nat
  sweeping    : Bool
  owes        : Bool
  answer      : Bool
  result      : CmdResult
  work        : List Task
deriving DecidableEq, Repr

/-- The state of the part, of the memory behind it, and of the queue of commands that wait. `mem` lists the bytes of
memory, the byte address being four times the word address plus the byte number. -/
structure State where
  mem        : List Host.Cell
  run        : RunControl
  time       : TimeBase
  path       : MemPath
  cfg        : Settings
  order      : OrderUnit
  lineUp     : LineUp
  dir        : Directory
  engines    : Vector Engine 8
  corr       : Correlator
  log        : AlarmLog
  scan       : Scanner
  bill       : Billing
  pending    : List Instr
deriving DecidableEq, Repr

/-- The reasons a step can stop. The spec gives every command of the table an effect or none at all in every state, so no
step faults: the type has no constructor. -/
inductive Fault where
deriving DecidableEq, Repr

/-- The reasons a command has no meaning. -/
inductive Refusal where
  /-- Raised by an arm of `exec` whose command has no meaning yet; no arm is left so. Safe: the model stops. -/
  | notModelled (mnemonic : String)
deriving DecidableEq, Repr

/-! ### The reset values of each block, as its chapter states them -/

/-- Run Control after a reset of the kind given (R188). -/
def RunControl.reset (cause : ResetCause) : RunControl :=
  { part := .idle, cause := cause, fault := .none, held := false, fromHalted := false, phase := .none, runMinute := none,
    lastAlive := 0, staged := none, result := if cause = .restart then .accepted else .none }

/-- The Time Base after power-on and the reset line (R160, R164, R166). -/
def TimeBase.reset : TimeBase :=
  { minute := 0, half := 0, clockSet := false, pacing := Vector.replicate 8 Timer.stopped,
    blockedCheck := Vector.replicate 8 Timer.stopped, scan := Timer.stopped, supervision := Timer.stopped, silent := false,
    silenceMinute := 0, timeResult := .none, beatResult := .none, work := [] }

/-- The Memory Path after a reset with nothing on the port (R178). -/
def MemPath.reset : MemPath :=
  { map := none, protActive := none, protSealed := none, suppressedCount := 0, suppressedAddr := 0, suppressed := false,
    ignoredAddr := 0, ignored := false, armed := true, pendingSub := none, ring := .runControl,
    lines := Vector.replicate 7 [], port := .free, cycle := none, partNext := false, arrivals := [],
    reads := Vector.replicate 7 [], turns := Vector.replicate 7 none, dataOut := 0, freeCount := 0 }

/-- The Order Unit after a reset (R26). -/
def OrderUnit.reset : OrderUnit :=
  { queue := [], taken := none, inflight := [], index := [], backlog := false, walk := none, reports := [], billing := [], nextSeq := 0,
    work := [] }

/-- The Line-up Unit after a reset (R48). -/
def LineUp.reset : LineUp :=
  { copy := none, active := none, bankState := Vector.replicate 2 .notLoaded,
    results := Vector.replicate 2 0xFF00, last := (.none, 0, none), epoch := .none, epochReq := 0,
    validation := none, ask := .none, switch := none, outgoing := none, buyers := Vector.replicate 72 0,
    written5 := Vector.replicate 72 (.none, 0), result := .none, work := [] }

/-- The Tap Directory after a reset (R95). -/
def Directory.reset : Directory :=
  { pool := Vector.replicate 576 Entry.free, rolls := Vector.replicate 8 RollCall.cleared, result := .none, work := [] }

/-- The correlator after a reset (R106). -/
def Correlator.reset : Correlator :=
  { outages := [], nextId := 1, reports := [], lowSupply := Vector.replicate 8 0, enumerating := Vector.replicate 8 false,
    listFull := false, work := [] }

/-- The log side of the Alarm Unit after a reset (R111, R115). -/
def AlarmLog.reset : AlarmLog :=
  { intake := [], loaded := false, producer := 0, consumer := 0, slot := 0, writing := none, dropped := 0, critical := [],
    attention := false, escalated := false, contact := false, result := .none, waiting := [] }

/-- The Telemetry Scanner after a reset (R129). -/
def Scanner.reset : Scanner :=
  { mode := .off, interval := 0, scanning := false, late := false, carrier := none, seqCount := 0, startMin := 0,
    endMin := 0, entries := Vector.replicate 8 TeleEntry.cleared, slots := Vector.replicate 72 TeleSlot.cleared,
    retained := [], sample := none, next := 0, sampled := false, startDue := false, ofOnce := false, cut := false,
    tune := 0, result := .none, work := [] }

/-- The Billing Unit after a reset (R158). -/
def Billing.reset : Billing :=
  { queue := [], regWait := none, closing := none, loaded := false, period := 0, periodStart := 0, prevLen := 0, epoch := 0,
    epochMin := 0, cur := Vector.replicate 16 0, prev := Vector.replicate 16 0,
    boundary := { kind := .none, minute := 0, number := 0 }, cursor := 0, sweeping := false, owes := false, answer := false,
    result := .none, work := [] }

/-- The part right after power-on, with memory that nothing has written and no command waiting (R188). -/
def State.reset : State :=
  { mem := [], run := RunControl.reset .powerOn, time := TimeBase.reset, path := MemPath.reset, cfg := Settings.none,
    order := OrderUnit.reset, lineUp := LineUp.reset, dir := Directory.reset, engines := Vector.replicate 8 Engine.reset,
    corr := Correlator.reset, log := AlarmLog.reset, scan := Scanner.reset, bill := Billing.reset, pending := [] }

end Sys2Proof.Machine
end

