-- ==== Sys2Proof/Machine/Fields.lean ====
section
/-! DEFINITION. Bit fields of words, signed fields, and the CRC and address check of the tap line (11.1, R50, R51). -/

namespace Sys2Proof.Machine

/-- The field of `n` bits of `w` whose lowest bit is `lo`. -/
def bits (w : Word) (lo n : Nat) : Nat := (w.toNat >>> lo) % 2 ^ n

/-- Bit `i` of `w` as a flag. -/
def flagAt (w : Word) (i : Nat) : Bool := w.toNat.testBit i

/-- An `n`-bit two's complement field as an integer (chapter 11). -/
def signedField (n x : Nat) : Int := if x < 2 ^ (n - 1) then (x : Int) else (x : Int) - (2 ^ n : Nat)

/-- An integer as an `n`-bit two's complement field. -/
def fieldOfInt (n : Nat) (x : Int) : Nat := (x % ((2 ^ n : Nat) : Int)).toNat

/-- A number as a word. -/
def word (n : Nat) : Word := BitVec.ofNat 32 n

/-- An integer as a word, sign-extended (11.5). -/
def wordOfInt (x : Int) : Word := BitVec.ofInt 32 x

/-- A flag as a bit. -/
def bitOf (b : Bool) : Nat := if b then 1 else 0

/-- A count that stops at the top of its range (00_scope.md). -/
def satAdd (top a b : Nat) : Nat := min top (a + b)

/-- The minutes from an earlier minute to a later one, as a word. Where the earlier one lies above the later, as a
silent-since minute loaded from the mirror can, the value is free (R75, R101 and R103 state none; assumption 46). -/
def spanWord (later earlier : Nat) : Word :=
  if earlier ≤ later then word (later - earlier) else Config.negativeSpan later earlier

/-- The `i`th word of a record, counted from 0. -/
def wordAt (ws : List Word) (i : Nat) : Word := ws.getD i 0

/-- One step of the CRC-8 with polynomial x⁸ + x² + x + 1, most significant bit first (R51). -/
def crcBit (c : Byte) : Byte := if c.msb then (c <<< 1) ^^^ 0x07 else c <<< 1

/-- The CRC after one more character (R51). -/
def crcChar (crc c : Byte) : Byte :=
  crcBit (crcBit (crcBit (crcBit (crcBit (crcBit (crcBit (crcBit (crc ^^^ c))))))))

/-- The CRC character of a run of characters: initial value 0, no final inversion (R51). -/
def crc8 (cs : List Byte) : Byte := cs.foldl crcChar 0

/-- The number of 1 bits among bits 0–5 of an address. -/
def addrOnes (a : Nat) : Nat := ((List.range 6).filter a.testBit).length

/-- The address character: the address in bits 0–5, its check in bits 6–7 (R50). -/
def addrChar (a : Nat) : Byte := BitVec.ofNat 8 (a % 64 + 64 * (addrOnes a % 4))

/-- The four characters of a serial, least significant first (3.4). -/
def serialChars (s : Word) : List Byte :=
  [s.extractLsb' 0 8, s.extractLsb' 8 8, s.extractLsb' 16 8, s.extractLsb' 24 8]

/-- The character at place `i` of a run of characters. -/
def charAt (cs : List Byte) (i : Nat) : Byte := cs.getD i 0

/-- The serial held by the first four characters. -/
def serialOfChars (cs : List Byte) : Word := charAt cs 3 ++ charAt cs 2 ++ charAt cs 1 ++ charAt cs 0

end Sys2Proof.Machine
end

