-- ==== Sys2Proof/Machine/Ops.lean ====
section
/-! DEFINITION. The operations the blocks share: bytes and words of memory, interval timers, the request lines and the
turn at the memory port, and the predicates on the part state that many rules name. -/

namespace Sys2Proof.Machine

/-- What a command answers: the next state, a fault or a refusal. -/
abbrev Answer := Host.Outcome State Fault Refusal

/-! ### Memory (00_scope.md, Memory and words) -/

/-- The byte at byte address `a`; an unlisted address reads as `Config.unwrittenByte` (assumption 2). -/
def memGet : List Host.Cell → Nat → Byte
  | [], _ => Config.unwrittenByte
  | (k, b) :: r, a => if k = a then b else memGet r a

/-- The memory with byte `b` at byte address `a`, in canonical form. -/
def memSet : List Host.Cell → Nat → Byte → List Host.Cell
  | [], a, b => if b = Config.unwrittenByte then [] else [(a, b)]
  | (k, c) :: r, a, b =>
    if a < k then (if b = Config.unwrittenByte then (k, c) :: r else (a, b) :: (k, c) :: r)
    else if a = k then (if b = Config.unwrittenByte then r else (a, b) :: r)
    else (k, c) :: memSet r a b

/-- The canonical form: addresses strictly rising from `lo`, no entry equal to what an unlisted address reads as. -/
def memWfFrom : Nat → List Host.Cell → Bool
  | _, [] => true
  | lo, (k, b) :: r => decide (lo ≤ k) && (b != Config.unwrittenByte) && memWfFrom (k + 1) r

/-- The canonical form of memory. -/
def Memory.wf (m : List Host.Cell) : Bool := memWfFrom 0 m

/-- The word at word address `a`: byte `i` of it lies at byte address `4a + i` and holds bits `8i` to `8i + 7`. -/
def memWord (m : List Host.Cell) (a : Nat) : Word :=
  memGet m (4 * a + 3) ++ memGet m (4 * a + 2) ++ memGet m (4 * a + 1) ++ memGet m (4 * a)

/-- A write of the bytes of `w` whose enables are set in `be` (R167). -/
def memWriteBytes (m : List Host.Cell) (a : Nat) (be : BitVec 4) (w : Word) : List Host.Cell :=
  let m0 := if be.getLsbD 0 then memSet m (4 * a) (w.extractLsb' 0 8) else m
  let m1 := if be.getLsbD 1 then memSet m0 (4 * a + 1) (w.extractLsb' 8 8) else m0
  let m2 := if be.getLsbD 2 then memSet m1 (4 * a + 2) (w.extractLsb' 16 8) else m1
  if be.getLsbD 3 then memSet m2 (4 * a + 3) (w.extractLsb' 24 8) else m2

/-- A write of a whole word. -/
def memWrite (m : List Host.Cell) (a : Nat) (w : Word) : List Host.Cell := memWriteBytes m a 0xF w

/-- A write of consecutive words from `a` (a burst, R176). -/
def memWriteWords : List Host.Cell → Nat → List Word → List Host.Cell
  | m, _, [] => m
  | m, a, w :: ws => memWriteWords (memWrite m a w) (a + 1) ws

/-- `n` consecutive words from `a`. -/
def memWords (m : List Host.Cell) (a n : Nat) : List Word := (List.range n).map fun i => memWord m (a + i)

/-! ### Interval timers (R164) -/

/-- Start: the period given, the count 0, running; an expiry not yet taken is not handed. -/
def Timer.start (p : Nat) : Timer := { period := p, next := p, count := 0, running := true, due := 0 }

/-- Period change: the new period takes effect at the next expiry. -/
def Timer.changePeriod (t : Timer) (p : Nat) : Timer := { t with next := p }

/-- One half-second tick of a timer. -/
def Timer.tick (t : Timer) : Timer :=
  if t.running then
    if t.count + 1 ≥ t.period then { t with count := 0, period := t.next, due := t.due + 1 }
    else { t with count := t.count + 1 }
  else t

/-- The owner takes one expiry. -/
def Timer.take (t : Timer) : Timer := { t with due := t.due - 1 }

/-- Every timer of the Time Base counts the tick, whether the clock counts or not (R159, R164). -/
def TimeBase.tickTimers (t : TimeBase) : TimeBase :=
  { t with pacing := t.pacing.map Timer.tick, blockedCheck := t.blockedCheck.map Timer.tick, scan := t.scan.tick,
           supervision := t.supervision.tick }

/-! ### Part states -/

/-- In STARTING from HALTED each block works as in HALTED (R181). -/
def State.asHalted (s : State) : Bool :=
  s.run.part == .halted || (s.run.part == .starting && s.run.fromHalted)

/-- RUNNING, HALTING, HALTED, and STARTING from HALTED: the states in which the blocks take reports (R26, R106, R157). -/
def State.inService (s : State) : Bool :=
  s.run.part == .running || s.run.part == .halting || s.asHalted

/-- RUNNING, HALTING and HALTED proper. -/
def State.afterStart (s : State) : Bool :=
  s.run.part == .running || s.run.part == .halting || s.run.part == .halted

/-- STARTING from IDLE. -/
def State.coldStart (s : State) : Bool := s.run.part == .starting && !s.run.fromHalted

/-- The current plant minute. -/
def State.now (s : State) : Nat := s.time.minute

/-- The RUN minute (R181). -/
def State.runMinute (s : State) : Nat := s.run.runMinute.getD 0

/-! ### Engines, entries and request lines by index -/

def State.eng (s : State) (f : Feeder) : Engine := s.engines[f]

def State.setEng (s : State) (f : Feeder) (e : Engine) : State := { s with engines := s.engines.set f e }

def State.entry (s : State) (e : EntryId) : Entry := s.dir.pool[e]

def State.setEntry (s : State) (e : EntryId) (x : Entry) : State :=
  { s with dir := { s.dir with pool := s.dir.pool.set e x } }

def State.roll (s : State) (f : Feeder) : RollCall := s.dir.rolls[f]

def State.setRoll (s : State) (f : Feeder) (r : RollCall) : State :=
  { s with dir := { s.dir with rolls := s.dir.rolls.set f r } }

def State.setPacing (s : State) (f : Feeder) (t : Timer) : State :=
  { s with time := { s.time with pacing := s.time.pacing.set f t } }

def State.setBlockedCheck (s : State) (f : Feeder) (t : Timer) : State :=
  { s with time := { s.time with blockedCheck := s.time.blockedCheck.set f t } }

/-- The place of a requester in the ring (R177). -/
def Requester.idx : Requester → Fin 7
  | .orderUnit => 0 | .billing => 1 | .lineUp => 2 | .directory => 3 | .alarm => 4 | .scanner => 5 | .runControl => 6

/-- The requesters in ring order, beginning after the one given and ending with it (R177). -/
def Requester.after : Requester → List Requester
  | .orderUnit => [.billing, .lineUp, .directory, .alarm, .scanner, .runControl, .orderUnit]
  | .billing => [.lineUp, .directory, .alarm, .scanner, .runControl, .orderUnit, .billing]
  | .lineUp => [.directory, .alarm, .scanner, .runControl, .orderUnit, .billing, .lineUp]
  | .directory => [.alarm, .scanner, .runControl, .orderUnit, .billing, .lineUp, .directory]
  | .alarm => [.scanner, .runControl, .orderUnit, .billing, .lineUp, .directory, .alarm]
  | .scanner => [.runControl, .orderUnit, .billing, .lineUp, .directory, .alarm, .scanner]
  | .runControl => [.orderUnit, .billing, .lineUp, .directory, .alarm, .scanner, .runControl]

def MemPath.line (p : MemPath) (r : Requester) : List Burst := p.lines[r.idx]

def MemPath.setLine (p : MemPath) (r : Requester) (l : List Burst) : MemPath :=
  { p with lines := p.lines.set r.idx l }

/-- Records of which a waiting burst carries later changes, so that no second burst is asked for (R81, R124, R161). -/
def Burst.carries : Burst → Bool
  | .mirror _ | .teleHeader | .teleEntry _ | .teleSlot _ | .carrier _ | .lastAlive => true
  | _ => false

/-- The base of the window map's tables, 0 while no map is held. -/
def State.map (s : State) : WindowMap :=
  s.path.map.getD { sub := 0, bill := 0, line := 0, mirror := 0, log := 0, tele := 0, ns := 0, s := 0 }

/-- The work list of a block. -/
def State.workOf (s : State) : Blk → List Task
  | .orderUnit => s.order.work
  | .billing => s.bill.work
  | .lineUp => s.lineUp.work
  | .directory => s.dir.work
  | .engine f => (s.eng f).work
  | .correlator => s.corr.work
  | .scanner => s.scan.work
  | .timeBase => s.time.work

/-- The state with a block's work list replaced. -/
def State.setWork (s : State) (b : Blk) (ts : List Task) : State :=
  match b with
  | .orderUnit => { s with order := { s.order with work := ts } }
  | .billing => { s with bill := { s.bill with work := ts } }
  | .lineUp => { s with lineUp := { s.lineUp with work := ts } }
  | .directory => { s with dir := { s.dir with work := ts } }
  | .engine f => s.setEng f { s.eng f with work := ts }
  | .correlator => { s with corr := { s.corr with work := ts } }
  | .scanner => { s with scan := { s.scan with work := ts } }
  | .timeBase => { s with time := { s.time with work := ts } }

end Sys2Proof.Machine
end

