-- ==== Sys2Proof/Machine/Operands.lean ====
section
/-! DEFINITION. The layouts of words (chapter 11): codes of names, and subscriber, billing, slot, mirror and log records
read from and written as words. Unassigned bits are written 0 and not read (R190). -/

namespace Sys2Proof.Machine

/-! ### Codes (11.7) -/

def PartState.code : PartState → Nat
  | .idle => 0 | .starting => 1 | .running => 2 | .halting => 3 | .halted => 4

def ResetCause.code : ResetCause → Nat
  | .powerOn => 1 | .resetLine => 2 | .restart => 3

def EngState.code : EngState → Nat
  | .off => 0 | .ready => 1 | .talking => 2 | .enumerating => 3 | .blocked => 4

def BankState.code : BankState → Nat
  | .notLoaded => 0 | .active => 1 | .editable => 2 | .validating => 3 | .sealed => 4

def EpochState.code : EpochState → Nat
  | .none => 0 | .scheduled => 1 | .held => 2

def EvState.code : EvState → Nat
  | .none => 0 | .scheduled => 1 | .running => 2 | .ended => 3

def EvalState.code : EvalState → Nat
  | .normal => 0 | .low => 1 | .high => 2

def BillState.code : BillState → Nat
  | .off => 0 | .awaiting => 1 | .service => 2 | .outage => 3

def BoundaryKind.code : BoundaryKind → Nat
  | .none => 0 | .close => 1 | .epoch => 2

def ScanMode.code : ScanMode → Nat
  | .off => 0 | .once => 1 | .periodic => 2 | .continuous => 3

def EntryState.code : EntryState → Nat
  | .free => 0 | .present => 1 | .silent => 2 | .lost => 3

def Severity.code : Severity → Nat
  | .info => 0 | .minor => 1 | .major => 2 | .critical => 3

def Ending.code : Ending → Nat
  | .complete => 0 | .identifyFailed => 1 | .assignFailed => 2 | .forgetFailed => 3 | .feederFull => 4
  | .notAdmitted => 5 | .outageOpen => 6 | .blocked => 7

def TapCmd.code : TapCmd → Nat
  | .read => 1 | .setPort => 2 | .identify => 3 | .assign => 4 | .forget => 5

def Confirmed.code : Confirmed → Nat
  | .none => 0 | .off => 1 | .on => 2

def OrderKind.code : OrderKind → Nat
  | .enrol => 1 | .connect => 2 | .disconnect => 3 | .retier => 4 | .move => 5 | .buy => 6 | .cancel => 7 | .audit => 8
  | .remove => 9

def OrderResult.code : OrderResult → Nat
  | .done => 0x01 | .deferred => 0x02 | .auditMatch => 0x03 | .auditMismatch => 0x04 | .unreachable => 0x05
  | .badOrder => 0x10 | .notEnrolled => 0x11 | .alreadyEnrolled => 0x12 | .noSuchTap => 0x13 | .portInUse => 0x14
  | .notConnected => 0x15 | .notOff => 0x16 | .unbilled => 0x17 | .purchasesOpen => 0x18 | .noSuchEvent => 0x19
  | .eventEnded => 0x1A | .duplicate => 0x1B | .purchaseLimit => 0x1C | .indexFull => 0x1D | .alreadyOpen => 0x1E
  | .notBooked => 0x1F | .samePort => 0x20

def CmdResult.code : CmdResult → Nat
  | .none => 0x00 | .accepted => 0x01 | .inProgress => 0x02 | .notRunning => 0x10 | .busy => 0x11
  | .alreadyRunning => 0x12 | .badAction => 0x13 | .timeNotSet => 0x14 | .timeBeforeLastAlive => 0x15 | .config => 0x16
  | .layoutChanged => 0x17 | .timeBackward => 0x18 | .notPendingBank => 0x19 | .alreadySealed => 0x1A
  | .nothingSealed => 0x1B | .sweepBusy => 0x1C | .emptyPeriod => 0x1D | .indexRange => 0x1E | .feeder => 0x1F
  | .outageOpen => 0x20

def ValResult.code : ValResult → Nat
  | .none => 0x00 | .passed => 0x01 | .edited => 0x02 | .withdrawn => 0x03 | .aborted => 0x04 | .classBand => 0x10
  | .badChannel => 0x11 | .duplicateChannel => 0x12 | .badTune => 0x13 | .badEventId => 0x14 | .eventWindow => 0x15
  | .eventOverlap => 0x16 | .duplicateEvent => 0x17 | .eventChanged => 0x18

def ConfigFault.code : ConfigFault → Nat
  | .none => 0 | .logSize => 1 | .subscriberCount => 2 | .windowBounds => 3 | .windowOverlap => 4 | .lineRate => 5
  | .answerWindow => 6 | .attempts => 7 | .missThreshold => 8 | .rollCallPeriod => 9 | .outageMinimum => 10
  | .attentionThreshold => 11 | .escalationTime => 12 | .heartbeatInterval => 13 | .scanList => 14 | .scanEntry => 15
  | .scanMode => 16 | .activeBankNumber => 17 | .activeBankInvalid => 18

def AlarmKind.code : AlarmKind → Nat
  | .tapLost => 0x01 | .tapBack => 0x02 | .tapNew => 0x03 | .tapMoved => 0x04 | .tapNotAdmitted => 0x05
  | .tapStateMismatch => 0x06 | .tapTamper => 0x07 | .tapLowSupply => 0x08 | .tapLatencyShift => 0x09
  | .outageOpen => 0x10 | .outageMerged => 0x11 | .outageSplit => 0x12 | .outageClosed => 0x13
  | .outageListFull => 0x14 | .feederBlocked => 0x18 | .feederClear => 0x19 | .transmitterFault => 0x1A
  | .enumerationDone => 0x1B | .feederFull => 0x1C | .epochSwitched => 0x20 | .epochHeld => 0x21 | .closeOutDone => 0x22
  | .controllerSilent => 0x28 | .controllerBack => 0x29 | .writeSuppressed => 0x2A | .resumed => 0x2B
  | .logOverflowed => 0x2C | .probeLow => 0x30 | .probeHigh => 0x31 | .probeNormal => 0x32 | .carrierLow => 0x33
  | .carrierHigh => 0x34 | .carrierNormal => 0x35

/-! ### Subscriber records (11.3) -/

def purchaseOf (a b : Word) : Purchase :=
  { event := bits a 0 16, price := bits a 16 16, state := if bits b 0 2 = 2 then .opened else .booked,
    charged := flagAt b 2, overlap := bits b 16 16 }

/-- Whether a purchase slot is used (R2). -/
def Purchase.used (p : Purchase) : Bool := p.event != 0

/-- Whether a used slot reads a state that is neither BOOKED nor OPEN (R191). -/
def strangeSlot (a b : Word) : Bool := bits a 0 16 != 0 && bits b 0 2 != 1 && bits b 0 2 != 2

/-- A purchase slot's two words; a free slot is written zero in every field (R2), also by a burst of the record whose change lies
elsewhere: a burst of a record writes words 4–15 whole (assumption 53). -/
def Purchase.words (p : Purchase) : List Word :=
  if p.event = 0 then [0, 0]
  else [word (p.event + 2 ^ 16 * p.price),
        word ((if p.state = .opened then 2 else 1) + 4 * bitOf p.charged + 2 ^ 16 * p.overlap)]

/-- A subscriber record read from its 16 words. A confirmed port state of 3 is taken as NONE (R191). -/
def SubRec.ofWords (ws : List Word) : SubRec :=
  let w := wordAt ws
  { serial := w 1, port := Fin.ofNat 4 (bits (w 2) 0 2), tiers := BitVec.ofNat 16 (bits (w 2) 16 16),
    okind := bits (w 3) 0 8, oserial := bits (w 3) 8 8, oarg := bits (w 3) 16 16,
    done := bits (w 4) 0 8, result := bits (w 4) 8 8, enrolled := flagAt (w 4) 16, wantOn := flagAt (w 4) 17,
    claimHeld := flagAt (w 4) 18, claimPort := Fin.ofNat 4 (bits (w 4) 19 2),
    confirmed := if bits (w 4) 21 2 = 1 then .off else if bits (w 4) 21 2 = 2 then .on else .none,
    claimSerial := w 5, lastConfirm := (w 6).toNat, auditOn := flagAt (w 7) 0,
    auditMask := BitVec.ofNat 8 (bits (w 7) 8 8), failures := bits (w 7) 24 8,
    slots := Vector.ofFn fun k => purchaseOf (w (8 + 2 * k.val)) (w (9 + 2 * k.val)) }

/-- Words 4–15 of a subscriber record, which the part owns (R1). -/
def SubRec.partWords (r : SubRec) : List Word :=
  [word (r.done + 2 ^ 8 * r.result + 2 ^ 16 * bitOf r.enrolled + 2 ^ 17 * bitOf r.wantOn + 2 ^ 18 * bitOf r.claimHeld +
      2 ^ 19 * r.claimPort.val + 2 ^ 21 * r.confirmed.code),
   r.claimSerial, word r.lastConfirm,
   word (bitOf r.auditOn + 2 ^ 8 * r.auditMask.toNat + 2 ^ 24 * r.failures)] ++
  r.slots[0].words ++ r.slots[1].words ++ r.slots[2].words ++ r.slots[3].words

/-- A record is pending (R4): its order word holds a kind and a serial other than the done serial. -/
def SubRec.pending (r : SubRec) : Bool := r.okind != 0 && r.oserial != r.done

/-- The lowest-numbered used slot that holds an event id. -/
def SubRec.slotOf (r : SubRec) (id : Nat) : Option (Fin 4) :=
  (List.finRange 4).find? fun k => r.slots[k].used && r.slots[k].event == id

/-- The lowest-numbered OPEN slot that holds an event id. -/
def SubRec.openSlotOf (r : SubRec) (id : Nat) : Option (Fin 4) :=
  (List.finRange 4).find? fun k => r.slots[k].used && r.slots[k].event == id && r.slots[k].state == .opened

/-- The highest-numbered OPEN slot that holds an event id. -/
def SubRec.lastOpenSlotOf (r : SubRec) (id : Nat) : Option (Fin 4) :=
  (List.finRange 4).reverse.find? fun k => r.slots[k].used && r.slots[k].event == id && r.slots[k].state == .opened

/-- The lowest-numbered BOOKED slot that holds an event id. -/
def SubRec.bookedSlotOf (r : SubRec) (id : Nat) : Option (Fin 4) :=
  (List.finRange 4).find? fun k => r.slots[k].used && r.slots[k].event == id && r.slots[k].state == .booked

/-- The lowest-numbered free slot (R2). -/
def SubRec.freeSlot (r : SubRec) : Option (Fin 4) := (List.finRange 4).find? fun k => !r.slots[k].used

def SubRec.setSlot (r : SubRec) (k : Fin 4) (p : Purchase) : SubRec := { r with slots := r.slots.set k p }

/-! ### Billing records (11.3) -/

def acc48 (lo hi : Word) : Nat := lo.toNat + 2 ^ 32 * bits hi 0 16

def BillRec.ofWords (ws : List Word) : BillRec :=
  let w := wordAt ws
  { state := match bits (w 0) 0 2 with | 0 => .off | 1 => .awaiting | 2 => .service | _ => .outage,
    saturated := flagAt (w 0) 7, epoch := bits (w 0) 8 8, period := bits (w 0) 16 16, since := (w 1).toNat,
    tiers := BitVec.ofNat 16 (bits (w 2) 0 16), began := (w 3).toNat, a := acc48 (w 4) (w 5), o := acc48 (w 6) (w 7),
    k := acc48 (w 8) (w 9), charged := (w 10).toNat, refunded := (w 11).toNat, stCharge := (w 12).toNat,
    stCredit := (w 13).toNat, stNet := signedField 32 (w 14).toNat, stMinutes := (w 15).toNat }

def BillRec.words (r : BillRec) : List Word :=
  [word (r.state.code + 2 ^ 7 * bitOf r.saturated + 2 ^ 8 * r.epoch + 2 ^ 16 * r.period), word r.since,
   word r.tiers.toNat, word r.began, word (r.a % 2 ^ 32), word (r.a / 2 ^ 32), word (r.o % 2 ^ 32), word (r.o / 2 ^ 32),
   word (r.k % 2 ^ 32), word (r.k / 2 ^ 32), word r.charged, word r.refunded, word r.stCharge, word r.stCredit,
   wordOfInt r.stNet, word r.stMinutes]

/-! ### Line-up banks (11.4) -/

/-- A band plan word, none for a kind that is no code. -/
def BandPlan.ofWord (w : Word) : Option BandPlan :=
  match bits w 0 4 with
  | 0 => some { kind := .closed, tier := bits w 8 4 }
  | 1 => some { kind := .tier, tier := bits w 8 4 }
  | 2 => some { kind := .event, tier := bits w 8 4 }
  | _ => none

/-- A slot record's words, none for a class that is no code. For a DARK slot only the class is read (R29). -/
def Slot.ofWords (ws : List Word) : Option Slot :=
  let w := wordAt ws
  let lit (cls : SlotClass) : Slot :=
    { cls := cls, channel := bits (w 0) 0 8, band := bits (w 0) 8 3, tune := bits (w 0) 16 10,
      level := signedField 16 (bits (w 1) 0 16), event := bits (w 1) 16 16, price := bits (w 2) 0 16,
      start := (w 3).toNat, stop := (w 4).toNat }
  match bits (w 0) 12 4 with
  | 0 => some Slot.dark
  | 1 => some { lit .regular with event := 0, price := 0, start := 0, stop := 0 }
  | 2 => some (lit .event)
  | _ => none

def Slot.isLit (x : Slot) : Bool := x.cls != .dark

def Slot.isEvent (x : Slot) : Bool := x.cls == .event

/-! ### Mirror entries (11.5) -/

/-- An applied state's half word; where it is UNKNOWN, on and the mask are those of `u`. -/
def appliedHalf (u : BitVec 16) : Option PortState → Nat
  | none => 2 + bitOf (u.getLsbD 0) + 2 ^ 8 * (u.toNat / 2 ^ 8)
  | some p => bitOf p.on + 2 ^ 8 * p.mask.toNat

def appliedOfHalf (x : Nat) : Option PortState :=
  if x.testBit 1 then none else some { on := x.testBit 0, mask := BitVec.ofNat 8 (x / 2 ^ 8) }

/-- The eight words of a mirror entry (R80). A FREE entry is cleared in every field. `u` fills the fields of a port whose
applied state is UNKNOWN, and `v` the feeder and position of an entry that is not placed. -/
def Entry.mirrorWith (x : Entry) (u : Fin 4 → BitVec 16) (v : BitVec 10) : List Word :=
  let placed := match x.place with
    | some pl => 2 ^ 3 + 2 ^ 4 * pl.feeder.val + 2 ^ 8 * pl.pos
    | none => 2 ^ 4 * v.toNat
  if x.state = .free then List.replicate 8 0
  else
    [x.serial,
     word (x.state.code + placed + 2 ^ 16 * x.misses + 2 ^ 24 * bitOf x.tamper + 2 ^ 25 * bitOf x.low),
     word x.silentSince, word x.lastAnswer,
     word (appliedHalf (u 0) x.ports[0].applied + 2 ^ 16 * appliedHalf (u 1) x.ports[1].applied),
     word (appliedHalf (u 2) x.ports[2].applied + 2 ^ 16 * appliedHalf (u 3) x.ports[3].applied), word x.latency, 0]

/-- The mirrored fields, by which a change of one is found (R81). -/
def Entry.mirror (x : Entry) : List Word := x.mirrorWith (fun _ => 0) 0

/-- The words the part's burst number `n` writes for a mirror entry (R80; the fields it leaves open are assumption 22). -/
def Entry.mirrorWords (x : Entry) (n : Nat) : List Word := x.mirrorWith (Config.unknownPort n) (Config.absentPlace n)

/-- A mirror entry as it reads at the start-up load, before the repairs of R82; none when its state is FREE or no state. -/
def Entry.ofMirror (ws : List Word) : Option Entry :=
  let w := wordAt ws
  let st := bits (w 1) 0 3
  let place : Option Place :=
    if flagAt (w 1) 3 then
      if h : bits (w 1) 4 4 < 8 then
        if 1 ≤ bits (w 1) 8 6 ∧ bits (w 1) 8 6 ≤ 62 then some { feeder := ⟨bits (w 1) 4 4, h⟩, pos := bits (w 1) 8 6 }
        else none
      else none
    else none
  let port (x : Nat) : TapPort := { TapPort.fresh with applied := appliedOfHalf x }
  if st = 1 ∨ st = 2 ∨ st = 3 then
    some { serial := w 0, place := place, state := if st = 1 then .present else if st = 2 then .silent else .lost,
           misses := min 15 (bits (w 1) 16 8), silentSince := (w 2).toNat, lastAnswer := (w 3).toNat,
           latency := bits (w 6) 0 8, tamper := flagAt (w 1) 24, low := flagAt (w 1) 25,
           ports := #v[port (bits (w 4) 0 16), port (bits (w 4) 16 16), port (bits (w 5) 0 16), port (bits (w 5) 16 16)],
           verify := false, pending := none }
  else none

/-! ### Alarm log entries (11.5) -/

/-- The place layout of subject type 1, also used in values that name a place. -/
def placeWord (f : Feeder) (pos : Nat) : Nat := f.val + 2 ^ 8 * pos

def Subject.typeCode : Subject → Nat
  | .none => 0 | .place _ _ => 1 | .feeder _ => 2 | .slot _ => 3 | .probe _ => 4 | .outage _ => 6

def Subject.value : Subject → Nat
  | .none => 0
  | .place f pos => placeWord f pos
  | .feeder f => f.val
  | .slot k => k.val
  | .probe p => p
  | .outage id => id

/-- The four words of a log entry whose own index is `idx` (R108). -/
def AlarmEntry.words (a : AlarmEntry) (idx : Nat) : List Word :=
  [word (a.kind.code + 2 ^ 8 * a.sev.code + 2 ^ 12 * a.subject.typeCode + 2 ^ 16 * idx), word a.subject.value,
   word a.minute, a.value]

/-- The value of a place that may be none (11.5). -/
def placeValue : Option Place → Word
  | none => 0xFFFFFFFF
  | some pl => word (placeWord pl.feeder pl.pos)

/-! ### Command words (11.2) -/

def actionCode (w : Word) : Nat := bits w 0 8

def bankField (w : Word) : Nat := bits w 8 8

def enumModeField (w : Word) : Nat := bits w 8 8

/-- The feeders named by the enumerate word. -/
def enumFeeders (w : Word) : List Feeder := (List.finRange 8).filter fun f => flagAt w f.val

def intervalField (w : Word) : Nat := bits w 16 16

/-- The address of a command word. -/
def Trigger.addr (m : Option WindowMap) : Trigger → Nat
  | .control => Config.commandBase
  | .heartbeat => Config.commandBase + 1
  | .timeSet => Config.commandBase + 2
  | .commit => Config.commandBase + 3
  | .closeOut => Config.commandBase + 4
  | .logConsumer => Config.commandBase + 5
  | .enumerate => Config.commandBase + 6
  | .scan => Config.commandBase + 7
  | .order i => (m.map (·.sub)).getD 0 + 16 * i + 3

end Sys2Proof.Machine
end

