-- ==== Sys2Proof/Machine/Flags.lean ====
section
/-! DEFINITION. The status flags and the live words: the attention line, the escalation condition and the alarm contact
(R113–R115), and what each word of the live area reads (R175, R179, 11.2). -/

namespace Sys2Proof.Machine

/-- The unconsumed count (R108), taken as 0 before the log is loaded (R113). -/
def AlarmLog.unconsumed (l : AlarmLog) : Nat :=
  if l.loaded then (l.producer + 65536 - l.consumer) % 65536 else 0

/-- The condition of the attention line (R113). -/
def State.attentionDue (s : State) : Bool :=
  s.run.part != .idle && s.log.loaded && (decide (s.cfg.attention ≤ s.log.unconsumed) || !s.log.critical.isEmpty)

/-- The attention line is evaluated again (R113). -/
def State.evalAttention (s : State) : State := { s with log := { s.log with attention := s.attentionDue } }

/-- The escalation condition (R114): the oldest critical record is older than the escalation time. -/
def State.escalationDue (s : State) : Bool :=
  match s.log.critical with
  | [] => false
  | (_, m) :: _ => decide (m + s.cfg.escalation < s.now)

/-- The condition of the alarm contact (R115). -/
def State.contactDue (s : State) : Bool := s.run.part != .idle && (s.log.escalated || s.time.silent)

/-- The alarm contact follows its two inputs at once (R115). -/
def State.evalContact (s : State) : State := { s with log := { s.log with contact := s.contactDue } }

/-- The escalation condition is evaluated, and the contact follows (R114, R115). -/
def State.evalEscalation (s : State) : State :=
  State.evalContact { s with log := { s.log with escalated := s.escalationDue } }

/-- Evaluation at a change of the producer, the consumer or the critical list (R113, R114). -/
def State.evalLog (s : State) : State := s.evalAttention.evalEscalation

/-- The clock-held flag (R159). -/
def State.clockHeld (s : State) : Bool := s.time.minute == Config.minuteTop

/-- The status flags word 0xFFFC1. -/
def State.flagsWord (s : State) : Word :=
  word (bitOf s.time.clockSet + 2 * bitOf s.clockHeld + 4 * bitOf s.time.silent + 8 * bitOf s.log.attention +
    16 * bitOf s.log.contact + 32 * bitOf s.path.suppressed + 64 * bitOf s.path.ignored + 128 * bitOf s.order.backlog)

/-- A failing slot field; none is 0xFF (R191). -/
def failingCode : Option SlotId → Nat
  | none => 0xFF
  | some k => k.val

/-- The states of the eight feeders, four bits each. -/
def State.feederWord (s : State) : Word :=
  word ((List.finRange 8).foldl (fun n f => n + 2 ^ (4 * f.val) * (s.eng f).state.code) 0)

/-- What the live word at word address `a` reads (11.2); words with no meaning assigned read 0. -/
def State.live (s : State) (a : Nat) : Word :=
  match a - Config.liveBase with
  | 0 => word (s.run.part.code + 2 ^ 8 * s.run.cause.code + 2 ^ 16 * s.run.fault.code)
  | 1 => s.flagsWord
  | 2 => word s.time.minute
  | 3 => word s.time.half
  | 4 => word s.run.result.code
  | 5 => word s.time.beatResult.code
  | 6 => word s.time.timeResult.code
  | 7 => word s.lineUp.result.code
  | 8 => word s.bill.result.code
  | 9 => word s.log.result.code
  | 10 => word s.dir.result.code
  | 11 => word s.scan.result.code
  | 12 => word s.path.suppressedCount
  | 13 => word s.path.suppressedAddr
  | 14 => word s.path.ignoredAddr
  | 15 => word (s.order.queue.length + 2 ^ 8 * s.order.inflight.length + 2 ^ 16 * s.bill.queue.length)
  | 16 => word (s.bill.boundary.kind.code + 2 ^ 16 * s.bill.cursor)
  | 17 => s.feederWord
  | 18 => word s.corr.outages.length
  | 19 => word (s.log.producer + 2 ^ 16 * s.log.slot)
  | 20 => word s.log.unconsumed
  | 21 => word (s.lineUp.bankState[0].code + 2 ^ 8 * s.lineUp.bankState[1].code + 2 ^ 16 * s.lineUp.epoch.code)
  | 22 => word (if s.lineUp.epoch = .none then 0 else s.lineUp.epochReq)
  | 23 => word (s.lineUp.last.1.code + 2 ^ 8 * s.lineUp.last.2.1.val + 2 ^ 16 * failingCode s.lineUp.last.2.2)
  | _ => 0

end Sys2Proof.Machine
end

