-- ==== Sys2Proof/Machine/Lookup.lean ====
section
/-! DEFINITION. Looking things up: taps and claims in the Tap Directory, banks and the active copy of the Line-up Unit, subscriber
and billing records, and entries of the Order Unit's tables. -/

namespace Sys2Proof.Machine

/-! ### The Tap Directory (R3, R72, R73) -/

/-- The entry placed at a feeder and position, if any (the position list's place, R72). -/
def State.placeAt (s : State) (f : Feeder) (pos : Nat) : Option EntryId :=
  (List.finRange 576).find? fun e => (s.entry e).place == some { feeder := f, pos := pos }

/-- The entry that holds a serial; a FREE entry is not found (R72). -/
def State.entryOfSerial (s : State) (sn : Word) : Option EntryId :=
  (List.finRange 576).find? fun e => (s.entry e).state != .free && (s.entry e).serial == sn

/-- The lowest-numbered FREE entry (R72). -/
def State.freeEntry (s : State) : Option EntryId :=
  (List.finRange 576).find? fun e => (s.entry e).state == .free

/-- The port a subscriber has claimed (R3). -/
def State.claimOf (s : State) (sub : Nat) : Option (EntryId × Port) :=
  (List.finRange 576).findSome? fun e =>
    ((List.finRange 4).find? fun p => (s.entry e).ports[p].claim == some sub).map fun p => (e, p)

/-- Whether an entry is placed on a feeder. -/
def Entry.on (x : Entry) (f : Feeder) : Bool :=
  match x.place with
  | some pl => pl.feeder == f
  | none => false

def State.tapPort (s : State) (e : EntryId) (p : Port) : TapPort := (s.entry e).ports[p]

/-! ### The Line-up Unit (R27, R41) -/

/-- The first word of a bank (R27). -/
def State.bankBase (s : State) (b : Bank) : Nat := s.map.line + 608 * b.val

/-- The eight words of part `p` of a bank: 0 the header, 1 the band plan, 2 and 3 the rate table, `4 + k` slot `k` (R33). -/
def State.bankPart (s : State) (b : Bank) (p : Nat) : List Word := memWords s.mem (s.bankBase b + 8 * p) 8

def BandPlan.closed : BandPlan := { kind := .closed, tier := 0 }

def Copy.empty : Copy :=
  { plan := Vector.replicate 8 BandPlan.closed, rates := Vector.replicate 16 0, slots := Vector.replicate 72 Slot.dark,
    ev := Vector.replicate 72 .none }

/-- The active copy (chapter 2); empty while none is held. -/
def State.active (s : State) : Copy := s.lineUp.copy.getD Copy.empty

/-- The bank that is not the one given. -/
def Bank.other (b : Bank) : Bank := if b = 0 then 1 else 0

/-! ### Subscriber and billing records (R1, R130) -/

/-- A billing record as the Billing Unit reads it (R130). -/
def State.billRec (s : State) (i : Nat) : BillRec := BillRec.ofWords (memWords s.mem (s.map.bill + 16 * i) 16)

/-- Words 4–15 of subscriber `i` that the Order Unit has asked to write and that have not reached memory, the latest. A
burst of the Order Unit that holds the port is of its own asking unless the block has been reset since. -/
def State.queuedSub (s : State) (i : Nat) : Option (List Word) :=
  let waiting := (s.path.line .orderUnit).reverse.findSome? fun b =>
    match b with
    | .sub j ws _ => if j = i then some ws else none
    | _ => none
  match waiting with
  | some ws => some ws
  | none =>
    match s.path.port with
    | .burst .orderUnit (.sub j _ _) _ ws false => if j = i then some ws else none
    | _ => none

/-- A subscriber record's words in memory. -/
def State.subWords (s : State) (i : Nat) : List Word := memWords s.mem (s.map.sub + 16 * i) 16

/-- A subscriber record as memory holds it, for the blocks other than the Order Unit. -/
def State.subRec (s : State) (i : Nat) : SubRec := SubRec.ofWords (s.subWords i)

/-- A subscriber record as the Order Unit reads it: its own writes asked for before the read come first (R176). -/
def State.ownRec (s : State) (i : Nat) : SubRec :=
  match s.queuedSub i with
  | some ws => SubRec.ofWords ((s.subWords i).take 4 ++ ws)
  | none => s.subRec i

/-! ### The Order Unit's tables (R2, R8) -/

/-- The in-flight entry waits for a SET PORT of a port. -/
def InFlight.onPort (x : InFlight) (e : EntryId) (p : Port) : Bool := x.kind != .audit && x.e == e && x.p == p

/-- The in-flight entry is an AUDIT of a tap. -/
def InFlight.auditOf (x : InFlight) (e : EntryId) : Bool := x.kind == .audit && x.e == e

/-- The SETTLING index entry of a subscriber and event. -/
def IndexEntry.settles (x : IndexEntry) (sub event : Nat) : Bool :=
  x.sub == sub && x.event == event && x.state == .settling

end Sys2Proof.Machine
end

