-- ==== Sys2Proof/Machine/Reads.lean ====
section
/-! DEFINITION. Read bursts: the reads each block's next step has to make, what those that have ended have found, whether a
block presents a request at the memory port, the end of the last read of a step, and the asking for a burst (R176, R177). A
step that reads memory takes place at the end of the last of its read bursts (assumption 7). -/

namespace Sys2Proof.Machine

def ReadDone.req (x : ReadDone) : ReadReq := (x.addr, x.len)

/-! ### The reads of a step -/

/-- Block `r` has made all reads of a step: those before the last have ended, and the last one is on the port. A step without
reads asks for none. -/
def State.hasRead (s : State) (r : Requester) (plan : List ReadReq) : Bool :=
  plan.isEmpty ||
    (match s.path.port with
     | .burst q (.read a n) _ _ false => q == r && (s.path.reads[r.idx].map ReadDone.req) ++ [(a, n)] == plan
     | _ => false)

/-- The reads of a plan have begun: the first of them has ended, or holds the port. A step whose reads have begun is made before
another that has come due meanwhile (assumption 7). -/
def State.begun (s : State) (r : Requester) (plan : List ReadReq) : Bool :=
  match plan, s.path.reads[r.idx], s.path.port with
  | q :: _, x :: _, _ => x.req == q
  | q :: _, [], .burst p (.read a n) _ _ false => p == r && (a, n) == q
  | _, _, _ => false

/-- The first read of a plan keeps a place among the requests of its block (`State.keepTurn`): it was presented before another step
of the block came due, and goes first (R176). -/
def State.placed (s : State) (r : Requester) (plan : List ReadReq) : Bool :=
  match plan, s.path.turns[r.idx] with
  | q :: _, some (_, p) => p == q
  | _, _ => false

/-- Memory as block `r` has read it for its next step: the words that its reads have found, and for the rest, which takes in
the read on the port, the words as they stand. -/
def State.seenBy (s : State) (r : Requester) : List Host.Cell :=
  s.path.reads[r.idx].foldl (fun m x => memWriteWords m x.addr x.words) s.mem

/-- The state with memory as block `r` has read it. -/
def State.view (s : State) (r : Requester) : State := { s with mem := s.seenBy r }

/-- A read of `r` that holds the port ends (R177). -/
def State.freeRead (s : State) (r : Requester) : State :=
  match s.path.port with
  | .burst q (.read _ _) _ _ false =>
    if q = r then { s with path := { s.path with port := .free, partNext := false } } else s
  | _ => s

/-- No read of `r` stands before a burst of its line. -/
def State.noTurn (s : State) (r : Requester) : State := { s with path := { s.path with turns := s.path.turns.set r.idx none } }

/-- The step of `r` that its reads were for is made: the last read ends, and the next step reads afresh. -/
def State.tookRead (s : State) (r : Requester) : State :=
  let s1 := s.freeRead r
  { s1 with path := { s1.path with reads := s1.path.reads.set r.idx [], turns := s1.path.turns.set r.idx none } }

/-- The same for a step that may have no reads. -/
def State.tookReads (s : State) (r : Requester) (plan : List ReadReq) : State :=
  if plan.isEmpty then s else s.tookRead r

/-- A step of `r` with the reads of a plan has been made: what it asked for goes before the reads of the steps that follow. -/
def State.stepMade (s : State) (r : Requester) (plan : List ReadReq) : State := if plan.isEmpty then s else s.noTurn r

/-! ### Records as they are read -/

/-- The whole subscriber record (R1, R7, R25). -/
def State.readSub (s : State) (i : Nat) : ReadReq := (s.map.sub + 16 * i, 16)

/-- Words 2–4 of a subscriber record: tier set, order word, flags (R44). -/
def State.readTiers (s : State) (i : Nat) : ReadReq := (s.map.sub + 16 * i + 2, 3)

/-- Words 3 and 4 of a subscriber record (R6). -/
def State.readOrder (s : State) (i : Nat) : ReadReq := (s.map.sub + 16 * i + 3, 2)

/-- Word 4 of a subscriber record (R153). -/
def State.readFlags (s : State) (i : Nat) : ReadReq := (s.map.sub + 16 * i + 4, 1)

/-- Words 4–15 of a subscriber record, which the Order Unit reads to write them back changed (R8, R19, R21, R23). -/
def State.readOwned (s : State) (i : Nat) : ReadReq := (s.map.sub + 16 * i + 4, 12)

/-- Words 8–15 of a subscriber record: the purchase slots (R134, R156). -/
def State.readSlots (s : State) (i : Nat) : ReadReq := (s.map.sub + 16 * i + 8, 8)

/-- The whole billing record (R134). -/
def State.readBill (s : State) (i : Nat) : ReadReq := (s.map.bill + 16 * i, 16)

/-! ### The Order Unit -/

/-- The reads of a task: a computation of the wanted state of a claimed port reads words 2–4 of the record (R44), and the
freeing of a booked slot its part-owned words (R21). -/
def State.taskReads (s : State) : Task → List ReadReq
  | .recompute sub => if (s.claimOf sub).isSome then [s.readTiers sub] else []
  | .freeBooked sub _ => [s.readOwned sub]
  | _ => []

/-- The reads of an arrival of the Billing Unit (R23). -/
def State.arrivalReads (s : State) : BillArrival → List ReadReq
  | .overlap sub _ _ => [s.readOwned sub]
  | .settle sub event => if s.order.index.any fun x => x.settles sub event then [s.readOwned sub] else []
  | .refresh sub => if (s.claimOf sub).isSome then [s.readTiers sub] else []

/-- The records of the in-flight orders that a report completes. -/
def State.flightReads (s : State) (pick : InFlight → Bool) : List ReadReq :=
  (s.order.inflight.filter pick).map fun x => s.readOwned x.sub

/-- The reads of a report (R8, R19, R68): the record of each order it completes, and of the subscriber it confirms. -/
def State.reportReads (s : State) : OrderReport → List ReadReq
  | .outcome .read e _ _ => s.flightReads fun x => x.armed && x.auditOf e
  | .outcome .setPort e p (.setOk _ _) =>
    match (s.tapPort e p).claim with
    | some sub => [s.readOwned sub]
    | none => s.flightReads fun x => x.armed && x.onPort e p
  | .outcome .setPort e p _ => s.flightReads fun x => x.armed && x.onPort e p
  | .lostTap e => s.flightReads fun x => !x.armed && x.e == e
  | .blocked f => s.flightReads fun x => !x.armed && (s.entry x.e).on f
  | _ => []

/-- The Order Unit has no work item in progress (R4): none that waits, and no dispatch whose record is being read. -/
def State.orderFree (s : State) : Bool := s.order.work.isEmpty && s.order.taken.isNone

/-- The Order Unit can dispatch (R7): RUNNING, an index queued, room in the In-flight Table, no work item in progress. -/
def State.mayDispatch (s : State) : Bool :=
  s.run.part == .running && !s.order.queue.isEmpty && decide (s.order.inflight.length < Config.inFlightDepth) && s.orderFree

/-- The record of index `i` as a dispatch reads it. -/
def State.dispatched (s : State) (i : Nat) : SubRec := (s.view .orderUnit).ownRec i

/-- The reads of a dispatch of index `i`: the record, and for REMOVE words 0–11 of the billing record (R7, R17). -/
def State.dispatchReads (s : State) (i : Nat) : List ReadReq :=
  let r := s.dispatched i
  if r.pending && r.enrolled && r.okind == OrderKind.remove.code then [s.readSub i, (s.map.bill + 16 * i, 12)]
  else [s.readSub i]

/-- A step of the backlog walk can be made (R6). -/
def State.mayWalk (s : State) : Bool :=
  s.run.part == .running && s.order.backlog &&
    (s.order.walk.isSome || decide (s.order.queue.length < Config.walkStartDepth))

/-- The index the backlog walk reads next. -/
def State.walkNext (s : State) : Nat := (s.order.walk.map (·.next)).getD 0

/-- The reads of the subscriber pass (R25). -/
def State.passReads (s : State) : List ReadReq :=
  match s.run.phase with
  | .pass i => if s.orderFree then [s.readSub i] else []
  | _ => []

/-- The first of some plans that has a read. -/
def firstReads : List (List ReadReq) → List ReadReq
  | [] => []
  | p :: ps => if p.isEmpty then firstReads ps else p

/-- The reads of the next of several steps, given in the order in which steps that come due at once are made: those of a step
whose reads have begun, else those of the step whose first read was presented before others came due, else the first. -/
def State.nextPlan (s : State) (r : Requester) (plans : List (List ReadReq)) : List ReadReq :=
  ((plans.find? (s.begun r)).or (plans.find? (s.placed r))).getD (firstReads plans)

/-- The reads of the dispatch of the oldest queued index (R7): the first of them is the record. -/
def State.headPlan (s : State) : List ReadReq :=
  if s.mayDispatch then (s.order.queue.head?.map fun i => [s.readSub i]).getD [] else []

/-- What the Order Unit reads next: for the dispatch that has begun; for a billing arrival, which is taken at any time, the task
that the work item waits at, the report at the head of the queue; then for the next dispatch, the subscriber pass and the backlog
walk. -/
def State.orderReads (s : State) : List ReadReq :=
  s.nextPlan .orderUnit [
    (s.order.taken.map fun x => s.dispatchReads x.sub).getD [],
    (s.order.billing.head?.map s.arrivalReads).getD [],
    (s.order.work.head?.map s.taskReads).getD [],
    if s.orderFree then (s.order.reports.head?.map s.reportReads).getD [] else [],
    s.headPlan,
    s.passReads,
    if s.mayWalk then [s.readOrder s.walkNext] else []]

/-- The next read of the Order Unit is the record of the oldest queued index: its dispatch begins with it. -/
def State.dispatchNext (s : State) : Bool := s.mayDispatch && s.orderReads == s.headPlan

/-- The dispatch of the oldest queued index begins: the index leaves the queue, and its record is read (R7). -/
def OrderUnit.takeHead (o : OrderUnit) : OrderUnit :=
  match o.queue with
  | [] => o
  | i :: q => { o with queue := q, taken := some { sub := i, reorder := false } }

/-! ### The Billing Unit -/

/-- A step of the sweep is in progress whose reads have begun. -/
def State.sweepBegun (s : State) : Bool := s.bill.sweeping && s.begun .billing [s.readFlags s.bill.cursor]

/-- The sweep makes steps in RUNNING, and in STARTING from IDLE once the reconciliation pass has ended (R153, R155). In HALTING it
makes the step whose reads had begun, and then pauses (R153). -/
def State.sweepGoes (s : State) : Bool :=
  s.bill.sweeping &&
    (s.run.part == .running || (s.coldStart && s.run.phase == .enter) || (s.run.part == .halting && s.sweepBegun))

/-- The Billing Unit has no work item in progress. -/
def State.billFree (s : State) : Bool := s.bill.loaded && s.bill.work.isEmpty

/-- The entry at the head of the queue can be handled: the sweep step that follows the last entry has been made. -/
def State.entryReady (s : State) : Bool := s.billFree && !(s.sweepGoes && s.bill.owes)

/-- The step of the Billing Unit whose first read is `q` has come due before what has come due since: its reads have begun, or its
first read keeps its place. -/
def State.billFirst (s : State) (q : ReadReq) : Bool := s.begun .billing [q] || s.placed .billing [q]

/-- A sweep step can be made: after each entry handled, and while the queue is empty (R133); one that came due before an entry was
handed is made before it. -/
def State.sweepReady (s : State) : Bool :=
  s.billFree && s.sweepGoes &&
    (s.bill.queue.isEmpty || s.bill.owes || s.billFirst (s.readFlags s.bill.cursor))

/-- A notice's own rule reads words 8–15 of the subscriber record: PPV SETTLE does, and the notices that resolve an outage do
while the record is in OUTAGE (R139, R141, R142, R144). -/
def NoticeKind.readsSlots (k : NoticeKind) (outage : Bool) : Bool :=
  match k with
  | .ppvSettle _ _ => true
  | .stopService | .move | .outageEnd _ => outage
  | _ => false

/-- The reads of a sweep step at index `i`: word 4 of the subscriber record, and the billing record of an enrolled one
(R153). -/
def State.stepReads (s : State) (i : Nat) : List ReadReq :=
  s.readFlags i :: (if ((s.view .billing).subRec i).enrolled then [s.readBill i] else [])

/-- The reads of an entry of the Notice Queue (R134). A registration has those of record 0 where its sweep can end in the step
that starts it: with Ns equal to 1 (R154). -/
def State.entryReads (s : State) : QEntry → List ReadReq
  | .notice sub kind _ =>
    s.readBill sub ::
      (if kind.readsSlots (((s.view .billing).billRec sub).state == .outage) then [s.readSlots sub] else [])
  | _ => if s.map.ns = 1 then s.stepReads 0 else []

/-- The reads of a sweep step: none at the end (R153). -/
def State.sweepReads (s : State) : List ReadReq := if s.map.ns ≤ s.bill.cursor then [] else s.stepReads s.bill.cursor

/-- The reconciliation pass resolves the outage of a record (R156). -/
def SubRec.leavesOutage (x : SubRec) (r : BillRec) : Bool := r.state == .outage && (!x.wantOn || x.confirmed == .none)

/-- The reads of a step of the reconciliation pass: words 2–4 of the subscriber record, for its flags and its tier set, the
billing record of an enrolled one, and words 8–15 where an outage is resolved (R142, R156). -/
def State.reconReads (s : State) (i : Nat) : List ReadReq :=
  let v := s.view .billing
  s.readTiers i ::
    (if (v.subRec i).enrolled then
       s.readBill i :: (if (v.subRec i).leavesOutage (v.billRec i) then [s.readSlots i] else [])
     else [])

/-- The step of the reconciliation pass at index `i` can be made: the Billing Unit has no work item in progress, and, for the
first, the correlator's start-up work is over, with its hand-offs (R183). -/
def State.mayRecon (s : State) (i : Nat) : Bool :=
  s.bill.work.isEmpty && (s.corr.work.isEmpty || decide (0 < i) || s.billFirst (s.readTiers i))

/-- The reads of the Billing Unit's start-up load (R155): the epoch number and minute, the previous rate table, and the words
of its own group. -/
def billingLoadReads : List ReadReq :=
  [(Config.epochNumberAddr, 2), (Config.prevRatesAddr, 16), (Config.periodAddr, 7)]

/-- The reads of a sweep step or of the entry at the head of the queue. -/
def State.queueReads (s : State) : List ReadReq :=
  if s.sweepReady then s.sweepReads
  else if s.entryReady then (s.bill.queue.head?.map s.entryReads).getD []
  else []

/-- The step of the reconciliation pass at index `i` goes next: the Notice Queue is empty, an entry of it has been handled since
the pass's last step, or the step came due before an entry was handed. R156 leaves the order of an entry and a step of the pass open, and R183 has
the entries handled as they come: the model makes them turn about (assumption 65). -/
def State.reconNext (s : State) (i : Nat) : Bool :=
  s.mayRecon i && (s.bill.queue.isEmpty || s.bill.owes || s.billFirst (s.readTiers i))

/-- What the Billing Unit reads next. While the reconciliation pass is made, a step of it and an entry of the Notice Queue come turn
about, an order that R156 leaves open (assumption 65). -/
def State.billReads (s : State) : List ReadReq :=
  match s.run.phase with
  | .loads false _ => if s.dir.work.isEmpty then billingLoadReads else []
  | .recon i => if s.reconNext i then s.reconReads i else s.queueReads
  | _ => s.queueReads

/-! ### The other blocks -/

/-- The reads of a whole bank, 8 words each: header, band plan, rate table in two, 72 slots (R33, R39, R45). -/
def State.bankReads (s : State) (b : Bank) : List ReadReq := (List.range 76).map fun p => (s.bankBase b + 8 * p, 8)

/-- The read of the active bank number (R45). -/
def bankNumberReads : List ReadReq := [(Config.activeBankAddr, 1)]

/-- The Line-up Unit's reads: the active bank number, the active bank, and the sealed bank of a switch (R39, R45). -/
def State.lineReads (s : State) : List ReadReq :=
  match s.run.phase, s.lineUp.ask, s.lineUp.active with
  | .bankNumber, _, _ => bankNumberReads
  | .bank b, _, _ => s.bankReads b
  | _, .answered _, some a => if s.lineUp.switch.isNone then s.bankReads (Bank.other a) else []
  | _, _, _ => []

/-- The indices of the log as they are loaded (R111): the producer, the write slot, and the consumer with whether it lay out of
range. -/
structure LogIndices where
  producer : Nat
  slot     : Nat
  consumer : Nat
  badRange : Bool
deriving DecidableEq, Repr

def State.logIndices (s : State) : LogIndices :=
  let size := s.map.s
  let w := memWord s.mem Config.logAnchorAddr
  let producer := bits w 0 16
  let slot0 := bits w 16 13
  let c0 := bits (memWord s.mem Config.logConsumerAddr) 0 16
  let badSlot := decide (size ≤ slot0)
  let badRange := !badSlot && decide (size < (producer + 65536 - c0) % 65536)
  { producer := producer, slot := if badSlot then 0 else slot0
    consumer := if badSlot || badRange then producer else c0, badRange := badRange }

def LogIndices.unconsumed (x : LogIndices) : Nat := (x.producer + 65536 - x.consumer) % 65536

/-- The slot of the oldest unconsumed entry of a log of `size` entries (R108, R111). -/
def LogIndices.oldest (x : LogIndices) (size : Nat) : Nat := (x.slot + size - x.unconsumed % size) % size

/-- The reads of the log load: the two index words, and each unconsumed entry, oldest first (R111). -/
def State.logReads (s : State) : List ReadReq :=
  let x := (s.view .alarm).logIndices
  (Config.logAnchorAddr, 1) :: (Config.logConsumerAddr, 1) ::
    (List.range x.unconsumed).map fun i => (s.map.log + 4 * ((x.oldest s.map.s + i) % s.map.s), 4)

/-- The first word of the active bank's slot `k`. A burst of a slot of the active bank goes to the bank that is active when it
is granted: R124 says so of the carrier words, and the model takes word 5 in the same way (assumption 54). -/
def State.slotBase (s : State) (k : SlotId) : Nat := s.bankBase (s.lineUp.active.getD 0) + 32 + 8 * k.val

/-- The reads of the carrier-loss load: word 6 of each EVENT slot (R128). -/
def State.lossReads (s : State) : List ReadReq :=
  ((List.finRange 72).filter fun k => s.active.slots[k].isEvent).map fun k => (s.slotBase k + 6, 1)

/-- The reads of the start-up load of mirror entry `n` (R82). -/
def State.mirrorReads (s : State) (n : Nat) : List ReadReq := [(s.map.mirror + 8 * n, 8)]

/-- The reads of the configuration check: the six 16-word groups of the configuration area (R182). -/
def configReads : List ReadReq := (List.range 6).map fun g => (Config.anchorBase + 16 * g, 16)

/-- The reads that a block's next step has to make; none while no step of it is due that reads memory. -/
def State.readsDue (s : State) (r : Requester) : List ReadReq :=
  match r with
  | .orderUnit => s.orderReads
  | .billing => s.billReads
  | .lineUp => s.lineReads
  | .directory =>
    match s.run.phase with
    | .load n => if s.dir.work.isEmpty then s.mirrorReads n else []
    | _ => []
  | .alarm =>
    match s.run.phase with
    | .log => s.logReads
    | _ => []
  | .scanner =>
    match s.run.phase with
    | .loads _ false => if s.dir.work.isEmpty then s.lossReads else []
    | _ => []
  | .runControl =>
    match s.run.phase with
    | .check => configReads
    | _ => []

/-! ### Requests (R176, R177) -/

/-- Reads that have ended are those a plan begins with, and the plan goes on after them. -/
def goesOn (done plan : List ReadReq) : Bool := done.isPrefixOf plan && decide (done.length < plan.length)

/-- The reads that have ended for the next step; those made for a step that is not the next one any more count for nothing. -/
def State.readsMade (s : State) (r : Requester) : List ReadDone :=
  if goesOn (s.path.reads[r.idx].map ReadDone.req) (s.readsDue r) then s.path.reads[r.idx] else []

/-- The read a block makes next. -/
def State.nextRead (s : State) (r : Requester) : Option ReadReq := (s.readsDue r)[(s.readsMade r).length]?

/-- A block presents a request: a burst it has asked for, or, its earlier bursts granted, a read that its next step needs. -/
def State.presents (s : State) (r : Requester) : Bool := !(s.path.line r).isEmpty || (s.nextRead r).isSome

/-- The first requester after the ring position that has a request (R177). -/
def State.nextRequester (s : State) : Option Requester := s.path.ring.after.find? s.presents

/-- Whether any part request waits. -/
def State.partWaits (s : State) : Bool := s.nextRequester.isSome

/-- The read that block `r` presents: its next read, while none of its reads is on the port. -/
def State.readWaits (s : State) (r : Requester) : Option ReadReq :=
  match s.path.port with
  | .burst q (.read _ _) _ _ false => if q = r then none else s.nextRead r
  | _ => s.nextRead r

/-- The place in the line of `r` of the read that it presents: the number of bursts that it asked for before. A read of which none
is noted has been presented behind all of them. -/
def State.readTurn (s : State) (r : Requester) : Option (Nat × ReadReq) :=
  (s.readWaits r).map fun q =>
    match s.path.turns[r.idx] with
    | some (n, p) => (if p = q then n else (s.path.line r).length, q)
    | none => ((s.path.line r).length, q)

/-- The read that block `r` presents keeps its place. Noted before anything that makes another step of the block come due, so that
the reads of a block too are granted in the order in which it presents them (R176; assumption 7). -/
def State.keepTurn (s : State) (r : Requester) : State :=
  { s with path := { s.path with turns := s.path.turns.set r.idx (s.readTurn r) } }

/-! ### Asking for a burst (R176) -/

/-- A block asks for a burst on its own request line, behind the read that it presents (R176). -/
def State.ask (s : State) (r : Requester) (b : Burst) : State :=
  if b.carries && (s.path.line r).contains b then s
  else
    { s with path := (s.keepTurn r).path.setLine r (s.path.line r ++ [b]) }

/-- A block asks for several bursts in order. -/
def State.asks (s : State) (r : Requester) (bs : List Burst) : State := bs.foldl (fun s b => s.ask r b) s

/-- Every request of `r` has been granted and has ended. -/
def State.written (s : State) (r : Requester) : Bool :=
  (s.path.line r).isEmpty &&
    (match s.path.port with
     | .burst q _ _ _ false => q != r
     | _ => true)

end Sys2Proof.Machine
end

