-- ==== Sys2Proof/Machine/DirOps.lean ====
section
/-! DEFINITION. Reading the Tap Directory: places, serials, claims, rows of occupied positions, dirty ports and the roll
call's lists (R72, R73, R83, R96), and the changes of a port's claim, wanted state and mark (R3, R73). -/

namespace Sys2Proof.Machine

/-- Insertion into a list of positions and entries, by position from the lowest. -/
def insertPos (x : Nat × EntryId) : List (Nat × EntryId) → List (Nat × EntryId)
  | [] => [x]
  | y :: ys => if x.1 ≤ y.1 then x :: y :: ys else y :: insertPos x ys

/-- The occupied positions of a feeder with their entries, from position 1 upward (5.1). -/
def State.row (s : State) (f : Feeder) : List (Nat × EntryId) :=
  ((List.finRange 576).filterMap fun e =>
    match (s.entry e).place with
    | some pl => if pl.feeder = f then some (pl.pos, e) else none
    | none => none).foldr insertPos []

/-- A port is dirty (R73): marked for re-application, or applied differs from wanted; UNKNOWN differs from everything. -/
def TapPort.dirty (p : TapPort) : Bool := p.reapply || p.applied != some p.wanted

/-- Change one port of an entry. -/
def State.setTapPort (s : State) (e : EntryId) (p : Port) (x : TapPort) : State :=
  s.setEntry e { s.entry e with ports := (s.entry e).ports.set p x }

/-- The Order Unit sets a port's wanted state (R73). -/
def State.setWanted (s : State) (e : EntryId) (p : Port) (w : PortState) : State :=
  s.setTapPort e p { s.tapPort e p with wanted := w }

/-- A claim is made: the subscriber index becomes the claim of the port (R3). -/
def State.makeClaim (s : State) (e : EntryId) (p : Port) (sub : Nat) : State :=
  s.setTapPort e p { s.tapPort e p with claim := some sub }

/-- A claim is released: the claim is cleared and the port's wanted state becomes off with mask 0 (R3). -/
def State.releaseClaim (s : State) (e : EntryId) (p : Port) : State :=
  s.setTapPort e p { s.tapPort e p with claim := none, wanted := PortState.off }

/-- The port is marked for re-application (R8). -/
def State.markPort (s : State) (e : EntryId) (p : Port) : State :=
  s.setTapPort e p { s.tapPort e p with reapply := true }

/-- Whether a tap cannot be reached by an order at its dispatch (R8): LOST, unplaced, or placed on a feeder that is OFF. -/
def State.unreachable (s : State) (e : EntryId) : Bool :=
  (s.entry e).state == .lost ||
    match (s.entry e).place with
    | none => true
    | some pl => (s.eng pl.feeder).state == .off

/-- Whether a tap is placed on a feeder that is BLOCKED (R68). -/
def State.onBlocked (s : State) (e : EntryId) : Bool :=
  match (s.entry e).place with
  | none => false
  | some pl => (s.eng pl.feeder).state == .blocked

/-- The list a new cycle of the roll call forms (R83): the placed entries by position, LOST ones only at cycle count 0. -/
def State.cycleList (s : State) (f : Feeder) (count : Nat) : List (Nat × EntryId) :=
  (s.row f).filter fun x => count == 0 || (s.entry x.2).state != .lost

/-- The pacing period of a list of `n` entries (R83): 2 × Tr divided by n and rounded up, 2 × Tr for an empty list. -/
def pacingPeriod (tr n : Nat) : Nat := if n = 0 then 2 * tr else (2 * tr + n - 1) / n

/-- The cycle of a feeder with cycle count `count` begins: its list is formed and its cursor set to the start (R83). -/
def State.newCycle (s : State) (f : Feeder) (count : Nat) : State :=
  let l := s.cycleList f count
  s.setRoll f { s.roll f with count := count, list := l, cursor := 0, period := pacingPeriod s.cfg.tr l.length }

/-- A cycle ends (R83): the probe-owed flag is set, the count goes up by one and the next list is formed. -/
def State.endCycle (s : State) (f : Feeder) : State :=
  State.newCycle (s.setRoll f { s.roll f with probeOwed := true }) f (((s.roll f).count + 1) % 4)

/-- The next entry of the list from the cursor on that is still placed where it was when the list was formed, with the
cursor after it (R83). -/
def State.nextOfList (s : State) (f : Feeder) : List (Nat × EntryId) → Nat → Option ((Nat × EntryId) × Nat)
  | [], _ => none
  | x :: xs, n =>
    if (s.entry x.2).place == some { feeder := f, pos := x.1 } then some (x, n + 1) else s.nextOfList f xs (n + 1)

/-- The start of a feeder's roll call at the entry to RUNNING from IDLE (R94). -/
def State.startRoll (s : State) (f : Feeder) : State :=
  let s := State.newCycle (s.setRoll f { RollCall.cleared with probeOwed := false, due := none }) f 0
  s.setPacing f (Timer.start (s.roll f).period)

/-- The open outages that cover a position of a feeder (R96). -/
def State.coveredBy (s : State) (f : Feeder) (pos : Nat) : Option Outage :=
  s.corr.outages.find? fun o => o.feeder == f && decide (o.first ≤ pos) && decide (pos ≤ o.last)

/-- Whether a subscriber's claimed tap is covered by an open outage (R156). -/
def State.tapCovered (s : State) (sub : Nat) : Bool :=
  match s.claimOf sub with
  | none => false
  | some (e, _) =>
    match (s.entry e).place with
    | none => false
    | some pl => (s.coveredBy pl.feeder pl.pos).isSome

end Sys2Proof.Machine
end

