-- ==== Sys2Proof/Machine/LineOps.lean ====
section
/-! DEFINITION. The Line-up Unit's tables: banks read from memory, the checks of a bank, event states, buyer counts and the
wanted port state (R27–R29, R34, R41–R44). -/

namespace Sys2Proof.Machine

/-! ### Banks as they read -/

/-- The band plan as it reads, a word of no kind taken as CLOSED. -/
def planOf (ws : List Word) : Vector BandPlan 8 :=
  Vector.ofFn fun b => (BandPlan.ofWord (wordAt ws b.val)).getD BandPlan.closed

/-- Check 1 of R34: every band plan word holds a kind. -/
def planGood (ws : List Word) : Bool := (List.range 8).all fun b => (BandPlan.ofWord (wordAt ws b)).isSome

def State.readPlan (s : State) (b : Bank) : Vector BandPlan 8 := planOf (s.bankPart b 1)

def State.readRates (s : State) (b : Bank) : Vector Nat 16 :=
  Vector.ofFn fun t => bits (wordAt (s.bankPart b 2 ++ s.bankPart b 3) t.val) 0 16

/-- The slot of a bank as it reads, none for a class that is no code. -/
def State.readSlot (s : State) (b : Bank) (k : SlotId) : Option Slot := Slot.ofWords (s.bankPart b (4 + k.val))

/-- An event's state at a minute (R41); a slot that is no event has none. -/
def Slot.stateAt (x : Slot) (minute : Nat) : EvState :=
  if !x.isEvent then .none
  else if minute < x.start then .scheduled
  else if minute < x.stop then .running
  else .ended

/-- A bank read into a copy, with the event states at a minute (R39, R45). -/
def State.readCopy (s : State) (b : Bank) (minute : Nat) : Copy :=
  let slots : Vector Slot 72 := Vector.ofFn fun k => (s.readSlot b k).getD Slot.dark
  { plan := s.readPlan b, rates := s.readRates b, slots := slots, ev := slots.map fun x => x.stateAt minute }

/-! ### The checks (R34) -/

/-- The windows of two slots share a minute. -/
def Slot.overlaps (x y : Slot) : Bool := decide (x.start < y.stop) && decide (y.start < x.stop)

/-- Checks 7–11 of an EVENT slot against the lower-numbered slots; `changed` is check 11. -/
def Slot.eventFault (x : Slot) (lower : List Slot) (changed : Slot → Bool) : Option ValResult :=
  if x.event = 0 then some .badEventId
  else if x.stop ≤ x.start ∨ x.start + 720 < x.stop then some .eventWindow
  else if lower.any fun y => y.isEvent && y.band == x.band && x.overlaps y then some .eventOverlap
  else if lower.any fun y => y.isEvent && y.event == x.event then some .duplicateEvent
  else if changed x then some .eventChanged
  else none

/-- Checks 2–11 of one slot, in their order, against the band plan and the lower-numbered slots. -/
def slotFault (plan : Vector BandPlan 8) (lower : List Slot) (changed : Slot → Bool) : Option Slot → Option ValResult
  | none => some .classBand
  | some x =>
    let kind := plan[Fin.ofNat 8 x.band].kind
    if !x.isLit then none
    else if x.channel < 2 ∨ 158 < x.channel then some .badChannel
    else if lower.any fun y => y.isLit && y.channel == x.channel then some .duplicateChannel
    else if x.tune = 0 then some .badTune
    else if kind ≠ (if x.isEvent then .event else .tier) then some .classBand
    else if x.isEvent then x.eventFault lower changed
    else none

/-- Checks 2–10 over the slots of a bank in index order: the first failure and its slot. -/
def slotsFault (plan : Vector BandPlan 8) : List (SlotId × Option Slot) → List Slot → Option (ValResult × SlotId)
  | [], _ => none
  | (k, x) :: r, lower =>
    match slotFault plan lower (fun _ => false) x with
    | some v => some (v, k)
    | none => slotsFault plan r (lower ++ [x.getD Slot.dark])

/-- Checks 1–10 of a bank (R45). -/
def State.bankFault (s : State) (b : Bank) : Option (ValResult × Option SlotId) :=
  if planGood (s.bankPart b 1) then
    (slotsFault (s.readPlan b) ((List.finRange 72).map fun k => (k, s.readSlot b k)) []).map fun (v, k) => (v, some k)
  else some (.classBand, none)

/-- Check 11: the event id is RUNNING in the active copy with another start minute. -/
def State.eventChanged (s : State) (x : Slot) : Bool :=
  (List.finRange 72).any fun k =>
    s.active.ev[k] == .running && s.active.slots[k].event == x.event && s.active.slots[k].start != x.start

/-! ### Events of the active copy -/

/-- The slot of the active copy that holds an event id. -/
def Copy.slotOfEvent (c : Copy) (id : Nat) : Option SlotId :=
  (List.finRange 72).find? fun k => c.slots[k].isEvent && c.slots[k].event == id

/-- The held state of an event; none when the copy does not hold it. -/
def Copy.eventState (c : Copy) (id : Nat) : EvState :=
  match c.slotOfEvent id with
  | some k => c.ev[k]
  | none => .none

/-- The RUNNING event of a band. -/
def Copy.runningIn (c : Copy) (b : Nat) : Option Nat :=
  ((List.finRange 72).find? fun k => c.slots[k].isEvent && c.slots[k].band == b && c.ev[k] == .running).map
    fun k => c.slots[k].event

/-- The report a change of held state calls for (R40, R42). -/
def changeReport (old new : EvState) (id minute : Nat) : Option OrderReport :=
  match old, new with
  | .scheduled, .running => some (.eventStart id minute)
  | .scheduled, .ended => some (.eventEnd id minute)
  | .running, .ended => some (.eventEnd id minute)
  | _, _ => none

/-- The number of Purchase Index entries that hold the slot's event id (R43). -/
def State.buyerCount (s : State) (k : SlotId) : Nat :=
  if s.active.slots[k].isEvent then (s.order.index.filter fun x => x.event == s.active.slots[k].event).length else 0

/-- Note what is written to word 5 of a slot: the event state and the buyer count as held. -/
def State.noteWord5 (s : State) (k : SlotId) : State :=
  { s with lineUp := { s.lineUp with written5 := s.lineUp.written5.set k (s.active.ev[k], s.lineUp.buyers[k]) } }

/-- The buyer counts are taken from the Purchase Index (R43). -/
def State.takeBuyers (s : State) : State :=
  { s with lineUp := { s.lineUp with buyers := Vector.ofFn fun k => s.buyerCount k } }

/-- Word 5 as held (11.4): event state and buyer count. -/
def State.word5 (s : State) (k : SlotId) : Word := word (s.active.ev[k].code + 2 ^ 16 * s.lineUp.buyers[k])

/-- The slots whose word 5 as held differs from what was last written there (R43). -/
def State.staleWord5 (s : State) : List SlotId :=
  (List.finRange 72).filter fun k => s.lineUp.written5[k] != (s.active.ev[k], s.lineUp.buyers[k])

/-- The schedule check (R42): each held state is brought to the current minute; the reports and word 5 bursts follow in
slot order. -/
def State.scheduleCheck (s : State) : State × List Task :=
  let c := s.active
  let new : Vector EvState 72 := Vector.ofFn fun k => c.slots[k].stateAt s.now
  let changed := (List.finRange 72).filter fun k => (changeReport c.ev[k] new[k] 0 0).isSome
  let held : Vector EvState 72 := Vector.ofFn fun k => if (changeReport c.ev[k] new[k] 0 0).isSome then new[k] else c.ev[k]
  let s1 := if s.lineUp.copy.isSome then { s with lineUp := { s.lineUp with copy := some { c with ev := held } } } else s
  (changed.foldl State.noteWord5 s1,
   changed.flatMap fun k =>
     (match changeReport c.ev[k] new[k] c.slots[k].event s.now with
      | some r => [Task.orderReport r]
      | none => []) ++ [Task.burst .lineUp (.word5 k)])

/-! ### The wanted port state (R44) -/

/-- The subscriber's index entries take their bands from the active copy; an event the copy does not hold keeps its band. -/
def State.setBands (s : State) (sub : Nat) (index : List IndexEntry) : List IndexEntry :=
  index.map fun x =>
    if x.sub = sub then
      match s.active.slotOfEvent x.event with
      | some k => { x with band := s.active.slots[k].band }
      | none => x
    else x

/-- The pass flag of band `b` for a subscriber with wanted service ON. -/
def State.passes (s : State) (sub : Nat) (tiers : BitVec 16) (index : List IndexEntry) (b : Fin 8) : Bool :=
  let pl := s.active.plan[b]
  match pl.kind with
  | .closed => false
  | .tier => tiers.getLsbD pl.tier
  | .event =>
    match s.active.runningIn b.val with
    | none => false
    | some id => index.any fun x => x.sub == sub && x.event == id && x.state != .settling

/-- The band mask of a subscriber with wanted service ON. -/
def State.passMask (s : State) (sub : Nat) (tiers : BitVec 16) (index : List IndexEntry) : BitVec 8 :=
  BitVec.ofNat 8 ((List.finRange 8).foldl (fun n b => n + 2 ^ b.val * bitOf (s.passes sub tiers index b)) 0)

/-- The wanted port state from wanted service, tier set and Purchase Index (R44). -/
def State.wantedOf (s : State) (sub : Nat) (wantOn : Bool) (tiers : BitVec 16) (index : List IndexEntry) : PortState :=
  if wantOn then { on := true, mask := s.passMask sub tiers index } else PortState.off

/-- The wanted state of the subscriber's claimed port is computed and set in the Tap Directory; a subscriber that holds no
claim has none (R44). -/
def State.computeWanted (s : State) (sub : Nat) (wantOn : Bool) (tiers : BitVec 16) : State :=
  match s.claimOf sub with
  | none => s
  | some (e, p) =>
    let index := s.setBands sub s.order.index
    let s := { s with order := { s.order with index := index } }
    s.setWanted e p (s.wantedOf sub wantOn tiers index)

/-! ### The protected set and the states (R31) -/

/-- The Memory Path is told the active bank and whether the pending bank is SEALED. -/
def State.protect (s : State) (active sealed : Option Bank) : State :=
  { s with path := { s.path with protActive := active, protSealed := sealed } }

def LineUp.setBank (l : LineUp) (b : Bank) (st : BankState) : LineUp := { l with bankState := l.bankState.set b st }

/-- The result and failing-slot fields of a header's word 3 (11.4). -/
def resultField (r : ValResult) (k : Option SlotId) : BitVec 16 := BitVec.ofNat 16 (r.code + 2 ^ 8 * failingCode k)

/-- A result of a bank: kept for its header, and shown as the last validation result. -/
def LineUp.setResult (l : LineUp) (b : Bank) (r : ValResult) (k : Option SlotId) : LineUp :=
  { l with results := l.results.set b (resultField r k), last := (r, b, k) }

/-- Words 2 and 3 of a bank's header as held (R30). -/
def LineUp.headerWords (l : LineUp) (b : Bank) : List Word :=
  [word l.bankState[b].code, l.results[b].setWidth 32]

/-- Whether a switch or the ask for its boundary is in progress before step 3 of R39. -/
def LineUp.switching (l : LineUp) : Bool :=
  (l.ask != .none) || (match l.switch with | some w => !w.made | none => false)

end Sys2Proof.Machine
end

