-- ==== Sys2Proof/Machine/ScanOps.lean ====
section
/-! DEFINITION. The Telemetry Scanner's values and tables: conversion, the carrier cursor, evaluation, the words of the
Telemetry Block and the carrier words, carrier-loss counts and the carrier-loss answer (R117–R127). -/

namespace Sys2Proof.Machine

/-- A conversion's value and whether clamping changed it (R117). -/
def convert (p : ProbeScale) (code : Nat) : Int × Bool :=
  let v : Int := p.offset + (((code * p.gain + 2048) / 4096 : Nat) : Int)
  let c := max (-32768) (min 32767 v)
  (c, c != v)

/-- The slot the next CARRIER sample takes (R119): the first lit slot above the cursor, going round. -/
def Copy.nextLit (c : Copy) (cursor : Option SlotId) : Option SlotId :=
  let lit := (List.finRange 72).filter fun k => c.slots[k].isLit
  match cursor with
  | none => lit.head?
  | some k => (lit.find? fun j => decide (k < j)).or lit.head?

/-- The evaluation of one sample against the thresholds and N of its entry (R122). Where L_set lies above H_set, as R116 allows, a
sample between them meets the low row and the high row of R122's table: the low row is taken (assumption 68). -/
def Eval.judge (en : ScanEntry) (x : Eval) (v : Int) : Eval :=
  match x.state with
  | .normal =>
    if v < en.lset then
      if x.low + 1 ≥ en.n then { x with state := .low, low := 0, high := 0 } else { x with low := x.low + 1, high := 0 }
    else if en.hset < v then
      if x.high + 1 ≥ en.n then { x with state := .high, low := 0, high := 0 } else { x with high := x.high + 1, low := 0 }
    else { x with low := 0, high := 0 }
  | .low =>
    if en.lclr ≤ v then
      if x.clear + 1 ≥ en.n then { x with state := .normal, clear := 0 } else { x with clear := x.clear + 1 }
    else { x with clear := 0 }
  | .high =>
    if v ≤ en.hclr then
      if x.clear + 1 ≥ en.n then { x with state := .normal, clear := 0 } else { x with clear := x.clear + 1 }
    else { x with clear := 0 }

/-- The hand-offs of a change of a probe entry's evaluation state, the supply report first (R123). -/
def probeHandOff (en : ScanEntry) (old new : EvalState) (v : Int) : List Task :=
  let alarm (k : AlarmKind) (sv : Severity) := Task.alarm k sv (.probe en.probe) (wordOfInt v) none
  let link (r : Feeder → CorrReport) : List Task :=
    match en.kind, en.link with
    | .supply, some f => [.corrReport (r f)]
    | _, _ => []
  match old, new with
  | .normal, .low => link .supplyLow ++ [alarm .probeLow .major]
  | .normal, .high => [alarm .probeHigh .major]
  | .low, .normal => link .supplyClear ++ [alarm .probeNormal .info]
  | .high, .normal => [alarm .probeNormal .info]
  | _, _ => []

/-- The hand-off of a change of a slot's carrier state (R123); `running` says that its event's held state is RUNNING. -/
def carrierHandOff (k : SlotId) (running : Bool) (old new : EvalState) (level : Int) : List Task :=
  let alarm (a : AlarmKind) (sv : Severity) := [Task.alarm a sv (.slot k) (wordOfInt level) none]
  match old, new with
  | .normal, .low => alarm .carrierLow (if running then .critical else .major)
  | .normal, .high => alarm .carrierHigh .major
  | .low, .normal => alarm .carrierNormal .info
  | .high, .normal => alarm .carrierNormal .info
  | _, _ => []

/-! ### The Telemetry Block and the carrier words (11.4, 11.5) -/

/-- The header's eight words; words 5–7 hold no field (assumption 24). -/
def Scanner.headerWords (x : Scanner) : List Word :=
  [word (x.mode.code + 2 ^ 4 * bitOf x.scanning + 2 ^ 5 * bitOf x.late +
      2 ^ 8 * (match x.carrier with | some k => k.val | none => 0xFF)),
   word x.interval, word x.seqCount, word x.startMin, word x.endMin, 0, 0, 0]

def TeleEntry.words (x : TeleEntry) : List Word :=
  [word (fieldOfInt 16 x.value + 2 ^ 16 * x.code),
   word (x.shown.code + 2 ^ 2 * bitOf x.sat + 2 ^ 16 * x.count), word x.minute]

def TeleSlot.words (x : TeleSlot) : List Word :=
  [word (fieldOfInt 16 x.value + 2 ^ 16 * x.eval.state.code + 2 ^ 18 * bitOf x.sat + 2 ^ 19 * bitOf x.sampled),
   word x.minute]

/-- Words 6 and 7 of a slot: carrier-loss minutes, last carrier value and carrier state. -/
def TeleSlot.carrierWords (x : TeleSlot) : List Word :=
  [word x.loss, word (fieldOfInt 16 x.value + 2 ^ 16 * x.eval.state.code)]

def Scanner.setEntry (x : Scanner) (i : ScanId) (t : TeleEntry) : Scanner := { x with entries := x.entries.set i t }

def Scanner.setSlot (x : Scanner) (k : SlotId) (t : TeleSlot) : Scanner := { x with slots := x.slots.set k t }

/-! ### Carrier loss (R125, R127) -/

/-- The EVENT slots of the active copy whose window holds minute `t` and whose carrier is LOW. From step 3 of a switch the
active copy is the new one (R39), while the carrier states and counts are those of its slot numbers until the line-up switch
report is taken (assumption 28). -/
def State.lossSlots (s : State) (t : Nat) : List SlotId :=
  (List.finRange 72).filter fun k =>
    let x := s.active.slots[k]
    x.isEvent && decide (x.start ≤ t) && decide (t < x.stop) && s.scan.slots[k].eval.state == .low

/-- The minute before the current one is counted on each such slot, and its carrier words get a burst (R125). -/
def State.countLoss (s : State) : State :=
  if s.now = 0 then s
  else
    (s.lossSlots (s.now - 1)).foldl (fun s k =>
      State.ask { s with scan := s.scan.setSlot k { s.scan.slots[k] with loss := satAdd 65535 s.scan.slots[k].loss 1 } }
        .scanner (.carrier k)) s

/-- The answer to the carrier-loss question: the count and the window (R127). -/
def State.lossAnswer (s : State) (id : Nat) : Nat × Option (Nat × Nat) :=
  match s.scan.retained.find? fun r => r.event == id with
  | some r => (r.loss, some (r.start, r.stop))
  | none =>
    match s.active.slotOfEvent id with
    | some k => (s.scan.slots[k].loss, some (s.active.slots[k].start, s.active.slots[k].stop))
    | none => (0, none)

/-- The line-up switch report taken into the slots and the retained list (R126). -/
def Scanner.takeSwitch (x : Scanner) (old new : Copy) (carried : List Nat) : Scanner :=
  let lossOf (id : Nat) : Nat :=
    if carried.contains id then
      match old.slotOfEvent id with
      | some k => x.slots[k].loss
      | none => 0
    else 0
  let kept := (List.finRange 72).filterMap fun k =>
    let y := old.slots[k]
    if y.isEvent && !carried.contains y.event then
      some { event := y.event, start := y.start, stop := y.stop, loss := x.slots[k].loss }
    else none
  { x with
    slots := Vector.ofFn fun k =>
      { TeleSlot.cleared with loss := if new.slots[k].isEvent then lossOf new.slots[k].event else 0 }
    retained := kept
    carrier := none }

/-- All 72 slots, in order. -/
def allSlots : List SlotId := List.finRange 72

end Sys2Proof.Machine
end

