-- ==== Sys2Proof/Machine/BillOps.lean ====
section
/-! DEFINITION. The arithmetic of the Billing Unit on one record: accrual, close, catch-up, outage resolution, overlaps and
the refund of a purchase (R135–R144, R150–R152, R156). -/

namespace Sys2Proof.Machine

/-- A sum that stops at the top, with whether it did (R136). -/
def satSum (top a b : Nat) : Nat × Bool := (min top (a + b), decide (top < a + b))

/-- The rate sum of a tier set (R136). -/
def rateSum (rates : Vector Nat 16) (tiers : BitVec 16) : Nat :=
  (List.finRange 16).foldl (fun n t => n + (if tiers.getLsbD t.val then rates[t] else 0)) 0

/-- The since minute as it is taken (R135): one above the current plant minute is the current plant minute. -/
def BillRec.clamp (now : Nat) (r : BillRec) : BillRec := { r with since := min r.since now }

/-- Add cent-minutes to the billable account. -/
def BillRec.addA (r : BillRec) (x : Nat) : BillRec :=
  { r with a := (satSum Config.accTop r.a x).1, saturated := r.saturated || (satSum Config.accTop r.a x).2 }

/-- Add cent-minutes to the pending account. -/
def BillRec.addO (r : BillRec) (x : Nat) : BillRec :=
  { r with o := (satSum Config.accTop r.o x).1, saturated := r.saturated || (satSum Config.accTop r.o x).2 }

/-- Add cent-minutes to the credited account. -/
def BillRec.addK (r : BillRec) (x : Nat) : BillRec :=
  { r with k := (satSum Config.accTop r.k x).1, saturated := r.saturated || (satSum Config.accTop r.k x).2 }

/-- Accrual to minute `t` at the rates given, at plant minute `now` (R135). -/
def BillRec.accrue (now : Nat) (rates : Vector Nat 16) (t : Nat) (r0 : BillRec) : BillRec :=
  let r := r0.clamp now
  let amount := (t - r.since) * rateSum rates r.tiers
  let r1 := match r.state with
    | .service => r.addA amount
    | .outage => r.addO amount
    | _ => r
  { r1 with since := max r.since t }

/-- A statement amount (R151): `x` divided by the period length and rounded, or 0 with the flag for a length of 0. -/
def statement (x p : Nat) : Nat × Bool :=
  if p = 0 then (0, true)
  else (min Config.centsTop ((x + p / 2) / p), decide (Config.centsTop < (x + p / 2) / p))

/-- The clamped statement PPV net with whether it clamped (R151). -/
def ppvNet (charged refunded : Nat) : Int × Bool :=
  let v : Int := (charged : Int) - (refunded : Int)
  let c := max (-2147483648) (min 2147483647 v)
  (c, c != v)

/-- One record is closed at minute `m` with period length `p`, and belongs to `period` (R151). -/
def BillRec.close (now : Nat) (rates : Vector Nat 16) (m p period : Nat) (r0 : BillRec) : BillRec :=
  let r := r0.accrue now rates m
  { r with
    stCharge := (statement r.a p).1, stCredit := (statement r.k p).1, stNet := (ppvNet r.charged r.refunded).1,
    stMinutes := p, a := 0, k := 0, charged := 0, refunded := 0, period := period,
    saturated := r.saturated || (statement r.a p).2 || (statement r.k p).2 || (ppvNet r.charged r.refunded).2 }

/-- How a record stands against the numbers in force (R150). -/
inductive Behind where
  | current | onePeriod | oneEpoch | stale
deriving DecidableEq, Repr

def Billing.behind (b : Billing) (r : BillRec) : Behind :=
  let epoch := b.epoch % 256
  if r.period = b.period ∧ r.epoch = epoch then .current
  else if (r.period + 1) % 65536 = b.period ∧ r.epoch = epoch then .onePeriod
  else if (r.epoch + 1) % 256 = epoch ∧ r.period = b.period then .oneEpoch
  else .stale

/-- A record is brought across the boundary in force (R150–R152). -/
def Billing.catchUp (b : Billing) (now : Nat) (r : BillRec) : BillRec :=
  match b.behind r with
  | .current => r
  | .onePeriod => r.close now b.cur b.periodStart b.prevLen b.period
  | .oneEpoch => { r.accrue now b.prev b.epochMin with epoch := b.epoch % 256 }
  | .stale =>
    { r.clamp now with
      period := b.period, epoch := b.epoch % 256, since := max (max (r.clamp now).since b.periodStart) b.epochMin }

/-- ENROL INIT writes the record afresh (R137). -/
def Billing.enrolInit (b : Billing) (now minute : Nat) (tiers : BitVec 16) (r : BillRec) : BillRec :=
  { state := .off, saturated := false, epoch := b.epoch % 256, period := b.period,
    since := max minute (if now < r.since then 0 else r.since), tiers := tiers, began := 0, a := 0, o := 0, k := 0,
    charged := 0, refunded := 0, stCharge := 0, stCredit := 0, stNet := 0, stMinutes := 0 }

/-- The duration of an outage: the since minute less the began minute (R141). Of a began minute above the since minute, which a
clock set back can leave (R135), R141 states no duration: it is a free value (assumption 46). -/
def BillRec.duration (r : BillRec) : Nat :=
  if r.began ≤ r.since then r.since - r.began else (Config.negativeSpan r.since r.began).toNat

/-- The account O of a resolved outage goes to K or to A by the outage's duration (R141). The state is set by the caller. -/
def BillRec.resolve (tc : Nat) (r : BillRec) : BillRec :=
  let r1 := if tc ≤ r.duration then r.addK r.o else r.addA r.o
  { r1 with o := 0, began := 0 }

/-- The minutes an outage from `b` up to `e` shares with a window (R142); none for no window. -/
def overlapOf (b e : Nat) : Option (Nat × Nat) → Nat
  | none => 0
  | some (w0, w1) => min e w1 - max b w0

/-- The overlap reports of a resolution, in slot order: the event ids of the OPEN slots with an overlap above 0 (R142). -/
def State.overlapsOf (s : State) (rec0 : SubRec) (r : BillRec) : List (Nat × Nat) :=
  (List.finRange 4).filterMap fun k =>
    let p := rec0.slots[k]
    if p.used && p.state == .opened then
      let u := overlapOf r.began r.since (s.lossAnswer p.event).2
      if 0 < u then some (p.event, u) else none
    else none

/-- PPV CHARGE adds the price (R143). -/
def BillRec.ppvCharge (price : Nat) (r : BillRec) : BillRec :=
  { r with charged := (satSum Config.centsTop r.charged price).1,
           saturated := r.saturated || (satSum Config.centsTop r.charged price).2 }

/-- A refund adds the slot's price (R144). -/
def BillRec.ppvRefund (price : Nat) (r : BillRec) : BillRec :=
  { r with refunded := (satSum Config.centsTop r.refunded price).1,
           saturated := r.saturated || (satSum Config.centsTop r.refunded price).2 }

/-- Whether a settled purchase is refunded: the drop mark, no window, or twice the larger of overlap and carrier loss at
least the window's length (R144). -/
def refundDue (drop : Bool) (overlap : Nat) (answer : Nat × Option (Nat × Nat)) : Bool :=
  match answer.2 with
  | none => true
  | some (w0, w1) => drop || decide (w1 - w0 ≤ 2 * max overlap answer.1)

/-- PPV SETTLE on an accrued record (R144). Of two used slots with the event id (R25.3) the lowest-numbered gives the price and the
overlap, where R144 speaks of one (assumption 47). -/
def State.settleRecord (s : State) (rec0 : SubRec) (event : Nat) (drop : Bool) (r : BillRec) : BillRec :=
  match rec0.slotOf event with
  | none => r
  | some k =>
    let p := rec0.slots[k]
    let answer := s.lossAnswer event
    let u := p.overlap + (if r.state = .outage then overlapOf r.began r.since answer.2 else 0)
    if refundDue drop u answer then r.ppvRefund p.price else r

end Sys2Proof.Machine
end

