-- ==== Sys2Proof/Machine/CorrOps.lean ====
section
/-! DEFINITION. The correlator's work on the Outage List: runs, examinations, declarations, merges, returns, vacates, the
walk of a freed record and the start-up rebuild (R96–R106). -/

namespace Sys2Proof.Machine

/-- A row of occupied positions with their entries. -/
abbrev Row := List (Nat × EntryId)

/-- The Outage List as a report changes it, with the notices and log entries the changes call for, in their order (R98). -/
structure CorrWork where
  outages : List Outage
  nextId  : Nat
  full    : Bool
  removed : Bool
  notices : List Task
  alarms  : List Task
deriving DecidableEq, Repr

def State.corrWork (s : State) : CorrWork :=
  { outages := s.corr.outages, nextId := s.corr.nextId, full := s.corr.listFull, removed := false, notices := [],
    alarms := [] }

/-- One step of the division of a row into runs of LOST entries, from the far end. -/
def State.runStep (s : State) (x : Nat × EntryId) (a : Row × List Row) : Row × List Row :=
  if (s.entry x.2).state = .lost then (x :: a.1, a.2) else ([], if a.1.isEmpty then a.2 else a.1 :: a.2)

/-- The runs of a feeder, by first position from the lowest (R96). -/
def State.runs (s : State) (f : Feeder) : List Row :=
  let r := (s.row f).foldr s.runStep ([], [])
  if r.1.isEmpty then r.2 else r.1 :: r.2

/-- The declaration threshold of a feeder (R96, R104). -/
def State.threshold (s : State) (f : Feeder) : Nat := if 0 < s.corr.lowSupply[f] then 1 else s.cfg.nmin

def Outage.covers (o : Outage) (f : Feeder) (pos : Nat) : Bool :=
  o.feeder == f && decide (o.first ≤ pos) && decide (pos ≤ o.last)

/-- The open outages that cover entries of a run. -/
def CorrWork.covering (w : CorrWork) (f : Feeder) (run : Row) : List Outage :=
  w.outages.filter fun o => run.any fun x => o.covers f x.1

/-- A run qualifies (R96). -/
def State.qualifies (s : State) (w : CorrWork) (f : Feeder) (run : Row) : Bool :=
  (w.covering f run).isEmpty && decide (s.threshold f ≤ run.length)

/-- The first id from `n` on, from 65,535 round to 1, that no open record holds. -/
def freeId (ids : List Nat) : Nat → Nat → Nat
  | 0, n => n
  | fuel + 1, n => if ids.contains n then freeId ids fuel (if n = 65535 then 1 else n + 1) else n

/-- The id the next record takes (R97). -/
def CorrWork.newId (w : CorrWork) : Nat := freeId (w.outages.map (·.id)) 17 w.nextId

/-- A record put in id order. -/
def insertOutage (o : Outage) : List Outage → List Outage
  | [] => [o]
  | x :: xs => if o.id ≤ x.id then o :: x :: xs else x :: insertOutage o xs

/-- A new record takes the next id (R97). -/
def CorrWork.add (w : CorrWork) (o : Outage) : CorrWork :=
  { w with outages := insertOutage { o with id := w.newId } w.outages,
           nextId := if w.newId = 65535 then 1 else w.newId + 1 }

def CorrWork.remove (w : CorrWork) (id : Nat) : CorrWork :=
  { w with outages := w.outages.filter fun o => o.id != id, removed := true }

/-- The record of id `id` changed. -/
def CorrWork.change (w : CorrWork) (id : Nat) (g : Outage → Outage) : CorrWork :=
  { w with outages := w.outages.map fun o => if o.id = id then g o else o }

def CorrWork.notes (w : CorrWork) (ts : List Task) : CorrWork := { w with notices := w.notices ++ ts }

def CorrWork.logs (w : CorrWork) (ts : List Task) : CorrWork := { w with alarms := w.alarms ++ ts }

/-- The notices for the claimed ports of one tap, in port order (R98). -/
def State.tapNotices (s : State) (e : EntryId) (kind : NoticeKind) (minute : Nat) : List Task :=
  (List.finRange 4).filterMap fun p => (s.tapPort e p).claim.map fun sub => Task.notice (.notice sub kind minute)

/-- The notices for the taps of a row, by position. -/
def State.rowNotices (s : State) (r : Row) (kind : NoticeKind) (minute : Nat) : List Task :=
  r.flatMap fun x => s.tapNotices x.2 kind minute

/-- The earliest silent-since minute of a run, no later than `m`. -/
def State.earliest (s : State) (r : Row) (m : Nat) : Nat := r.foldl (fun n x => min n (s.entry x.2).silentSince) m

/-- The positions of the first and last entries of a row. -/
def Row.firstPos (r : Row) : Nat := (r.head?.map (·.1)).getD 0
def Row.lastPos (r : Row) : Nat := (r.getLast?.map (·.1)).getD 0

/-- OUTAGE LIST FULL is logged once while the flag is clear (R102). -/
def CorrWork.noteFull (w : CorrWork) (f : Feeder) (run : Row) : CorrWork :=
  if w.full then w
  else
    { w.logs [.alarm .outageListFull .critical (.place f (Row.firstPos run)) (word run.length) none] with full := true }

/-- A declaration (R99): the record, the begins when they are asked for, and OUTAGE OPEN. -/
def State.declare (s : State) (w : CorrWork) (f : Feeder) (run : Row) (minute : Nat) (begins : Bool) : CorrWork :=
  let first := Row.firstPos run
  let last := Row.lastPos run
  let start := match run with
    | [] => minute
    | x :: r => s.earliest r (s.entry x.2).silentSince
  let id := w.newId
  let w1 := w.add { id := id, feeder := f, first := first, last := last, start := start, declared := minute }
  let w2 := if begins then w1.notes (s.rowNotices run (.outageBegin id) minute) else w1
  w2.logs [.alarm .outageOpen .critical (.outage id) (word (f.val + 2 ^ 8 * first + 2 ^ 16 * last)) none]

/-- The older of two outages: the smaller start minute, and among equals the smaller id (R99). -/
def Outage.older (a b : Outage) : Outage :=
  if b.start < a.start ∨ (b.start = a.start ∧ b.id < a.id) then b else a

/-- The outage `keep` takes the whole run; the others that cover it are merged into it (R99). A position that it gives up so, whose
return or vacate report still waits, is found uncovered by that report, and no OUTAGE END is sent for it: R99 gives the outage the
run's bounds, against R131's law that every tap that leaves a covered run has one, and the model follows R99; the taps still LOST
beyond that position are given up with it (assumption 62). The OUTAGE MERGED entries of several outages are logged in the order of
the Outage List, of which R99 states none (assumption 69). -/
def State.grow (s : State) (w : CorrWork) (f : Feeder) (run : Row) (keep : Outage) (others : List Outage) : CorrWork :=
  let gained := run.filter fun x => !keep.covers f x.1
  let joined := run.filter fun x => !w.outages.any fun o => o.covers f x.1
  let w1 := w.change keep.id fun o =>
    { o with first := Row.firstPos run, last := Row.lastPos run, start := s.earliest gained o.start }
  let w2 := others.foldl (fun w o =>
    (w.remove o.id).logs [.alarm .outageMerged .info (.outage o.id) (word keep.id) none]) w1
  w2.notes (s.rowNotices joined (.outageBegin keep.id) s.now)

/-- The examination of a run (R99). `minute` is the declared minute of a new outage. -/
def State.examine (s : State) (minute : Nat) (begins : Bool) (f : Feeder) (w : CorrWork) (run : Row) : CorrWork :=
  match w.covering f run with
  | [] =>
    if s.threshold f ≤ run.length then
      if w.outages.length < Config.outageDepth then s.declare w f run minute begins else w.noteFull f run
    else w
  | o :: os =>
    let keep := os.foldl Outage.older o
    s.grow w f run keep ((o :: os).filter fun x => x.id != keep.id)

/-- The run that holds a position. -/
def State.runAt (s : State) (f : Feeder) (pos : Nat) : Option Row :=
  (s.runs f).find? fun r => r.any fun x => x.1 == pos

/-- The examination of the run at a position, left undone while the feeder is enumerating (R99, R105). -/
def State.examineAt (s : State) (w : CorrWork) (f : Feeder) (pos : Nat) : CorrWork :=
  if s.corr.enumerating[f] then w
  else
    match s.runAt f pos with
    | some run => s.examine s.now true f w run
    | none => w

/-- Every run of a feeder is examined, by first position from the lowest (R105). -/
def State.examineAll (s : State) (w : CorrWork) (f : Feeder) : CorrWork :=
  if s.corr.enumerating[f] then w else (s.runs f).foldl (fun w r => s.examine s.now true f w r) w

/-- Every undeclared run of a feeder is examined (R102, R104). -/
def State.examineUndeclared (s : State) (w : CorrWork) (f : Feeder) : CorrWork :=
  if s.corr.enumerating[f] then w
  else (s.runs f).foldl (fun w r => if (w.covering f r).isEmpty then s.examine s.now true f w r else w) w

/-- Whether a qualifying run still waits for a record. A feeder that is enumerating has its runs left aside, as the walk leaves
them (R105), where R102 speaks of every qualifying run (assumption 59). -/
def State.runWaits (s : State) (w : CorrWork) : Bool :=
  (List.finRange 8).any fun f => !s.corr.enumerating[f] && (s.runs f).any fun r => s.qualifies w f r

/-- The walk after the removal of a record (R102), made once behind the examinations of the report that removed it
(assumption 59). -/
def State.fullWalk (s : State) (w : CorrWork) : CorrWork :=
  if w.removed then
    let w1 := (List.finRange 8).foldl s.examineUndeclared w
    if s.runWaits w1 then w1 else { w1 with full := false }
  else w

/-- The outage that covers a position. -/
def CorrWork.outageAt (w : CorrWork) (f : Feeder) (pos : Nat) : Option Outage :=
  w.outages.find? fun o => o.covers f pos

/-- An outage whose run is empty closes (R101, R103). A start minute above the return minute leaves the duration a free value
(assumption 46). -/
def CorrWork.closeOutage (w : CorrWork) (o : Outage) (minute : Nat) : CorrWork :=
  (w.remove o.id).logs [.alarm .outageClosed .info (.outage o.id) (spanWord minute o.start) none]

/-- The split of an outage at a returned position (R101, R102). -/
def State.splitOutage (s : State) (w : CorrWork) (o : Outage) (below above : Row) (minute : Nat) : CorrWork :=
  let w1 := w.change o.id fun o => { o with last := Row.lastPos below }
  if w1.outages.length < Config.outageDepth then
    (w1.add { id := w1.newId, feeder := o.feeder, first := Row.firstPos above, last := o.last, start := o.start,
              declared := s.now }).logs [.alarm .outageSplit .info (.outage o.id) (word w1.newId) none]
  else (w1.notes (s.rowNotices above (.outageEnd o.id) minute)).noteFull o.feeder above

/-- The reports the correlator has still to take: those in its queue, and those the Tap Directory has still to hand. -/
def State.reportsToCome (s : State) : List CorrReport :=
  s.corr.reports ++ s.dir.work.filterMap fun t =>
    match t with
    | .corrReport r => some r
    | _ => none

/-- The positions of a feeder whose vacate reports still wait, with their entries. -/
def State.vacating (s : State) (f : Feeder) : List (Nat × EntryId) :=
  s.reportsToCome.filterMap fun r =>
    match r with
    | .vacate e g pos _ _ => if g = f then some (pos, e) else none
    | _ => none

/-- The positions that make up an outage's run below and above a position: the occupied ones, and those that an enumeration
has left while their vacate reports wait. The latter count as the run's until their own reports are taken, so that each
still gets its OUTAGE END (R101, R103; assumption 35). -/
def State.partsOf (s : State) (o : Outage) (pos : Nat) : Row × Row :=
  let row := s.row o.feeder
  let gone := (s.vacating o.feeder).filter fun x => !row.any fun y => y.1 == x.1
  let r := (gone.foldr insertPos row).filter fun x => o.covers o.feeder x.1
  (r.filter fun x => decide (x.1 < pos), r.filter fun x => decide (pos < x.1))

/-- A return report (R101). What the run is made of while vacate reports wait is assumption 35. -/
def State.corrReturn (s : State) (e : EntryId) (f : Feeder) (pos minute : Nat) : CorrWork :=
  let w := s.corrWork
  if (s.entry e).state = .lost ∨ (s.entry e).place ≠ some { feeder := f, pos := pos } then w
  else
    match w.outageAt f pos with
    | none => w
    | some o =>
      let w1 := w.notes (s.tapNotices e (.outageEnd o.id) minute)
      match s.partsOf o pos with
      | ([], []) => s.fullWalk (w1.closeOutage o minute)
      | ([], x :: _) => w1.change o.id fun o => { o with first := x.1 }
      | (b :: bs, []) => w1.change o.id fun o => { o with last := Row.lastPos (b :: bs) }
      | (b :: bs, a :: as) => s.splitOutage w1 o (b :: bs) (a :: as) minute

/-- The nearest occupied positions on the two sides of a position are both LOST. -/
def State.lostNeighbours (s : State) (f : Feeder) (pos : Nat) : Option Nat :=
  match ((s.row f).filter fun x => decide (x.1 < pos)).getLast?, (s.row f).find? fun x => decide (pos < x.1) with
  | some x, some y => if (s.entry x.2).state = .lost ∧ (s.entry y.2).state = .lost then some x.1 else none
  | _, _ => none

/-- The examination that an uncovered entry's removal leads to (R103). An entry that was LOST makes its run shorter and nothing
more, but where an outage covers an entry of the run so joined: two outages are never left neighbours (R97; assumption 35). -/
def State.vacateJoin (s : State) (w : CorrWork) (f : Feeder) (pos : Nat) (wasLost : Bool) : CorrWork :=
  match s.lostNeighbours f pos with
  | none => w
  | some q =>
    if wasLost && ((s.runAt f q).all fun run => (w.covering f run).isEmpty) then w else s.fullWalk (s.examineAt w f q)

/-- A vacate report (R103). -/
def State.corrVacate (s : State) (e : EntryId) (f : Feeder) (pos minute : Nat) (wasLost : Bool) : CorrWork :=
  let w := s.corrWork
  match w.outageAt f pos with
  | some o =>
    let w1 := w.notes (s.tapNotices e (.outageEnd o.id) minute)
    match s.partsOf o pos with
    | ([], []) => s.fullWalk (w1.closeOutage o minute)
    | ([], x :: _) => w1.change o.id fun o => { o with first := x.1 }
    | (b :: bs, []) => w1.change o.id fun o => { o with last := Row.lastPos (b :: bs) }
    | (_ :: _, _ :: _) => w1
  | none => s.vacateJoin w f pos wasLost

/-- A lost report: the run at the entry's present position is examined (R100). -/
def State.corrLost (s : State) (e : EntryId) : CorrWork :=
  match (s.entry e).state, (s.entry e).place with
  | .lost, some pl => s.fullWalk (s.examineAt s.corrWork pl.feeder pl.pos)
  | _, _ => s.corrWork

/-- The changed list stored; the hand-offs it calls for, notices before log entries (R98). -/
def State.storeCorr (s : State) (w : CorrWork) : State :=
  { s with corr := { s.corr with outages := w.outages, nextId := w.nextId, listFull := w.full } }

def CorrWork.tasks (w : CorrWork) : List Task := w.notices ++ w.alarms

def State.setLowSupply (s : State) (f : Feeder) (n : Nat) : State :=
  { s with corr := { s.corr with lowSupply := s.corr.lowSupply.set f n } }

def State.setEnumerating (s : State) (f : Feeder) (b : Bool) : State :=
  { s with corr := { s.corr with enumerating := s.corr.enumerating.set f b } }

/-- The examinations of the start-up rebuild (R106): every run of every feeder in the enable set, declared at the RUN minute
and without begins. -/
def State.rebuildList (s : State) : CorrWork :=
  (List.finRange 8).foldl (fun w f =>
    if s.cfg.enable.getLsbD f.val then (s.runs f).foldl (fun w r => s.examine s.runMinute false f w r) w else w) s.corrWork

/-- The walk of the claimed ports after the rebuild (R106), by entry number and port. -/
def State.rebuildWalk (s : State) (w : CorrWork) : List Task :=
  (List.finRange 576).flatMap fun e =>
    match (s.entry e).place with
    | none => s.tapNotices e (.outageEnd 0) s.runMinute
    | some pl =>
      match w.outageAt pl.feeder pl.pos with
      | some o => s.tapNotices e (.outageBegin o.id) s.runMinute
      | none => s.tapNotices e (.outageEnd 0) s.runMinute

end Sys2Proof.Machine
end

