-- ==== Sys2Proof/Machine/OrderOps.lean ====
section
/-! DEFINITION. The work of the Order Unit: checks of an order, the effects of an accepted order, completion, confirmations,
event walks, billing arrivals and the subscriber pass (R1–R25). -/

namespace Sys2Proof.Machine

/-! ### The Order Queue and records -/

/-- An index is appended to the Order Queue, or the backlog flag is set when the queue holds 32; a walk in progress ends when
the queue reaches 32, and notes when the queue was found full (R5, R6, R9). A read that the Order Unit presents goes before that of
the index's dispatch (R176). -/
def State.enqueue (s : State) (i : Nat) : State :=
  if s.order.queue.length < Config.orderQueueDepth then
    { s.keepTurn .orderUnit with order := { s.order with
        queue := s.order.queue ++ [i]
        walk := if s.order.queue.length + 1 = Config.orderQueueDepth then none else s.order.walk } }
  else { s with order := { s.order with backlog := true, walk := s.order.walk.map fun w => { w with full := true } } }

/-- The task is the effect of a dispatched order of index `i`. -/
def Task.dispatches (i : Nat) : Task → Bool
  | .applyOrder o => o.sub == i
  | _ => false

/-- The dispatch of the index has begun: its record is being read (R7), or its order waits for room in the Notice Queue (R24).
R5's table does not name this case; the model treats the order as in flight (assumption 45). -/
def State.dispatching (s : State) (i : Nat) : Bool :=
  (s.order.taken.any fun x => x.sub == i) || s.order.work.any (Task.dispatches i)

/-- An order arrival is noted on the dispatched order of its index (assumption 45). -/
def Task.reordered (i : Nat) : Task → Task
  | .applyOrder o => if o.sub = i then .applyOrder { o with reorder := true } else .applyOrder o
  | t => t

/-- Whether an index is queued, dispatched or in flight (R5; assumption 45). -/
def State.knows (s : State) (i : Nat) : Bool :=
  s.order.queue.contains i || (s.order.inflight.any fun x => x.sub == i) || s.dispatching i

/-- The part-owned words of a record are written in one burst (R1). -/
def State.writeSub (s : State) (i : Nat) (r : SubRec) : State := s.ask .orderUnit (.sub i r.partWords false)

/-- The same, when a word differs from what the Order Unit last had written. -/
def State.writeSubIfChanged (s : State) (i : Nat) (r : SubRec) : State :=
  if (s.ownRec i).partWords = r.partWords then s else s.writeSub i r

/-- The failure count after a result (R9). -/
def countFailures (res : OrderResult) (n : Nat) : Nat :=
  match res with
  | .deferred | .unreachable => satAdd 255 n 1
  | .done | .auditMatch | .auditMismatch => 0
  | _ => n

/-- The record with its completion words (R9). -/
def SubRec.complete (r : SubRec) (serial : Nat) (res : OrderResult) : SubRec := { r with done := serial, result := res.code }

/-- A refused order completes at once; the failure count is unchanged (R7, R9). -/
def State.refuse (s : State) (i : Nat) (r : SubRec) (res : OrderResult) : State :=
  s.writeSub i (r.complete r.oserial res)

/-! ### Checks (R7, R10–R18) -/

/-- The judgement of an order: refused with a code, or accepted with its notices and the entry of a new claim. -/
inductive Verdict where
  | refused (res : OrderResult)
  | accepted (notices : List NoticeKind) (entry : Option EntryId)
deriving DecidableEq, Repr

/-- Whether a port is claimed by a subscriber other than `i`. -/
def State.claimedByOther (s : State) (e : EntryId) (p : Port) (i : Nat) : Bool :=
  match (s.tapPort e p).claim with
  | some j => j != i
  | none => false

/-- ENROL (R10). -/
def checkEnrol (r : SubRec) : Verdict :=
  if r.enrolled then .refused .alreadyEnrolled else .accepted [.enrolInit r.tiers] none

/-- CONNECT (R11). -/
def State.checkConnect (s : State) (i : Nat) (r : SubRec) : Verdict :=
  let notices : List NoticeKind := if r.wantOn then [] else [.awaitService]
  if r.claimHeld then .accepted notices none
  else
    match s.entryOfSerial r.serial with
    | none => .refused .noSuchTap
    | some e => if s.claimedByOther e r.port i then .refused .portInUse else .accepted notices (some e)

/-- DISCONNECT (R12). -/
def checkDisconnect (r : SubRec) : Verdict := if r.wantOn then .accepted [.stopService] none else .refused .notConnected

/-- RETIER (R13). -/
def checkRetier (r : SubRec) : Verdict := .accepted [.retier r.tiers] none

/-- MOVE (R14). -/
def State.checkMove (s : State) (i : Nat) (r : SubRec) : Verdict :=
  if r.claimHeld then
    match s.entryOfSerial r.serial with
    | none => .refused .noSuchTap
    | some e =>
      if s.claimOf i = some (e, r.port) then .refused .samePort
      else if s.claimedByOther e r.port i then .refused .portInUse
      else .accepted [.move] (some e)
  else .refused .notConnected

/-- BUY (R15). -/
def State.checkBuy (s : State) (r : SubRec) : Verdict :=
  if !r.wantOn then .refused .notConnected
  else if r.oarg = 0 ∨ s.active.slotOfEvent r.oarg = none then .refused .noSuchEvent
  else if s.active.eventState r.oarg = .ended then .refused .eventEnded
  else if r.slotOf r.oarg ≠ none then .refused .duplicate
  else if r.freeSlot = none then .refused .purchaseLimit
  else if Config.purchaseIndexDepth ≤ s.order.index.length then .refused .indexFull
  else .accepted [] none

/-- CANCEL (R16). -/
def checkCancel (r : SubRec) : Verdict :=
  match r.slotOf r.oarg with
  | none => .refused .notBooked
  | some k => if r.slots[k].state = .opened then .refused .alreadyOpen else .accepted [] none

/-- AUDIT (R18). -/
def checkAudit (r : SubRec) : Verdict := if r.claimHeld then .accepted [] none else .refused .notConnected

/-- REMOVE (R17). -/
def State.checkRemove (s : State) (i : Nat) (r : SubRec) : Verdict :=
  let b := s.billRec i
  if r.wantOn ∨ b.state ≠ .off then .refused .notOff
  else if b.a ≠ 0 ∨ b.o ≠ 0 ∨ b.k ≠ 0 ∨ b.charged ≠ 0 ∨ b.refunded ≠ 0 then .refused .unbilled
  else if r.slots.any fun p => p.used then .refused .purchasesOpen
  else .accepted [] none

/-- The checks of a kind (R10–R18). -/
def State.judge (s : State) (kind : OrderKind) (i : Nat) (r : SubRec) : Verdict :=
  match kind with
  | .enrol => checkEnrol r
  | .connect => s.checkConnect i r
  | .disconnect => checkDisconnect r
  | .retier => checkRetier r
  | .move => s.checkMove i r
  | .buy => s.checkBuy r
  | .cancel => checkCancel r
  | .audit => checkAudit r
  | .remove => s.checkRemove i r

/-! ### Completion at once or entry into the In-flight Table (R8, R68) -/

/-- The order completes at once with a result (R9); the failure count counts a DEFERRED or UNREACHABLE. -/
def State.completeAtOnce (s : State) (i : Nat) (r : SubRec) (res : OrderResult) : State :=
  let failures := if res = .deferred ∨ res = .unreachable then countFailures res r.failures else r.failures
  s.writeSub i ({ r with failures := failures }.complete r.oserial res)

/-- The order enters the In-flight Table; its port is marked for re-application unless it is an AUDIT, and the record's
changed words are written (R7, R8). -/
def State.enterFlight (s : State) (o : OrderItem) (r : SubRec) (e : EntryId) (p : Port) : State :=
  let s1 := if o.kind = .audit then s else s.markPort e p
  let x : InFlight := { sub := o.sub, serial := r.oserial, kind := o.kind, e := e, p := p, armed := false, reorder := o.reorder,
                        seq := s.order.nextSeq }
  State.writeSubIfChanged
    { s1 with order := { s1.order with inflight := s1.order.inflight ++ [x], nextSeq := s.order.nextSeq + 1 } } o.sub r

/-- What becomes of an accepted order after its changes (R8): `mark` says that the order marked its port, `may` that the
order can need the tap. -/
def State.finishOrder (s : State) (o : OrderItem) (r : SubRec) (mark may : Bool) : State :=
  match s.claimOf o.sub with
  | none => s.completeAtOnce o.sub r .done
  | some (e, p) =>
    let s1 := if mark then s.markPort e p else s
    let needs := may && (o.kind == .audit || mark || (s.tapPort e p).applied != some (s.tapPort e p).wanted)
    let failed : OrderResult := if o.kind = .audit then .unreachable else .deferred
    if !needs then s1.completeAtOnce o.sub r .done
    else if s1.unreachable e then s1.completeAtOnce o.sub r failed
    else if s1.onBlocked e then
      (if o.kind = .audit then s1 else s1.markPort e p).completeAtOnce o.sub r failed
    else s1.enterFlight o r e p

/-! ### The effects of an accepted order (R10–R18) -/

/-- The record as ENROL writes it, but for the completion words (R10). -/
def SubRec.afresh (r : SubRec) : SubRec :=
  { r with done := 0, result := 0, enrolled := true, wantOn := false, claimHeld := false, claimPort := 0, confirmed := .none,
           claimSerial := 0, lastConfirm := 0, auditOn := false, auditMask := 0, failures := 0,
           slots := Vector.replicate 4 Purchase.free }

/-- The record without its claim (R3). -/
def SubRec.unclaimed (r : SubRec) : SubRec := { r with claimHeld := false, claimPort := 0, claimSerial := 0 }

def State.releaseOwn (s : State) (i : Nat) : State :=
  match s.claimOf i with
  | some (e, p) => s.releaseClaim e p
  | none => s

def State.addIndex (s : State) (x : IndexEntry) : State := { s with order := { s.order with index := s.order.index ++ [x] } }

/-- The BOOKED index entry of a subscriber and event is removed. R25.3 can leave a SETTLING entry of the same subscriber and
event in the index beside it, against R2's at-most-one; that one stays (assumption 47). -/
def State.dropIndex (s : State) (sub event : Nat) : State :=
  { s with order := { s.order with
      index := s.order.index.filter fun x => !(x.sub == sub && x.event == event && x.state == .booked) } }

/-- The index entries of a subscriber and event that are in state `old` go to `new`; a SETTLING one beside an OPEN one
(R25.3) stays SETTLING (assumption 47). -/
def State.setIndex (s : State) (sub event : Nat) (old new : IndexState) : State :=
  { s with order := { s.order with index := s.order.index.map fun x =>
      if x.sub = sub ∧ x.event = event ∧ x.state = old then { x with state := new } else x } }

def State.applyConnect (s : State) (o : OrderItem) (r : SubRec) : State :=
  let s1 := match o.entry with
    | some e => s.makeClaim e r.port o.sub
    | none => s
  let r1 := match o.entry with
    | some _ => { r with claimHeld := true, claimPort := r.port, claimSerial := r.serial }
    | none => r
  let r2 := if r.wantOn then r1 else { r1 with wantOn := true, confirmed := .none }
  (s1.computeWanted o.sub true r.tiers).finishOrder o r2 r.wantOn true

def State.applyDisconnect (s : State) (o : OrderItem) (r : SubRec) : State :=
  (s.computeWanted o.sub false r.tiers).finishOrder o { r with wantOn := false } false true

def State.applyRetier (s : State) (o : OrderItem) (r : SubRec) : State :=
  (s.computeWanted o.sub r.wantOn r.tiers).finishOrder o r false r.wantOn

def State.applyMove (s : State) (o : OrderItem) (r : SubRec) : State :=
  match o.entry with
  | none => s
  | some e =>
    let s1 := (s.releaseOwn o.sub).makeClaim e r.port o.sub
    (s1.computeWanted o.sub r.wantOn r.tiers).finishOrder o
      { r with claimHeld := true, claimPort := r.port, claimSerial := r.serial, confirmed := .none } false true

def State.applyBuy (s : State) (o : OrderItem) (r : SubRec) : State :=
  match s.active.slotOfEvent r.oarg, r.freeSlot with
  | some k, some j =>
    let x := s.active.slots[k]
    let r1 := r.setSlot j { event := r.oarg, price := x.price, state := .booked, charged := false, overlap := 0 }
    let s1 := s.addIndex { sub := o.sub, event := r.oarg, band := x.band, state := .booked }
    let s2 := if s.active.ev[k] = .running then s1.computeWanted o.sub r.wantOn r.tiers else s1
    s2.finishOrder o r1 false true
  | _, _ => s

def State.applyCancel (s : State) (o : OrderItem) (r : SubRec) : State :=
  match r.slotOf r.oarg with
  | none => s
  | some k =>
    ((s.dropIndex o.sub r.oarg).computeWanted o.sub r.wantOn r.tiers).completeAtOnce o.sub (r.setSlot k Purchase.free) .done

/-- The record as an accepted order finds it: words 0–3 are those read at dispatch. -/
def State.orderRec (s : State) (o : OrderItem) : SubRec :=
  { s.ownRec o.sub with serial := o.record.serial, port := o.record.port, tiers := o.record.tiers,
                        okind := o.record.okind, oserial := o.record.oserial, oarg := o.record.oarg }

/-- The changes of an accepted order, its notices having been handed: directory changes, the record burst, completion or the
In-flight Table (R7). -/
def State.orderEffect (s : State) (o : OrderItem) : State :=
  let r := s.orderRec o
  match o.kind with
  | .enrol => s.completeAtOnce o.sub { r.afresh with okind := r.okind } .done
  | .connect => s.applyConnect o r
  | .disconnect => s.applyDisconnect o r
  | .retier => s.applyRetier o r
  | .move => s.applyMove o r
  | .buy => s.applyBuy o r
  | .cancel => s.applyCancel o r
  | .audit => s.finishOrder o r false true
  | .remove => (s.releaseOwn o.sub).completeAtOnce o.sub { r.unclaimed with enrolled := false } .done

/-- The effect of an accepted order. One that completes at once, and of which an arrival came while it waited, has its index
put back as a reordered completion has (R9; assumption 45). -/
def State.applyOrder (s : State) (o : OrderItem) : State :=
  let t := s.orderEffect o
  if o.reorder && !(t.order.inflight.any fun x => x.sub == o.sub) then t.enqueue o.sub else t

/-! ### Completion of in-flight orders (R8, R9, R18) -/

/-- An in-flight entry leaves the table; its reorder flag puts the index back (R9). -/
def State.leaveFlight (s : State) (x : InFlight) : State :=
  let s1 := { s with order := { s.order with inflight := s.order.inflight.filter fun y => y.seq != x.seq } }
  if x.reorder then s1.enqueue x.sub else s1

/-- An in-flight order completes with a result, its record changed by `edit` in the same burst (R9). -/
def State.completeFlight (s : State) (x : InFlight) (res : OrderResult) (edit : SubRec → SubRec) : State :=
  let r := s.ownRec x.sub
  State.leaveFlight (s.writeSub x.sub
    ((edit { r with failures := countFailures res r.failures }).complete x.serial res)) x

/-- DEFERRED, or UNREACHABLE for an AUDIT (R8). -/
def InFlight.failure (x : InFlight) : OrderResult := if x.kind = .audit then .unreachable else .deferred

/-- Every in-flight entry chosen completes DEFERRED or UNREACHABLE. -/
def State.failFlights (s : State) (pick : InFlight → Bool) : State :=
  (s.order.inflight.filter pick).foldl (fun s x => s.completeFlight x x.failure id) s

/-- A transaction start arms the entries that entered the table before the call was built (R8). -/
def State.armFlights (s : State) (cmd : TapCmd) (e : EntryId) (p : Port) (before : Nat) : State :=
  let hit (x : InFlight) : Bool :=
    decide (x.seq < before) && (match cmd with
      | .read => x.auditOf e
      | .setPort => x.onPort e p
      | _ => false)
  { s with order := { s.order with inflight := s.order.inflight.map fun x => if hit x then { x with armed := true } else x } }

/-- An OK READ completes the armed AUDITs of the tap (R18). -/
def State.auditResults (s : State) (e : EntryId) (ports : Vector PortState 4) : State :=
  (s.order.inflight.filter fun x => x.armed && x.auditOf e).foldl (fun s x =>
    let a := ports[x.p]
    s.completeFlight x (if a = (s.tapPort e x.p).wanted then .auditMatch else .auditMismatch)
      fun r => { r with auditOn := a.on, auditMask := a.mask }) s

/-- Lost-tap report: every unarmed in-flight entry on the tap completes (R8). -/
def State.lostTap (s : State) (e : EntryId) : State := s.failFlights fun x => !x.armed && x.e == e

/-- Blocked report: the same for every tap placed on the feeder (R68). -/
def State.feederBlockedOrders (s : State) (f : Feeder) : State :=
  s.failFlights fun x => !x.armed && (s.entry x.e).on f

/-! ### Confirmations (R19) -/

/-- The BOOKED purchases a confirmation opens: those of RUNNING events whose band the answered mask passes. R19 and R24 state no
order of their PPV CHARGE notices: the model goes by slot number (assumption 60). -/
def State.opensOf (s : State) (sub : Nat) (r : SubRec) (answer : PortState) : List (Fin 4) :=
  (List.finRange 4).filter fun k =>
    let p := r.slots[k]
    answer.on && p.used && p.state == .booked && s.active.eventState p.event == .running &&
      (s.order.index.any fun x => x.sub == sub && x.event == p.event && answer.mask.getLsbD x.band)

/-- The notices of a confirmation, in their order. -/
def confirmNotices (sub : Nat) (r : SubRec) (answer : PortState) (minute : Nat) (opens : List (Fin 4)) : List Task :=
  (if answer.on && r.wantOn && r.confirmed != .on then [Task.notice (.notice sub .startService minute)] else []) ++
    opens.map fun k => Task.notice (.notice sub (.ppvCharge r.slots[k].price) minute)

/-- The purchases opened by a confirmation in the record. -/
def SubRec.openSlots (r : SubRec) (opens : List (Fin 4)) : SubRec :=
  opens.foldl (fun r k =>
    if r.slots[k].used && r.slots[k].state == .booked then
      r.setSlot k { r.slots[k] with state := .opened, charged := true }
    else r) r

/-- The effect of a confirmation, its notices having been handed: the record, the index, and the armed order of the port
completed DONE in the same burst (R8, R19). -/
def State.applyConfirm (s : State) (c : ConfirmItem) : State :=
  let r := s.ownRec c.sub
  let edit (r : SubRec) : SubRec :=
    { r with confirmed := if c.answer.on then .on else .off, lastConfirm := c.minute }.openSlots c.opens
  let s1 := c.opens.foldl (fun s k => s.setIndex c.sub r.slots[k].event .booked .opened) s
  match s1.order.inflight.find? fun x => x.armed && x.onPort c.e c.p && x.sub == c.sub with
  | some x => s1.completeFlight x .done edit
  | none => s1.writeSub c.sub (edit r)

/-- A confirmation taken as a work item: the tasks it gives (R19). An unclaimed port gives none. -/
def State.confirmTasks (s : State) (e : EntryId) (p : Port) (answer : PortState) (minute : Nat) : List Task :=
  match (s.tapPort e p).claim with
  | none => []
  | some sub =>
    let r := s.ownRec sub
    let opens := s.opensOf sub r answer
    confirmNotices sub r answer minute opens ++
      [.applyConfirm { sub := sub, e := e, p := p, answer := answer, minute := minute, opens := opens }]

/-- An OK SET PORT to a port that nobody has claimed completes the armed orders of the port (R8). -/
def State.confirmUnclaimed (s : State) (e : EntryId) (p : Port) : State :=
  if (s.tapPort e p).claim.isSome then s
  else (s.order.inflight.filter fun x => x.armed && x.onPort e p).foldl (fun s x => s.completeFlight x .done id) s

/-! ### Events, and the arrivals of the Billing Unit (R20–R23) -/

/-- The wanted state of a subscriber's port is computed again from words 2–4 of its record (R44). -/
def State.recompute (s : State) (sub : Nat) : State :=
  s.computeWanted sub (s.ownRec sub).wantOn (s.ownRec sub).tiers

/-- The walk of an event start report (R20), in the order in which the entries came into the index, of which R2 and R20 state none
(assumption 60). -/
def State.startWalk (s : State) (id : Nat) : List Task :=
  (s.order.index.filter fun x => x.event == id).map fun x => .recompute x.sub

/-- The walk of an event end or drop report (R21, R22). R21 handles the entries one after another, R24 puts the notices of a
work item before its record burst: the model goes entry by entry, so that the burst of one buyer's freed slot may be asked
for before the PPV SETTLE of a later buyer enters the Notice Queue (assumption 48). R2 and R21 state no order of the entries: the
model goes in the order in which they came into the index, and so their notices do (assumption 60). -/
def State.endWalk (s : State) (id minute : Nat) (drop : Bool) : List Task :=
  (s.order.index.filter fun x => x.event == id).flatMap fun x =>
    (match x.state with
     | .booked => [Task.freeBooked x.sub id]
     | .opened => [Task.notice (.notice x.sub (.ppvSettle id drop) minute), .setSettling x.sub id]
     | .settling => []) ++ [.recompute x.sub]

/-- A BOOKED purchase is freed and its entry removed, in one burst (R21). -/
def State.freeBooked (s : State) (sub event : Nat) : State :=
  let r := s.ownRec sub
  match r.bookedSlotOf event with
  | some k => (s.dropIndex sub event).writeSub sub (r.setSlot k Purchase.free)
  | none => s.dropIndex sub event

/-- Overlap report (R23): the minutes are added to the slot and the answer goes with the burst, or at once without one. Of two
used slots with the event id (R25.3) the lowest-numbered is taken, where R23 speaks of one (assumption 47). -/
def State.takeOverlap (s : State) (sub event minutes : Nat) : State :=
  let r := s.ownRec sub
  match r.slotOf event with
  | some k =>
    let p := r.slots[k]
    s.ask .orderUnit (.sub sub (r.setSlot k { p with overlap := satAdd 65535 p.overlap minutes }).partWords true)
  | none => { s with bill := { s.bill with answer := true } }

/-- The slot that a settle answer frees: the OPEN slot of the event; the last one when the index still holds the event's
other slot OPEN, since R25.3 settles the second (assumption 47). -/
def State.settledSlot (s : State) (r : SubRec) (sub event : Nat) : Option (Fin 4) :=
  if s.order.index.any fun x => x.sub == sub && x.event == event && x.state == .opened then r.lastOpenSlotOf event
  else r.openSlotOf event

/-- Settle answer (R23): the slot is freed and the SETTLING entry removed, in one burst. Each answer settles one purchase. -/
def State.takeSettle (s : State) (sub event : Nat) : State :=
  if s.order.index.any fun x => x.settles sub event then
    let r := s.ownRec sub
    let s1 := { s with order := { s.order with index := s.order.index.eraseP fun x => x.settles sub event } }
    match s.settledSlot r sub event with
    | some k => s1.writeSub sub (r.setSlot k Purchase.free)
    | none => s1
  else s

/-! ### The subscriber pass (R25, R191) -/

/-- What the pass makes of the purchase slots of one record. -/
structure PassSlots where
  record  : SubRec
  changed : Bool
  index   : List IndexEntry
  settles : List Task
deriving DecidableEq, Repr

/-- One purchase slot of the pass (R25.3); `slots` are the record's as read. A second OPEN slot of an event enters the index
SETTLING beside the first one's entry, as R25.3 states, although R2 has at most one entry of a subscriber and event in
RUNNING, where the settle answer may still be to come: the model follows R25.3 (assumption 47). -/
def State.passSlot (s : State) (i : Nat) (slots : Vector Purchase 4) (a : PassSlots) (k : Fin 4) : PassSlots :=
  let p := slots[k]
  let second := (List.finRange 4).any fun j => decide (j < k) && slots[j].used && slots[j].event == p.event
  if !p.used then a
  else
    let freed := { a with record := a.record.setSlot k Purchase.free, changed := true }
    let enter (st : IndexState) (band : Nat) : List IndexEntry :=
      a.index ++ [{ sub := i, event := p.event, band := band, state := st }]
    let settle (drop : Bool) : List Task := a.settles ++ [.notice (.notice i (.ppvSettle p.event drop) s.runMinute)]
    if Config.purchaseIndexDepth ≤ s.order.index.length + a.index.length then freed
    else
      match s.active.slotOfEvent p.event with
      | some j =>
        let band := s.active.slots[j].band
        if second then
          if p.state = .booked then freed else { a with index := enter .settling band, settles := settle true }
        else if s.active.ev[j] = .ended then
          if p.state = .booked then freed else { a with index := enter .settling band, settles := settle false }
        else { a with index := enter (if p.state = .booked then .booked else .opened) band }
      | none => if p.state = .booked then freed else { a with index := enter .settling 0, settles := settle true }

/-- The claim of an enrolled record in the pass (R25.1): the entry and port to claim again, if they can be. -/
def State.passClaim (s : State) (r : SubRec) : Option (EntryId × Port) :=
  if r.claimHeld then
    match s.entryOfSerial r.claimSerial with
    | some e => if (s.tapPort e r.claimPort).claim.isSome then none else some (e, r.claimPort)
    | none => none
  else none

/-- Whether a used slot of the record reads a state that is neither BOOKED nor OPEN (R191). -/
def strangeRecord (ws : List Word) : Bool :=
  (List.range 4).any fun k => strangeSlot (wordAt ws (8 + 2 * k)) (wordAt ws (9 + 2 * k))

/-- What follows the notices of a pass step (R25): the record burst, the wanted state of an enrolled record, for which words
2–4 are read again (R44), and the end of the step. -/
def PassItem.tasks (x : PassItem) : List Task :=
  [.applyPass x] ++ (if x.record.enrolled then [.recompute x.i] else []) ++ [.passNext x]

/-- One step of the pass: the claim made, the used slots entered into the Purchase Index, and the tasks that follow (R25). A
used slot that reads no state is written back BOOKED in every record (R191). R25.3 and R24 order neither the slots of a record nor
their PPV SETTLEs: the model goes by slot number, 0 to 3, also where the index fills on the way (assumption 60). -/
def State.passStep (s : State) (i : Nat) : State × List Task :=
  let r := s.ownRec i
  let strange := strangeRecord (s.subWords i)
  if r.enrolled then
    let claim := s.passClaim r
    let s1 := match claim with
      | some (e, p) => s.makeClaim e p i
      | none => s
    let lost := claim.isNone
    let stop : List Task := if lost && r.wantOn then [.notice (.notice i .stopService s.runMinute)] else []
    let r1 := if lost then { (if r.claimHeld then r.unclaimed else r) with wantOn := false } else r
    let changed := strange || (lost && (r.claimHeld || r.wantOn))
    let a := (List.finRange 4).foldl (s1.passSlot i r.slots) { record := r1, changed := changed, index := [], settles := [] }
    ({ s1 with order := { s1.order with index := s1.order.index ++ a.index } },
     stop ++ a.settles ++ PassItem.tasks { i := i, record := a.record, changed := a.changed })
  else (s, PassItem.tasks { i := i, record := r, changed := strange })

/-- The record burst of a pass step, its notices having been handed (R25). Overlap minutes are those that stand by then, and a
slot that a settle answer has freed meanwhile stays free (R23). -/
def State.applyPass (s : State) (x : PassItem) : State :=
  let now := s.ownRec x.i
  let slots : Vector Purchase 4 := Vector.ofFn fun k =>
    if x.record.slots[k].used && now.slots[k].used then { x.record.slots[k] with overlap := now.slots[k].overlap }
    else Purchase.free
  if x.changed then s.writeSub x.i { x.record with slots := slots } else s

/-- The end of a pass step: a record that read pending is queued, and the next index follows (R25). -/
def State.passNext (s : State) (x : PassItem) : State :=
  let s1 := if x.record.pending && !s.knows x.i then s.enqueue x.i else s
  { s1 with run := { s1.run with phase := if x.i + 1 < s.map.ns then .pass (x.i + 1) else .lineup } }

end Sys2Proof.Machine
end

