-- ==== Sys2Proof/Machine/EngineOps.lean ====
section
/-! DEFINITION. The Feeder Engines and what the Tap Directory makes of their outcomes: calls, answers, attempts, the choice
of work, outcomes of READ and SET PORT, the roll call's due READ, and the steps of an enumeration (R50–R93). -/

namespace Sys2Proof.Machine

/-! ### Characters on the line (R49, R50). A level is `true` at mark and `false` at space. -/

/-- The ten levels of a character (R49): the start bit at space, eight data bits, least significant first, the stop bit at
mark. -/
def charLevels (c : Byte) : List Bool := false :: (List.range 8).map c.getLsbD ++ [true]

/-- The opening flag of a call (R50): space for 12 bit times, then mark for 2. -/
def openingFlag : List Bool := List.replicate 12 false ++ List.replicate 2 true

/-- The levels of a call, one for each bit time (R49, R50): the opening flag, then the characters back to back. -/
def callLevels (chars : List Byte) : List Bool := openingFlag ++ chars.flatMap charLevels

/-- A start bit is recognised at a change from mark to space that still reads space at the middle of that bit time; a shorter
excursion is ignored (R49). -/
def startBitRecognised (before change middle : Bool) : Bool := before && !change && !middle

/-- The data bits of a character, least significant first. -/
def dataBits : List Bool → Nat
  | [] => 0
  | b :: bs => bitOf b + 2 * dataBits bs

/-- A character and the level of its stop bit, from the levels sampled at the middles of its ten bit times (R49). A stop bit at
space is a framing error. -/
def receiveChar (levels : List Bool) : Byte × Bool :=
  (BitVec.ofNat 8 (dataBits ((levels.drop 1).take 8)), levels.getD 9 false)

/-! ### Calls and answers (R50–R54, 11.6) -/

/-- The payload length of a command's answer (R53, R54); FORGET has no answer. -/
def TapCmd.answerLen : TapCmd → Nat
  | .read => 9 | .setPort => 2 | .identify => 4 | .assign => 1 | .forget => 0

/-- The number of characters of a command's answer (R61). -/
def TapCmd.expected (c : TapCmd) : Nat := 2 + c.answerLen

/-- The characters of a call: address, command with payload length, payload, CRC (R50). -/
def callChars (addr : Nat) (cmd : TapCmd) (payload : List Byte) : List Byte :=
  let body := [addrChar addr, BitVec.ofNat 8 (cmd.code + 16 * payload.length)] ++ payload
  body ++ [crc8 body]

def setPortPayload (p : Port) (w : PortState) : List Byte :=
  [BitVec.ofNat 8 p.val, BitVec.ofNat 8 (bitOf w.on), w.mask]

def assignPayload (pos : Nat) (serial : Word) : List Byte := BitVec.ofNat 8 pos :: serialChars serial

/-- The status flags of an answer: tamper, low supply, gate open (R52). -/
def statusFlag (rx : List Byte) (i : Nat) : Bool := (charAt rx 0).getLsbD i

/-- The CRC of an answer is computed over the call's address character, the status character and the payload (R52). -/
def answerCrcGood (addr : Nat) (rx : List Byte) : Bool :=
  rx.getLast? == some (crc8 (addrChar addr :: rx.dropLast))

/-- The gate flag the answer must read (R54). -/
def gateGood (cmd : TapCmd) (rx : List Byte) : Bool :=
  match cmd with
  | .identify => !statusFlag rx 2
  | .assign => statusFlag rx 2
  | _ => true

/-- The port states of a READ answer payload. -/
def readPorts (payload : List Byte) : Vector PortState 4 :=
  Vector.ofFn fun p => { on := (charAt payload 4).getLsbD p.val, mask := charAt payload (5 + p.val) }

/-! ### Transactions (R57–R62) -/

/-- A transaction begins; its first attempt waits for mark when the line is at space (R58). -/
def Engine.begin (x : Engine) (t : Txn) (mark : Bool) : Engine :=
  { x with txn := some { t with phase := if mark then .calling else .waitMark }, mark := mark, watch := 0, monitor := 0 }

def newTxn (cmd : TapCmd) (addr : Nat) (e : EntryId) (p : Port) (sent : PortState) (probe : Bool) (payload : List Byte)
    (limit : Nat) : Txn :=
  { cmd := cmd, addr := addr, entry := e, port := p, sent := sent, probe := probe, chars := callChars addr cmd payload,
    attempt := 1, limit := limit, phase := .waitMark, ended := false, lastFail := none, latency := 0, rx := [] }

/-- The levels of the transaction's call, the same at every attempt (R50, R58). -/
def Txn.levels (t : Txn) : List Bool := callLevels t.chars

/-- The outcome report of a transaction (R62). -/
def Txn.outcome (t : Txn) (res : OutRes) : Outcome :=
  { cmd := t.cmd, addr := t.addr, entry := t.entry, port := t.port, sent := t.sent, probe := t.probe,
    attempts := t.attempt, res := res }

/-- An attempt fails: a gap and another attempt, or the end of the transaction (R62). In TALKING the record stays until the
gap after the last attempt has ended; in ENUMERATING the gap is kept by `quiet`. -/
def Engine.failAttempt (x : Engine) (t : Txn) (kind : FailKind) : Engine :=
  if t.attempt < t.limit then
    { x with txn := some { t with phase := .gap, lastFail := some kind, rx := [] }, watch := 0 }
  else
    let x1 := { x with outcome := some (t.outcome (.failed kind)), watch := 0 }
    if x.state = .enumerating then { x1 with txn := none, quiet := true }
    else { x1 with txn := some { t with phase := .gap, lastFail := some kind, rx := [], ended := true } }

/-- A transaction ends OK (R62, R63): TALKING returns to READY, but after a probe, whose outcome decides; the record of the probe
stays until then (R57). -/
def Engine.endOk (x : Engine) (t : Txn) (payload : List Byte) : Engine :=
  { x with
    txn := if x.state = .talking ∧ t.probe then some { t with ended := true } else none
    outcome := some (t.outcome (.ok t.latency (statusFlag t.rx 0) (statusFlag t.rx 1) (statusFlag t.rx 2) payload))
    state := if x.state = .talking ∧ !t.probe then .ready else x.state }

/-- Change the transaction of an engine that is in one of its phases; otherwise the step is not due. -/
def State.onPhase (s : State) (f : Feeder) (ph : Phase) (g : Engine → Txn → Engine) : State :=
  match (s.eng f).txn with
  | some t => if t.phase = ph ∧ !t.ended then s.setEng f (g (s.eng f) t) else s
  | none => s

/-! ### The choice of work (R69) -/

/-- What an engine in READY can choose. -/
inductive WorkChoice where
  | setPort (e : EntryId) (p : Port)
  | read (e : EntryId) (paced : Bool)
  | probe
deriving DecidableEq, Repr

/-- An in-flight entry is armed, or a start report that arms it waits in the Order Unit's queue. -/
def State.armedOrQueued (s : State) (x : InFlight) : Bool :=
  x.armed || s.order.reports.any fun r =>
    match r with
    | .start cmd e p before =>
      decide (x.seq < before) &&
        (if x.kind = .audit then cmd == .read && e == x.e else cmd == .setPort && e == x.e && p == x.p)
    | _ => false

/-- The oldest unarmed in-flight order of the feeder. -/
def State.inFlightWork (s : State) (f : Feeder) : Option WorkChoice :=
  (s.order.inflight.find? fun x => !s.armedOrQueued x && (s.entry x.e).on f).map fun x =>
    if x.kind = .audit then .read x.e false else .setPort x.e x.p

/-- The first dirty port of a PRESENT or SILENT tap of the feeder, by position and port. -/
def State.dirtyWork (s : State) (f : Feeder) : Option WorkChoice :=
  (s.row f).findSome? fun x =>
    if (s.entry x.2).state = .present ∨ (s.entry x.2).state = .silent then
      ((List.finRange 4).find? fun p => (s.tapPort x.2 p).dirty).map fun p => .setPort x.2 p
    else none

/-- Roll-call work: a verification READ, by position, or the due paced READ (R85). -/
def State.rollWork (s : State) (f : Feeder) : Option WorkChoice :=
  match (s.row f).find? fun x => (s.entry x.2).verify with
  | some x => some (.read x.2 false)
  | none => (s.roll f).due.map fun x => .read x.2 true

/-- The next piece of work of a READY engine (R69). -/
def State.workChoice (s : State) (f : Feeder) : Option WorkChoice :=
  ((s.inFlightWork f).or (s.dirtyWork f)).or
    ((s.rollWork f).or (if (s.roll f).probeOwed then some .probe else none))

/-- The next entry of the cycle becomes due and the timer stops, or the cycle ends (R83). `restart` starts the timer again
at a cycle's end. Without it, at a cycle that an expiry ends (an empty or exhausted list), the timer runs on with the period
it has and takes the new cycle's period at its next expiry: R83 applies the period from the timer's next start, R164 has the
timer stop only for its owner, and R84 wants one probe in each Tr (assumption 51). -/
def State.advanceRoll (s : State) (f : Feeder) (restart : Bool) : State :=
  let r := s.roll f
  match s.nextOfList f (r.list.drop r.cursor) r.cursor with
  | some (x, n) => (s.setRoll f { r with due := some x, cursor := n }).setPacing f Timer.stopped
  | none =>
    let s1 := State.endCycle (s.setRoll f { r with due := none }) f
    if restart then s1.setPacing f (Timer.start (s1.roll f).period)
    else s1.setPacing f ((s1.time.pacing[f]).changePeriod (s1.roll f).period)

/-- The due READ starts: a cycle whose last entry it is ends first, then the timer is started (R83). -/
def State.startPaced (s : State) (f : Feeder) : State :=
  let s1 := s.setRoll f { s.roll f with due := none }
  let s2 := if (s1.roll f).list.length ≤ (s1.roll f).cursor then s1.endCycle f else s1
  s2.setPacing f (Timer.start (s2.roll f).period)

/-- A due READ whose entry has been placed elsewhere is passed over (R83; assumption 33). -/
def State.passDue (s : State) (f : Feeder) (e : EntryId) : State :=
  match (s.roll f).due with
  | some x => if x.2 = e then s.advanceRoll f true else s
  | none => s

/-! ### Outcomes of READ and SET PORT (R64, R74–R79) -/

/-- An outcome is current (R74). -/
def State.isCurrent (s : State) (f : Feeder) (o : Outcome) : Bool :=
  (s.entry o.entry).place == some { feeder := f, pos := o.addr }

/-- Outcomes of READ and SET PORT to a tap, as against probes and enumeration calls. -/
def Outcome.toTap (o : Outcome) : Bool := o.cmd == .read || o.cmd == .setPort

def tapAlarm (k : AlarmKind) (sv : Severity) (f : Feeder) (pos : Nat) (v : Word) : Task := .alarm k sv (.place f pos) v none

/-- The alarms of a changed status flag (R75). -/
def flagAlarm (k : AlarmKind) (f : Feeder) (pos : Nat) (old new : Bool) : List Task :=
  if new && !old then [tapAlarm k .major f pos 1] else if old && !new then [tapAlarm k .info f pos 0] else []

/-- Two latencies differ by more than 8 bit times, the stored one recorded (R64). -/
def latencyShift (old new : Nat) : Bool := old != 0 && (decide (old + 8 < new) || decide (new + 8 < old))

/-- What an OK outcome does to an entry (R75). -/
def Entry.answered (x : Entry) (now latency : Nat) (tamper low : Bool) : Entry :=
  { x with state := .present, misses := 0, silentSince := 0, lastAnswer := now, latency := latency, tamper := tamper,
           low := low }

/-- The alarms of an OK outcome, in the order of R75, by the entry before it. A silent-since minute above the return minute, as
one loaded from the mirror can be, leaves the value of TAP BACK free (assumption 46). -/
def Entry.answerAlarms (x : Entry) (f : Feeder) (pos now latency : Nat) (tamper low : Bool) : List Task :=
  (if latencyShift x.latency latency then [tapAlarm .tapLatencyShift .minor f pos (word latency)] else []) ++
    flagAlarm .tapTamper f pos x.tamper tamper ++ flagAlarm .tapLowSupply f pos x.low low ++
    (if x.state = .lost then [tapAlarm .tapBack .info f pos (spanWord now x.silentSince)] else [])

/-- The return report of an OK outcome of a LOST entry (R75). -/
def Entry.returnReport (x : Entry) (e : EntryId) (f : Feeder) (pos now : Nat) : List Task :=
  if x.state = .lost then [.corrReport (.back e f pos now)] else []

/-- A miss is added (R76). -/
def Entry.miss (x : Entry) (now thr : Nat) : Entry :=
  let m := satAdd 15 x.misses 1
  { x with
    misses := m
    silentSince := if x.misses = 0 then now else x.silentSince
    state := if x.state = .lost then .lost else if m < thr then .silent else .lost }

/-- The reports and alarms of a miss, in the order of R77: lost-tap report, lost report, then TAP LOST. -/
def Entry.missTasks (old new : Entry) (e : EntryId) (f : Feeder) (pos : Nat) : List Task × List Task :=
  if old.state ≠ .lost ∧ new.state = .lost then
    ([.orderReport (.lostTap e), .corrReport (.lost e f pos new.silentSince)],
     [tapAlarm .tapLost .major f pos (word new.silentSince)])
  else ([], [])

/-- The mirror burst of an entry whose mirrored fields changed (R81). -/
def mirrorTask (old new : Entry) (e : EntryId) : List Task :=
  if old.mirror = new.mirror then [] else [.burst .directory (.mirror e)]

/-- The ports of a set of ports as flags of a value. -/
def portFlags (g : Fin 4 → Bool) : Word :=
  word ((List.finRange 4).foldl (fun n p => n + 2 ^ p.val * bitOf (g p)) 0)

/-- TAP STATE MISMATCH for the ports that differed, if any did (R78, R79). -/
def mismatchAlarm (f : Feeder) (pos : Nat) (g : Fin 4 → Bool) : List Task :=
  if (List.finRange 4).any g then [tapAlarm .tapStateMismatch .minor f pos (portFlags g)] else []

/-- A current FAILED outcome of any kind but LINE-BLOCKED (R76, R77); a READ clears the verify-needed flag (R85). `extra`
are alarms that follow TAP LOST. The ports stand as they are: one that was dirty by its mark alone, wanted and applied being
equal, is clean after the failed SET PORT, since the start of the transaction cleared the mark (R58, R73), although R76 says
that a port stays dirty (assumption 52). -/
def State.failedOutcome (s : State) (f : Feeder) (o : Outcome) (extra : List Task) : State × List Task :=
  let x := s.entry o.entry
  let y := { x.miss s.now s.cfg.missThr with verify := x.verify && o.cmd != .read }
  let ts := x.missTasks y o.entry f o.addr
  (s.setEntry o.entry y,
   [.orderReport (.outcome o.cmd o.entry o.port .failed)] ++ ts.1 ++ ts.2 ++ extra ++ mirrorTask x y o.entry)

/-- A current OK READ whose serial matches (R75, R78). -/
def State.readMatch (s : State) (f : Feeder) (o : Outcome) (latency : Nat) (tamper low : Bool) (payload : List Byte) :
    State × List Task :=
  let x := s.entry o.entry
  let a := readPorts payload
  let y := { x.answered s.now latency tamper low with
    ports := Vector.ofFn fun p => { x.ports[p] with applied := some a[p] }
    verify := false }
  (s.setEntry o.entry y,
   [.orderReport (.outcome .read o.entry o.port (.readOk a))] ++ x.returnReport o.entry f o.addr s.now ++
     x.answerAlarms f o.addr s.now latency tamper low ++
     mismatchAlarm f o.addr (fun p => x.ports[p].applied.isSome && x.ports[p].applied != some a[p]) ++
     mirrorTask x y o.entry)

/-- A current OK SET PORT (R75, R79). R77 and R79 do not order TAP STATE MISMATCH against R75's alarms: R75's come first
(assumption 67). -/
def State.setPortOk (s : State) (f : Feeder) (o : Outcome) (latency : Nat) (tamper low : Bool) (payload : List Byte) :
    State × List Task :=
  let x := s.entry o.entry
  let on (p : Fin 4) : Bool := (charAt payload 0).getLsbD p.val
  let answer : PortState := { on := on o.port, mask := charAt payload 1 }
  let applied (p : Fin 4) : PortState :=
    if p = o.port then answer
    else
      match x.ports[p].applied with
      | some a => { a with on := on p }
      | none => { on := on p, mask := 0 }
  let differs (p : Fin 4) : Bool :=
    if p = o.port then answer != o.sent
    else
      match x.ports[p].applied with
      | some a => a.on != on p
      | none => false
  let y := { x.answered s.now latency tamper low with
    ports := Vector.ofFn fun p => { x.ports[p] with applied := some (applied p) } }
  (s.setEntry o.entry y,
   [.orderReport (.outcome .setPort o.entry o.port (.setOk answer s.now))] ++ x.returnReport o.entry f o.addr s.now ++
     x.answerAlarms f o.addr s.now latency tamper low ++ mismatchAlarm f o.addr differs ++ mirrorTask x y o.entry)

/-! ### Enumeration (R87–R93) -/

def State.openOutageOn (s : State) (f : Feeder) : Bool := s.corr.outages.any fun o => o.feeder == f

/-- The count of taps placed as bits 0–7 of ENUMERATION DONE's value hold it (11.5). An EXTEND can place more than 255, one tap
coming back again and again, and no result is stated then: a free value (assumption 56). -/
def countField (count : Nat) : Nat := if count < 256 then count else (Config.countBeyond count).toNat

def enumDone (f : Feeder) (count : Nat) (ending : Ending) : Task :=
  .alarm .enumerationDone (if ending = .complete then .info else .minor) (.feeder f)
    (word (countField count + 2 ^ 8 * ending.code)) none

/-- The enumeration begins: ENUMERATING, and the start report to the correlator (R87). A probe's record goes with TALKING (R57). -/
def State.beginEnum (s : State) (f : Feeder) (mode : EnumMode) : State × List Task :=
  (s.setEng f { s.eng f with state := .enumerating, request := none, txn := none,
                             enum := some (Enum.start mode) },
   [.corrReport (.enumStart f)])

/-- The entries pending for the FRESH enumeration of a feeder, by entry number; R92 states no order (assumption 57). -/
def State.pendingFor (s : State) (f : Feeder) : List EntryId :=
  (List.finRange 576).filter fun e =>
    match (s.entry e).pending with
    | some pl => pl.feeder == f
    | none => false

/-- A pending entry that the enumeration did not find becomes LOST (R92.1). -/
def Entry.notFound (x : Entry) (now : Nat) : Entry :=
  { x with state := .lost, pending := none, silentSince := if x.state ≠ .lost ∧ x.silentSince = 0 then now else x.silentSince }

/-- The alarm and mirror burst of such an entry. -/
def State.notFoundTasks (s : State) (f : Feeder) (e : EntryId) : List Task :=
  let x := s.entry e
  (if x.state = .lost then []
   else [tapAlarm .tapLost .major f ((x.pending.map (·.pos)).getD 0) (word (x.notFound s.now).silentSince)]) ++
    [.burst .directory (.mirror e)]

/-- The verification flags at the end of an enumeration (R85, R92.2). -/
def State.enumVerify (s : State) (f : Feeder) (en : Enum) (ending : Ending) : State :=
  let all := en.mode == .fresh && ending != .outageOpen
  let lost := en.mode == .extend && decide (0 < en.count)
  let mark (x : Entry) : Entry := if x.on f && (all || (lost && x.state == .lost)) then { x with verify := true } else x
  { s with dir := { s.dir with pool := s.dir.pool.map mark } }

/-- The roll call begins a new cycle after a FRESH (R92.3); a timer stopped for a due READ is started. -/
def State.enumNewCycle (s : State) (f : Feeder) : State :=
  let waiting := (s.roll f).due.isSome
  let s1 := State.newCycle (s.setRoll f { s.roll f with due := none }) f (s.roll f).count
  if waiting then s1.setPacing f (Timer.start (s1.roll f).period) else s1

/-- The end of an enumeration (R92); it is over at once, and the engine leaves ENUMERATING with the last of the tasks. -/
def State.enumEnd (s : State) (f : Feeder) (en : Enum) (ending : Ending) : State × List Task :=
  let gone := if en.mode = .fresh then s.pendingFor f else []
  let lostTasks := gone.flatMap (s.notFoundTasks f)
  let s1 := gone.foldl (fun s e => s.setEntry e ((s.entry e).notFound s.now)) s
  let s2 := s1.enumVerify f en ending
  let s3 := if en.mode = .fresh ∧ ending ≠ .forgetFailed ∧ ending ≠ .outageOpen then s2.enumNewCycle f else s2
  (s3.setEng f { s3.eng f with enum := none },
   lostTasks ++ [enumDone f en.count ending, .corrReport (.enumEnd f), .enumOver f])

/-- Every entry placed on the feeder is vacated and pending (R88); the reports are handed by position from 1 upward, of which R88
says nothing (assumption 57). -/
def State.vacateAll (s : State) (f : Feeder) : State × List Task :=
  let r := s.row f
  (r.foldl (fun s x => s.setEntry x.2
      { s.entry x.2 with place := none, pending := some { feeder := f, pos := x.1 } }) s,
   r.flatMap fun x =>
     [.orderReport (.lostTap x.2), .corrReport (.vacate x.2 f x.1 s.now ((s.entry x.2).state == .lost)),
      .burst .directory (.mirror x.2)])

/-- Free-on-demand may take the entry (R89): unplaced, LOST, without a claim and not pending. -/
def Entry.reusable (x : Entry) : Bool :=
  x.state == .lost && x.place.isNone && x.pending.isNone && x.ports.all fun p => p.claim.isNone

/-- The entry free-on-demand takes (R89): that with the smallest last answer minute, the lowest number first. -/
def State.freeOnDemand (s : State) : Option EntryId :=
  (List.finRange 576).foldl (fun a e =>
    let x := s.entry e
    if x.reusable then
      match a with
      | none => some e
      | some b => if x.lastAnswer < (s.entry b).lastAnswer then some e else a
    else a) none

/-- The choice of an entry for a serial (R89), and how it was chosen. -/
def State.chooseEntry (s : State) (serial : Word) : Option (EntryId × Pick) :=
  match s.entryOfSerial serial with
  | some e => some (e, .held)
  | none =>
    match s.freeEntry with
    | some e => some (e, .free)
    | none => s.freeOnDemand.map fun e => (e, .reused)

/-- A choice made for a serial can still be kept: no other enumeration has taken the entry, or placed the serial (R89). An entry
chosen by free-on-demand of which a port has been claimed since is not kept either (assumption 58). -/
def State.choiceStands (s : State) (serial : Word) (c : EntryId × Pick) : Bool :=
  let x := s.entry c.1
  match c.2 with
  | .held => x.state != .free && x.serial == serial
  | .free => x.state == .free && (s.entryOfSerial serial).isNone
  | .reused => x.reusable && (s.entryOfSerial serial).isNone

/-- The entry at the outcome of an ASSIGN: the choice made at the IDENTIFY, or one made anew where it no longer stands
(R89). -/
def State.finalChoice (s : State) (en : Enum) : Option (EntryId × Pick) :=
  match en.choice with
  | some c => if s.choiceStands en.serial c then some c else s.chooseEntry en.serial
  | none => s.chooseEntry en.serial

/-- The position given to a serial (R90). -/
def State.choosePos (s : State) (f : Feeder) (en : Enum) (serial : Word) : Nat :=
  let above := Row.lastPos (s.row f) + 1
  match en.mode with
  | .fresh => en.next
  | .extend =>
    match s.entryOfSerial serial with
    | some e =>
      match (s.entry e).place with
      | some pl => if pl.feeder = f then pl.pos else above
      | none => above
    | none => above

def notAdmitted (f : Feeder) (serial : Word) : Task := .alarm .tapNotAdmitted .critical (.feeder f) serial none

/-- A tap has answered with its serial: an entry and a position are chosen and ASSIGN is sent, or the enumeration ends
(R89, R90). The answer to an IDENTIFY of before a halt has the next IDENTIFY sent in place of the ASSIGN (R94). -/
def State.identified (s : State) (f : Feeder) (en : Enum) (serial : Word) : State × List Task :=
  match s.chooseEntry serial with
  | none =>
    let r := s.enumEnd f en .notAdmitted
    (r.1, notAdmitted f serial :: r.2)
  | some c =>
    let pos := s.choosePos f en serial
    if 62 < pos then
      let r := s.enumEnd f en .feederFull
      (r.1, .alarm .feederFull .critical (.feeder f) serial none :: r.2)
    else
      (s.setEng f { s.eng f with enum := some { en with serial := serial, pos := pos, choice := some c } },
       [.beginCall f (if en.again then .identify else .assign)])

/-- What the placement of an entry at the feeder and position does to it (R91.2–R91.5). -/
def Entry.placed (x : Entry) (serial : Word) (f : Feeder) (pos now latency : Nat) (tamper low : Bool) (mode : EnumMode) :
    Entry :=
  { x.answered now latency tamper low with
    serial := serial, place := some { feeder := f, pos := pos }, pending := none,
    ports := if mode = .extend then x.ports.map fun p => { p with applied := some PortState.off, reapply := true }
             else x.ports }

/-- The reports and log entries of a tap that comes from another place (R91.1), by the entry before the ASSIGN. An entry
pending for another feeder is vacated there again, on an EXTEND as on a FRESH, though R91.1 names the FRESH alone
(assumption 30). -/
def Entry.movedTasks (x : Entry) (e : EntryId) (f : Feeder) (pos now : Nat) : List Task :=
  let vacate (pl : Place) : List Task :=
    [.orderReport (.lostTap e), .corrReport (.vacate e pl.feeder pl.pos now (x.state == .lost))]
  let moved (old : Option Place) : List Task := [tapAlarm .tapMoved .minor f pos (placeValue old)]
  match x.place, x.pending with
  | some pl, _ => if pl.feeder = f then [] else vacate pl ++ moved (some pl)
  | none, some pl => if pl.feeder = f then [] else vacate pl ++ moved none
  | none, none => moved none

/-- The return of a LOST entry by ASSIGN (R91.4): TAP BACK, its value free where the silent-since minute lies above the return
minute (assumption 46), and the return report when it has its old place again. -/
def Entry.assignBack (x : Entry) (e : EntryId) (f : Feeder) (pos now : Nat) : List Task :=
  if x.state = .lost then
    tapAlarm .tapBack .info f pos (spanWord now x.silentSince) ::
      (if x.place.or x.pending = some { feeder := f, pos := pos } then [.corrReport (.back e f pos now)] else [])
  else []

/-- An OK ASSIGN with the right echo (R91): the chosen entry is placed, and the loop goes on. -/
def State.assigned (s : State) (f : Feeder) (en : Enum) (latency : Nat) (tamper low : Bool) : State × List Task :=
  match s.finalChoice en with
  | none =>
    let r := s.enumEnd f en .notAdmitted
    (r.1, notAdmitted f en.serial :: r.2)
  | some (e, pick) =>
    let new := pick != .held
    let x := if new then Entry.free else s.entry e
    let y := x.placed en.serial f en.pos s.now latency tamper low en.mode
    let s1 := s.setEntry e y
    let s2 := match x.place with
      | some pl => if pl.feeder = f then s1 else s1.passDue pl.feeder e
      | none => s1
    let s3 := s2.setEng f { s2.eng f with enum := some { en with next := en.next + 1, count := en.count + 1, choice := none } }
    (s3,
     (if new then [tapAlarm .tapNew .info f en.pos en.serial] else x.movedTasks e f en.pos s.now) ++
       flagAlarm .tapTamper f en.pos x.tamper tamper ++ flagAlarm .tapLowSupply f en.pos x.low low ++
       (if new then [] else x.assignBack e f en.pos s.now) ++
       [.burst .directory (.mirror e), .beginCall f .identify])

/-- The engine of a feeder sends an enumeration call (R58), the line at the level last sampled; none is sent while the part is
not RUNNING (R70, R94). -/
def State.beginCall (s : State) (f : Feeder) (cmd : TapCmd) : State :=
  let x := s.eng f
  match x.enum with
  | none => s
  | some en =>
    if s.run.part = .running ∧ x.state = .enumerating then
      let call (cmd : TapCmd) (addr : Nat) (payload : List Byte) : Txn :=
        newTxn cmd addr 0 0 PortState.off false payload s.cfg.attempts
      let en1 := { en with due := none, again := false }
      match cmd with
      | .forget => s.setEng f ({ x with enum := some { en1 with forgot := true } }.begin (call .forget 63 []) x.mark)
      | .assign => s.setEng f ({ x with enum := some en1 }.begin (call .assign 0 (assignPayload en.pos en.serial)) x.mark)
      | _ => s.setEng f ({ x with enum := some en1 }.begin (call .identify 0 []) x.mark)
    else s

/-- A call whose turn comes after hand-offs that had to wait is due: it begins with the next TRANSACTION_START, which samples
the line (R58). Outside RUNNING it lapses, and the loop goes on with the next IDENTIFY at resume (R94). -/
def State.callDue (s : State) (f : Feeder) (cmd : TapCmd) : State :=
  let x := s.eng f
  match x.enum with
  | some en => if s.run.part = .running then s.setEng f { x with enum := some { en with due := some cmd, again := false } } else s
  | none => s

/-- A call that has not begun in the step that gave it is begun later. -/
def Task.later : Task → Task
  | .beginCall f cmd => .dueCall f cmd
  | t => t

/-- The engine leaves ENUMERATING for READY; one that is BLOCKED stays so (R92.5). -/
def State.enumOver (s : State) (f : Feeder) : State :=
  let x := s.eng f
  s.setEng f { x with enum := none, state := if x.state = .enumerating then .ready else x.state }

/-! ### What an outcome does (R63, R64, R74–R79, R88–R93) -/

/-- The engine returns to READY from a probe that failed at once, or keeps its gap (R62, R63). -/
def Engine.probeOver (x : Engine) : Engine :=
  { x with state := if x.txn.isNone ∧ x.state = .talking then .ready else x.state }

/-- An outcome of a READ or SET PORT (R74–R79). A stale one, or one that is LINE-BLOCKED, changes no entry and is handed on as
FAILED (R74); an OK READ with another serial is FAILED with BAD-ANSWER (R78). -/
def State.tapOutcome (s : State) (f : Feeder) (o : Outcome) : State × List Task :=
  if s.isCurrent f o then
    match o.res with
    | .failed .lineBlocked => (s, [.orderReport (.outcome o.cmd o.entry o.port .failed)])
    | .failed _ => s.failedOutcome f o []
    | .ok latency tamper low _ payload =>
      if o.cmd = .read then
        let serial := serialOfChars payload
        if serial = (s.entry o.entry).serial then s.readMatch f o latency tamper low payload
        else s.failedOutcome f o [tapAlarm .tapStateMismatch .minor f o.addr serial]
      else s.setPortOk f o latency tamper low payload
  else (s, [.orderReport (.outcome o.cmd o.entry o.port .failed)])

/-- The outcome of an IDENTIFY probe (R63, R84, R93): an OK serial starts an EXTEND step, a held request being kept; anything
else returns the engine to READY. The latency of the probe's answer is not stored: R64 speaks of the answers of an enumeration's
IDENTIFY (assumption 32). In HALTING too the step starts at once (R63), so that the engine stays ENUMERATING, paused,
where R70 has an engine that was TALKING return to READY (assumption 34). -/
def State.probeOutcome (s : State) (f : Feeder) (o : Outcome) : State × List Task :=
  match o.res with
  | .ok _ _ _ _ payload =>
    let b := s.beginEnum f .extend
    let s1 := b.1.setEng f { b.1.eng f with request := (s.eng f).request }
    let r := s1.identified f (Enum.start .extend) (serialOfChars payload)
    (r.1, b.2 ++ r.2)
  | .failed _ => (s.setEng f (s.eng f).probeOver, [])

/-- The latency of an IDENTIFY answer is stored in the entry that holds the serial (R64). -/
def State.storeLatency (s : State) (serial : Word) (latency : Nat) : State × List Task :=
  match s.entryOfSerial serial with
  | some e =>
    let y := { s.entry e with latency := latency }
    (s.setEntry e y, mirrorTask (s.entry e) y e)
  | none => (s, [])

/-- The outcome of a FORGET (R88). -/
def State.forgetOutcome (s : State) (f : Feeder) (en : Enum) (o : Outcome) : State × List Task :=
  match o.res with
  | .ok _ _ _ _ _ =>
    let r := s.vacateAll f
    (r.1, r.2 ++ [.beginCall f .identify])
  | .failed _ => s.enumEnd f en .forgetFailed

/-- The outcome of an enumeration's IDENTIFY (R89, R90). -/
def State.identifyOutcome (s : State) (f : Feeder) (en : Enum) (o : Outcome) : State × List Task :=
  match o.res with
  | .ok latency _ _ _ payload =>
    let a := s.storeLatency (serialOfChars payload) latency
    let r := a.1.identified f en (serialOfChars payload)
    (r.1, a.2 ++ r.2)
  | .failed .noAnswer => s.enumEnd f en .complete
  | .failed _ => s.enumEnd f en .identifyFailed

/-- The outcome of an ASSIGN (R90, R91): a wrong echo is ASSIGN-FAILED. -/
def State.assignOutcome (s : State) (f : Feeder) (en : Enum) (o : Outcome) : State × List Task :=
  match o.res with
  | .ok latency tamper low _ payload =>
    if (charAt payload 0).toNat = en.pos then s.assigned f en latency tamper low else s.enumEnd f en .assignFailed
  | .failed _ => s.enumEnd f en .assignFailed

/-- What an outcome brings about: the changed state, and its hand-offs in their order. -/
def State.outcomeEffect (s : State) (f : Feeder) (o : Outcome) : State × List Task :=
  if o.probe then s.probeOutcome f o
  else if o.toTap then s.tapOutcome f o
  else
    match (s.eng f).enum, o.cmd with
    | some en, .forget => s.forgetOutcome f en o
    | some en, .assign => s.assignOutcome f en o
    | some en, _ => s.identifyOutcome f en o
    | none, _ => (s, [])

/-! ### BLOCKED (R67) -/

/-- A transaction in progress with a tap ends LINE-BLOCKED: the Order Unit is handed it as it stands (R67, R74). -/
def Engine.blockedOutcome (x : Engine) : List Task :=
  match x.txn with
  | some t => if !t.ended && !t.probe && (t.cmd == .read || t.cmd == .setPort) then
      [.orderReport (.outcome t.cmd t.entry t.port .failed)] else []
  | none => []

/-- The engine as it enters BLOCKED: no transaction, enumeration or request. -/
def Engine.blocked (x : Engine) (now : Nat) (cut : Bool) : Engine :=
  { x with
    state := .blocked, txn := none, enum := none, request := none, quiet := false, checking := false, cut := cut,
    blockedSince := now, monitor := 0 }

/-- An outcome handed before the line was found faulty and not yet taken is applied first, so that it counts as it stood then
and adds no miss while the feeder is BLOCKED (R67, R74; assumption 27). -/
def State.takeHanded (s : State) (f : Feeder) : State × List Task :=
  match (s.eng f).outcome with
  | some o => (s.setEng f { s.eng f with outcome := none }).outcomeEffect f o
  | none => (s, [])

/-- The directory's part of a feeder's blocking: a running enumeration ends BLOCKED, a held request is dropped (R67, R87,
R92). `x` is the engine before. The ENUMERATION DONE of the running one is logged before that of the request, which R87 and R92 do not
order (assumption 57). -/
def State.blockEnum (s : State) (f : Feeder) (x : Engine) : State × List Task :=
  let dropped : List Task := if x.request.isSome then [enumDone f 0 .blocked] else []
  match x.enum with
  | some en =>
    let r := s.enumEnd f en .blocked
    (r.1, r.2 ++ dropped)
  | none => (s, dropped)

/-- The clear report: every entry placed on the feeder is to be verified (R67, R85). -/
def State.verifyFeeder (s : State) (f : Feeder) : State :=
  { s with dir := { s.dir with pool := s.dir.pool.map fun x => if x.on f then { x with verify := true } else x } }

end Sys2Proof.Machine
end

