-- ==== Sys2Proof/Machine/PathOps.lean ====
section
/-! DEFINITION. The Memory Path: the class of a word, the decision on a computer write, arrivals, the words of a burst, and
the grant of the memory port (R167–R177). -/

namespace Sys2Proof.Machine

/-! ### Word classes (R169) -/

/-- The class of a word, with the trigger of a class T word and the bank of a word of the Line-up window. -/
inductive WordClass where
  | live
  | part (bank : Option Bank)
  | trigger (t : Trigger)
  | other (bank : Option Bank)
deriving DecidableEq, Repr

/-- The word at offset `off` of a window of `n` words from `base`, if the address lies in it. -/
def inWindow (a base n : Nat) : Option Nat := if base ≤ a ∧ a < base + n then some (a - base) else none

/-- The eight command words in address order (11.2). -/
def commandTrigger : Nat → Option Trigger
  | 0 => some .control | 1 => some .heartbeat | 2 => some .timeSet | 3 => some .commit | 4 => some .closeOut
  | 5 => some .logConsumer | 6 => some .enumerate | 7 => some .scan | _ => none

/-- The anchor block's classes. -/
def anchorClass (a : Nat) : WordClass :=
  if Config.liveBase ≤ a then .live
  else if Config.activeBankAddr ≤ a then .part none
  else
    match (if Config.commandBase ≤ a then commandTrigger (a - Config.commandBase) else none) with
    | some t => .trigger t
    | none => .other none

/-- The part-owned words of a bank: header words 2 and 3, and words 5–7 of each slot (R31, 11.4). -/
def bankPartOwned (off : Nat) : Bool := off == 2 || off == 3 || (decide (32 ≤ off) && decide (5 ≤ off % 8))

def lineClass (off : Nat) : WordClass :=
  let b : Bank := if off < 608 then 0 else 1
  if bankPartOwned (off % 608) then .part (some b) else .other (some b)

def subClass (off : Nat) : WordClass :=
  if off % 16 = 3 then .trigger (.order (off / 16)) else if 4 ≤ off % 16 then .part none else .other none

/-- The class of a word (R169). While no window map is held only the anchor block is known. -/
def State.classOf (s : State) (a : Nat) : WordClass :=
  if Config.anchorBase ≤ a then anchorClass a
  else
    match s.path.map with
    | none => .other none
    | some m =>
      match inWindow a m.sub (16 * m.ns), inWindow a m.line 1216 with
      | some off, _ => subClass off
      | none, some off => lineClass off
      | none, none =>
        if (inWindow a m.bill (16 * m.ns)).isSome || (inWindow a m.mirror 4608).isSome ||
            (inWindow a m.log (4 * m.s)).isSome || (inWindow a m.tele 176).isSome then .part none
        else .other none

def WordClass.bank : WordClass → Option Bank
  | .part b => b
  | .other b => b
  | _ => none

/-- Whether the guard, while it is on, covers a word (R170): a class P word, or a word of a protected bank. -/
def State.covers (s : State) (c : WordClass) : Bool :=
  (match c with
   | .part _ => true
   | _ => false) ||
    (match c.bank with
     | some b => s.path.protActive == some b || s.path.protSealed == some b
     | none => false)

/-- The guard is on in every part state except IDLE (R170). -/
def State.guardOn (s : State) : Bool := s.run.part != .idle

/-! ### Suppressed and ignored writes (R172–R174) -/

/-- A suppressed write is counted and, while the report is armed, submitted (R173). -/
def State.suppress (s : State) (a : Nat) : State :=
  let p := s.path
  let sub : AlarmEntry := { kind := .writeSuppressed, sev := .minor, subject := .none, minute := s.now, value := word a }
  let hand := p.armed && p.pendingSub.isNone && decide (s.log.intake.length < Config.intakeDepth)
  { s with
    path := { p with suppressedCount := satAdd 65535 p.suppressedCount 1, suppressedAddr := a, suppressed := true,
                     armed := false,
                     pendingSub := if p.armed && !hand && p.pendingSub.isNone then some sub else p.pendingSub }
    log := if hand then { s.log with intake := s.log.intake ++ [sub] } else s.log }

/-- A partial write to a trigger word is recorded (R172). -/
def State.recordIgnored (s : State) (a : Nat) : State := { s with path := { s.path with ignoredAddr := a, ignored := true } }

/-- A bank edit report sets the edited mark of a VALIDATING bank (R33, R174). -/
def State.bankEdit (s : State) (b : Bank) : State :=
  match s.lineUp.validation with
  | some v => if v.bank = b then { s with lineUp := { s.lineUp with validation := some { v with edited := true } } } else s
  | none => s

/-- The computer presents a passed cycle (R167). -/
def State.present (s : State) (c : Cycle) : State := { s with path := { s.path with cycle := some c } }

/-- The computer's wait line (R167): asserted from the presentation of a passed cycle until the port has carried it. -/
def State.waitLine (s : State) : Bool :=
  s.path.cycle.isSome ||
    (match s.path.port with
     | .cycle _ => true
     | _ => false)

/-- Whether the computer's next cycle can be taken up: none is in progress and no arrival waits (assumption 8). -/
def State.cycleReady (s : State) : Bool :=
  !s.waitLine && s.path.arrivals.isEmpty

/-- An order arrival is handed in STARTING once the map is taken, RUNNING and HALTING (R171). -/
def State.ordersHanded (s : State) : Bool :=
  s.path.map.isSome && (s.run.part == .starting || s.run.part == .running || s.run.part == .halting)

/-- Whether a trigger raises an arrival now (R171); none is raised while the reset line is held. -/
def State.raises (s : State) (t : Trigger) : Bool :=
  !s.run.held &&
    (match t with
     | .order _ => s.ordersHanded
     | _ => true)

/-- A passed cycle is carried by the port (R167, R171, R177). -/
def State.carry (s : State) (c : Cycle) : State :=
  let p := { s.path with port := .free, partNext := s.partWaits }
  if c.write then
    { s with
      mem := memWriteBytes s.mem c.addr c.be c.data
      path := { p with arrivals := p.arrivals ++
        (match c.trigger with
         | some t => if s.raises t then [(t, c.data)] else []
         | none => []) } }
  else { s with path := { p with dataOut := memWord s.mem c.addr } }

/-- The owner takes an arrival: the one that waits first, or, when none waits and the port is free, the arrival of a full-word
write of `w` carried in this step (assumption 8). -/
def State.arrive (s : State) (t : Trigger) (w : Word) (owner : State → State) : State :=
  if s.run.held then s
  else
    match s.path.arrivals with
    | x :: r => if x = (t, w) then owner { s with path := { s.path with arrivals := r } } else s
    | [] =>
      if s.path.cycle.isNone && s.path.port == .free && !s.path.partNext then
        let s1 := { s with mem := memWrite s.mem (t.addr s.path.map) w, path := { s.path with partNext := s.partWaits } }
        if s.raises t then owner s1 else s1
      else s

/-! ### Bursts (R176) -/

/-- The anchor's boundary fields as the Billing Unit holds them (11.2). -/
def Billing.boundaryWords (b : Billing) : List Word :=
  [word b.boundary.kind.code, word b.boundary.minute, word b.boundary.number, word b.cursor]

/-- The producer and write slot as persisted. -/
def AlarmLog.anchorWord (l : AlarmLog) : Word := word (l.producer + 2 ^ 16 * l.slot)

/-- The anchor words of a switch (R39.3): the new active bank, the epoch number raised by one, which is the number of the EPOCH
boundary outstanding (R148), and the switch minute. -/
def State.switchWords (s : State) : List Word :=
  match s.lineUp.switch with
  | some w => [word w.bank.val, word s.bill.boundary.number, word w.minute]
  | none => []

/-- The words of subscriber record `i` that are written at a grant: the latest that the Order Unit has asked to write, by a
change made while the request waited (R176), else `ws`. -/
def State.latestSub (s : State) (i : Nat) (ws : List Word) : List Word :=
  ((s.path.line .orderUnit).reverse.findSome? fun b =>
    match b with
    | .sub j vs _ => if j = i then some vs else none
    | _ => none).getD ws

/-- The same for billing record `i`. -/
def State.latestBill (s : State) (i : Nat) (ws : List Word) : List Word :=
  ((s.path.line .billing).reverse.findSome? fun b =>
    match b with
    | .bill j vs => if j = i then some vs else none
    | _ => none).getD ws

/-- The words of the close-out's burst (R147): the period number, its start and the length of the period before, and the CLOSE
boundary with its cursor. -/
def Billing.closeWords (b : Billing) : List Word :=
  match b.closing with
  | some (.closeReg m n) => [word n, word m, word (m - b.periodStart)] ++ b.boundaryWords
  | _ => []

/-- The address and the words of a burst, taken from the block's state at the grant (R176); a read has no words. -/
def State.burstWords (s : State) : Burst → Nat × List Word
  | .sub i ws _ => (s.map.sub + 16 * i + 4, s.latestSub i ws)
  | .bill i ws => (s.map.bill + 16 * i, s.latestBill i ws)
  | .header b => (s.bankBase b + 2, s.lineUp.headerWords b)
  | .result b => (s.bankBase b + 3, (s.lineUp.headerWords b).drop 1)
  | .word5 k => (s.slotBase k + 5, [s.word5 k])
  | .prevRates => (Config.prevRatesAddr, s.active.rates.toList.map word)
  | .switchAnchor => (Config.activeBankAddr, s.switchWords)
  | .mirror e => (s.map.mirror + 8 * e.val, (s.entry e).mirrorWords s.path.freeCount)
  | .logEntry => (s.map.log + 4 * s.log.slot, (s.log.writing.map fun a => a.words s.log.producer).getD [])
  | .logAnchor => (Config.logAnchorAddr, [s.log.anchorWord])
  | .teleHeader => (s.map.tele, s.scan.headerWords)
  | .teleEntry i => (s.map.tele + 8 + 3 * i.val, s.scan.entries[i].words)
  | .teleSlot k => (s.map.tele + 32 + 2 * k.val, s.scan.slots[k].words)
  | .carrier k => (s.slotBase k + 6, s.scan.slots[k].carrierWords)
  | .lastAlive => (Config.lastAliveAddr, [word s.now])
  | .closeAnchor => (Config.periodAddr, s.bill.closeWords)
  | .boundary _ => (Config.boundaryAddr, s.bill.boundaryWords)
  | .cursor => (Config.cursorAddr, [word s.bill.cursor])
  | .readLastAlive => (Config.lastAliveAddr, [])
  | .readBank b p => (s.bankBase b + 8 * p, [])
  | .readPending b => (s.bankBase b, [])
  | .read a _ => (a, [])

/-- The port is taken by a burst of a part requester. -/
def MemPath.hold (p : MemPath) (r : Requester) (b : Burst) (x : Nat × List Word) : MemPath :=
  { p with port := .burst r b x.1 x.2 false, ring := r, partNext := false, freeCount := p.freeCount + 1 }

/-- The next read of block `r` takes the port (R176). With the read of its record the dispatch of the oldest queued index begins
(R7). -/
def State.grantRead (s : State) (r : Requester) (q : ReadReq) : State :=
  { s with
    path := { s.path.hold r (.read q.1 q.2) (q.1, []) with
      reads := s.path.reads.set r.idx (s.readsMade r), turns := s.path.turns.set r.idx none }
    order := if r = .orderUnit ∧ s.dispatchNext = true then s.order.takeHead else s.order }

/-- The oldest burst that block `r` has asked for takes the port, with the words as they stand (R176). -/
def State.grantBurst (s : State) (r : Requester) (b : Burst) (rest : List Burst) : State :=
  { s with path := { (s.path.setLine r rest).hold r b (s.burstWords b) with
      turns := s.path.turns.set r.idx (s.path.turns[r.idx].map fun x => (x.1 - 1, x.2)) } }

/-- The port is granted to a part requester (R176, R177): its oldest request, be it a burst that it has asked for or the read that
its next step needs. -/
def State.grantPart (s : State) (r : Requester) : State :=
  match s.path.line r, s.readTurn r with
  | _, some (0, q) => s.grantRead r q
  | b :: rest, _ => s.grantBurst r b rest
  | [], some (_, q) => s.grantRead r q
  | [], none => s

/-- The grant of a free port (R177): after a computer cycle a part request goes first; otherwise the computer's cycle does. -/
def State.grant (s : State) : State :=
  if s.path.port = .free then
    match s.path.cycle, s.nextRequester with
    | some c, some r =>
      if s.path.partNext then s.grantPart r else { s with path := { s.path with port := .cycle c, cycle := none } }
    | some c, none => { s with path := { s.path with port := .cycle c, cycle := none, partNext := false } }
    | none, some r => s.grantPart r
    | none, none => s
  else s

/-- A granted burst has been written (R176): memory holds its words and the port is free. -/
def State.endBurst (s : State) (a : Nat) (ws : List Word) : State :=
  { s with mem := memWriteWords s.mem a ws, path := { s.path with port := .free, partNext := false } }

end Sys2Proof.Machine
end

