-- ==== Sys2Proof/Machine/StartOps.lean ====
section
/-! DEFINITION. The configuration: settings and window map as they read, the order of the configuration faults, the log load
and the refusal of a start (R57, R76, R83, R96, R108, R111–R116, R165, R168, R179, R182). -/

namespace Sys2Proof.Machine

/-- A word of the configuration area, by its offset (11.2). -/
def cfgWord (m : List Host.Cell) (off : Nat) : Word := memWord m (Config.anchorBase + off)

/-- The window map as the configuration reads (R168). -/
def readMap (m : List Host.Cell) : WindowMap :=
  let base (i : Nat) : Nat := bits (cfgWord m i) 0 20
  { sub := base 0, bill := base 1, line := base 2, mirror := base 3, log := base 4, tele := base 5,
    ns := bits (cfgWord m 6) 0 16, s := bits (cfgWord m 6) 16 16 }

/-- The windows in the order of R168: base and size. -/
def WindowMap.windows (w : WindowMap) : List (Nat × Nat) :=
  [(w.sub, 16 * w.ns), (w.bill, 16 * w.ns), (w.line, 1216), (w.mirror, 4608), (w.log, 4 * w.s), (w.tele, 176)]

/-- A window whose last word lies at or above the anchor block. -/
def outOfBounds (x : Nat × Nat) : Bool := decide (Config.anchorBase ≤ x.1 + x.2 - 1)

/-- Two windows share a word. -/
def sharesWord (x y : Nat × Nat) : Bool := decide (x.1 < y.1 + y.2) && decide (y.1 < x.1 + x.2)

/-- Some two windows of a list share a word. -/
def anyOverlap : List (Nat × Nat) → Bool
  | [] => false
  | x :: r => r.any (sharesWord x) || anyOverlap r

def scanKindOf : Nat → Option ScanKind
  | 0 => some .supply | 1 => some .pilot | 2 => some .returnPath | 3 => some .temperature | 4 => some .carrier | _ => none

/-- A scan entry as it reads, none when it is the fault SCAN-ENTRY (R116). -/
def readScanEntry (m : List Host.Cell) (e : Nat) : Option ScanEntry :=
  let w (i : Nat) : Word := cfgWord m (16 + 4 * e + i)
  let link := bits (w 0) 24 4
  match scanKindOf (bits (w 0) 4 4) with
  | none => none
  | some kind =>
    let x : ScanEntry :=
      { probe := bits (w 0) 0 4, kind := kind, settle := bits (w 0) 8 8, lset := signedField 16 (bits (w 1) 0 16),
        lclr := signedField 16 (bits (w 1) 16 16), hclr := signedField 16 (bits (w 2) 0 16),
        hset := signedField 16 (bits (w 2) 16 16), n := bits (w 0) 16 4,
        link := if h : link < 8 then some ⟨link, h⟩ else none }
    if 12 < x.probe ∨ (kind = .carrier) ≠ (x.probe = 12) ∨ x.lclr < x.lset ∨ x.hset < x.hclr ∨ x.n = 0 ∨
        (7 < link ∧ link ≠ 15) ∨ (link ≠ 15 ∧ kind ≠ .supply) then none
    else some x

/-- The length of the scan list (R116). -/
def readScanLen (m : List Host.Cell) : Nat := bits (cfgWord m 12) 0 4

def readScanList (m : List Host.Cell) : List ScanEntry :=
  (List.range (readScanLen m)).filterMap (readScanEntry m)

/-- The scan modes of the scan word and the configuration (11.2); none for a value that is no mode. -/
def scanModeOf : Nat → Option ScanMode
  | 0 => some .off | 1 => some .once | 2 => some .periodic | 3 => some .continuous | _ => none

/-- A mode and interval are taken: PERIODIC asks for an interval of 1–3,600 s (R116, R121). -/
def scanModeGood (mode interval : Nat) : Bool :=
  match scanModeOf mode with
  | none => false
  | some .periodic => decide (1 ≤ interval) && decide (interval ≤ 3600)
  | some _ => true

/-- The settings as the configuration reads (11.2). -/
def readSettings (m : List Host.Cell) : Settings :=
  let w := cfgWord m
  { enable := BitVec.ofNat 8 (bits (w 7) 0 8), rate := bits (w 7) 8 2, window := bits (w 7) 16 8,
    attempts := bits (w 7) 24 3, tr := bits (w 8) 0 16, missThr := bits (w 8) 16 4, nmin := bits (w 8) 24 7,
    tc := bits (w 9) 0 16, heartbeat := bits (w 9) 16 16, escalation := bits (w 10) 0 8, attention := bits (w 10) 16 16,
    scanMode := (scanModeOf (bits (w 11) 0 4)).getD .off, scanInterval := bits (w 11) 16 16,
    scanList := readScanList m,
    probes := Vector.ofFn fun p =>
      { gain := bits (w (48 + p.val)) 0 16, offset := signedField 16 (bits (w (48 + p.val)) 16 16) } }

/-- The first fault of a list of judgements, in order. -/
def firstFault : List (Bool × ConfigFault) → ConfigFault
  | [] => .none
  | (bad, f) :: r => if bad then f else firstFault r

/-- A number outside a range. -/
def outside (lo hi x : Nat) : Bool := decide (x < lo) || decide (hi < x)

/-- The faults of the configuration in the order of R182, but for the active bank's. -/
def configFault (m : List Host.Cell) : ConfigFault :=
  let w := readMap m
  let c := readSettings m
  let len := readScanLen m
  firstFault [
    (outside 16 4096 w.s, .logSize),
    (outside 1 2048 w.ns, .subscriberCount),
    (w.windows.any outOfBounds, .windowBounds),
    (anyOverlap w.windows, .windowOverlap),
    (c.rate == 3, .lineRate),
    (outside 8 60 c.window, .answerWindow),
    (outside 1 4 c.attempts, .attempts),
    (outside 2 15 c.missThr, .missThreshold),
    (outside 10 3600 c.tr, .rollCallPeriod),
    (outside 1 64 c.nmin, .outageMinimum),
    (outside 1 w.s c.attention, .attentionThreshold),
    (outside 1 255 c.escalation, .escalationTime),
    (decide (255 < c.heartbeat), .heartbeatInterval),
    (decide (8 < len), .scanList),
    ((List.range len).any fun e => (readScanEntry m e).isNone, .scanEntry),
    (!scanModeGood (bits (cfgWord m 11) 0 4) (bits (cfgWord m 11) 16 16), .scanMode)]

/-! ### The log load (R111) -/

/-- The unconsumed entries as they are read, oldest first: the consumer and the critical list so far. `idx` is the index the
entry should hold, `slot` its place. -/
def loadEntries (m : List Host.Cell) (base size : Nat) : Nat → Nat → Nat → Nat × List (Nat × Nat) → Nat × List (Nat × Nat)
  | 0, _, _, a => a
  | n + 1, idx, slot, a =>
    let w0 := memWord m (base + 4 * slot)
    let a1 :=
      if bits w0 16 16 ≠ idx then ((idx + 1) % 65536, [])
      else if bits w0 8 2 = 3 then (a.1, a.2 ++ [(idx, (memWord m (base + 4 * slot + 2)).toNat)])
      else a
    loadEntries m base size n ((idx + 1) % 65536) (if slot + 1 = size then 0 else slot + 1) a1

/-- The judgement of a consumer value (R109): it lies from the consumer to the producer. -/
def AlarmLog.takeConsumer (l : AlarmLog) (v : Nat) : AlarmLog :=
  if (v + 65536 - l.consumer) % 65536 ≤ l.unconsumed then
    let gone := (v + 65536 - l.consumer) % 65536
    { l with consumer := v, result := .accepted,
             critical := l.critical.filter fun x => decide (gone ≤ (x.1 + 65536 - l.consumer) % 65536) }
  else { l with result := .indexRange }

/-- The log load (R111) from memory as `v` has read it, with the consumer arrivals that waited for it (R109). -/
def State.loadLog (s v : State) : State :=
  let size := s.map.s
  let x := v.logIndices
  let a := loadEntries v.mem s.map.log size x.unconsumed x.consumer (x.oldest size) (x.consumer, [])
  let l := { s.log with
    loaded := true, producer := x.producer, consumer := a.1, slot := x.slot, critical := a.2, waiting := [],
    result := if x.badRange then .indexRange else s.log.result }
  State.evalLog { s with log := s.log.waiting.foldl AlarmLog.takeConsumer l }

/-! ### Refused starts (R182) -/

/-- A start from IDLE is refused (R182). The Order Queue and the backlog flag keep what order arrivals have put there since the
map was taken, of which R182 says nothing (assumption 21). -/
def State.refuseCold (s : State) (r : CmdResult) (fault : ConfigFault) : State :=
  State.evalLog
    { s with
      run := { s.run with part := .idle, phase := .none, result := r, fault := fault, staged := none }
      path := { s.path with map := none, protActive := none, protSealed := none }
      lineUp := { s.lineUp with copy := none, active := none }
      log := { s.log with intake := [], waiting := [] } }

/-- A start from HALTED is refused. -/
def State.refuseResume (s : State) (r : CmdResult) (fault : ConfigFault) : State :=
  { s with run := { s.run with part := .halted, phase := .none, result := r, fault := fault, staged := none } }

def State.refuseStart (s : State) (r : CmdResult) (fault : ConfigFault) : State :=
  if s.run.fromHalted then s.refuseResume r fault else s.refuseCold r fault

end Sys2Proof.Machine
end

