-- ==== Sys2Proof/Machine/Work.lean ====
section
/-! DEFINITION. Work in progress: the scanner's sequences, the tasks of a block's work item and what each does when its turn
comes, the hand-offs that wait, the Line-up Unit's switch and validation, and what the end of a burst brings about. -/

namespace Sys2Proof.Machine

/-! ### Sequences of the scanner (R118–R120, R128) -/

/-- Sequences run in RUNNING, HALTING and HALTED (R120). -/
def State.sequencesRun (s : State) : Bool := s.afterStart

/-- A sequence ends (R119, R120): the mode decides whether another is called for. An ONCE that a resume cut is called for again: it
runs at the entry to RUNNING (R128), and after a resume that is refused in HALTED (assumption 63). -/
def State.endSequence (s : State) : State :=
  let x := s.scan
  let again := (x.late && x.mode == .periodic) || (x.mode == .continuous && x.sampled) || (x.cut && x.ofOnce)
  let done := x.ofOnce && !x.cut && !x.startDue
  State.ask
    { s with scan := { x with
        scanning := false, endMin := s.now, sample := none, late := false, ofOnce := false, cut := false,
        mode := if done then .off else x.mode, startDue := x.startDue || again } } .scanner .teleHeader

/-- The next sample of the sequence in progress, from list entry `i` on: a CARRIER entry with no lit slot is skipped, and
after the last entry the sequence ends (R118, R119). -/
def State.sampleFrom (s : State) : List ScanEntry → Nat → State
  | [], _ => s.endSequence
  | en :: rest, i =>
    if en.kind = .carrier then
      match s.active.nextLit s.scan.carrier with
      | none => s.sampleFrom rest (i + 1)
      | some k =>
        State.ask
          { s with scan := { s.scan with
              sample := some { i := Fin.ofNat 8 i, entry := en, slot := some (k, s.active.slots[k]), converting := false,
                               old := false }
              next := i + 1, sampled := true, carrier := some k, tune := s.active.slots[k].tune } } .scanner .teleHeader
    else
      { s with scan := { s.scan with
          sample := some { i := Fin.ofNat 8 i, entry := en, slot := none, converting := false, old := false }
          next := i + 1, sampled := true } }

/-- The sequence goes on with its next entry, or ends where it was cut (R119, R128). -/
def State.nextSample (s : State) : State :=
  if s.scan.cut then s.endSequence else s.sampleFrom (s.cfg.scanList.drop s.scan.next) s.scan.next

/-- A sequence starts (R119). -/
def State.startSequence (s : State) : State :=
  State.nextSample (State.ask
    { s with scan := { s.scan with
        scanning := true, startDue := false, seqCount := (s.scan.seqCount + 1) % 2 ^ 32, startMin := s.now, next := 0,
        sampled := false, sample := none, cut := false, ofOnce := s.scan.mode == .once } } .scanner .teleHeader)

/-! ### The billing boundary (R145, R148, R154) -/

/-- The EPOCH boundary at the current minute becomes outstanding (R148). -/
def State.takeBoundary (s : State) : State :=
  { s with bill := { s.bill with
      boundary := { kind := .epoch, minute := s.now, number := (s.bill.epoch + 1) % 2 ^ 32 }, cursor := 0 } }

/-- The end of the sweep, where the cursor has reached Ns (R38, R154), but for the log entry of a CLOSE boundary. A HELD epoch
is taken whatever the part state: a sweep's last step made in RUNNING can end in HALTING (assumption 23). -/
def State.endSweep (s : State) : State :=
  let s1 := { s with bill := { s.bill with sweeping := false, owes := false } }
  let s2 :=
    if s.lineUp.epoch = .held then
      let s2 := s1.takeBoundary
      { s2 with lineUp := { s2.lineUp with ask := .answered s.now } }
    else { s1 with bill := { s1.bill with boundary := { s1.bill.boundary with kind := .none } } }
  s2.ask .billing (.boundary false)

/-- The cursor goes up by one, and one burst writes it (R153). -/
def State.advanceSweep (s : State) : State :=
  State.ask { s with bill := { s.bill with cursor := s.bill.cursor + 1, owes := false } } .billing .cursor

/-- Whether the sweep is at its end. -/
def State.sweepOver (s : State) : Bool := s.bill.sweeping && decide (s.map.ns ≤ s.bill.cursor)

/-! ### Tasks -/

/-- The reconciliation pass is being made (R156). -/
def StartPhase.reconciles : StartPhase → Bool
  | .recon _ => true
  | _ => false

/-- A submission to the alarm intake (R107): discarded in IDLE, waiting while the intake holds 8. The minute is that at which
it is first made: of one that stands behind hand-offs of its block that wait, that at which its turn comes (assumption 12). -/
def State.submit (s : State) (kind : AlarmKind) (sev : Severity) (subject : Subject) (value : Word) (stamp : Option Nat) :
    State × Option Task :=
  let minute := stamp.getD s.now
  if s.run.part = .idle then (s, none)
  else if s.log.intake.length < Config.intakeDepth then
    ({ s with log := { s.log with
        intake := s.log.intake ++ [{ kind := kind, sev := sev, subject := subject, minute := minute, value := value }] } }, none)
  else (s, some (.alarm kind sev subject value (some minute)))

/-- The Billing Unit hands an arrival to the Order Unit, whose read that is presented keeps its place (R23, R176). -/
def State.handArrival (s : State) (a : BillArrival) : State :=
  { s.keepTurn .orderUnit with order := { s.order with billing := s.order.billing ++ [a] } }

/-- A task's turn: its effect, and what is left of it when it has to wait. A task with a read of its own waits for it. The settle
answer goes to the Order Unit alone, as R23, R134 and R144 have it: R133 and R158 speak of settle answers from the Order Unit, and the
Billing Unit awaits none (assumption 64). The last
step of the reconciliation pass takes a sweep that stands at the one record there is over it, since the pass has left that
record current (R154, R156). -/
def State.doTask (s : State) (t : Task) : State × Option Task :=
  match t with
  | .notice q =>
    if s.bill.queue.length < Config.noticeDepth then
      ({ s.keepTurn .billing with bill := { s.bill with queue := s.bill.queue ++ [q] } }, none)
    else (s, some t)
  | .alarm kind sev subject value stamp => s.submit kind sev subject value stamp
  | .orderReport r =>
    if s.order.reports.length < Config.orderReportDepth then
      ({ s.keepTurn .orderUnit with order := { s.order with reports := s.order.reports ++ [r] } }, none)
    else (s, some t)
  | .corrReport r =>
    if s.corr.reports.length < Config.corrReportDepth then
      ({ s with corr := { s.corr with reports := s.corr.reports ++ [r] } }, none)
    else (s, some t)
  | .burst r b => (s.ask r b, none)
  | .awaitWritten r => if s.written r then (s, none) else (s, some t)
  | .awaitAnswer => if s.bill.answer then ({ s with bill := { s.bill with answer := false } }, none) else (s, some t)
  | .applyOrder o => (s.applyOrder o, none)
  | .applyConfirm c => (s.applyConfirm c, none)
  | .setSettling sub event => (s.setIndex sub event .opened .settling, none)
  | .freeBooked _ _ | .recompute _ => (s, if (s.taskReads t).isEmpty then none else some t)
  | .applyPass p => (s.applyPass p, none)
  | .passNext p => (s.passNext p, none)
  | .overlapOut sub event minutes =>
    let s1 := s.handArrival (.overlap sub event minutes)
    ({ s1 with bill := { s1.bill with answer := false } }, none)
  | .settleOut sub event => (s.handArrival (.settle sub event), none)
  | .refreshOut sub => (s.handArrival (.refresh sub), none)
  | .noticeDone => ({ s with bill := { s.bill with
      queue := s.bill.queue.tail, owes := s.bill.sweeping || s.run.phase.reconciles } }, none)
  | .sweepAdvance => (s.advanceSweep, none)
  | .sweepEnd =>
    if s.sweepOver then
      let s1 := s.endSweep
      if s.bill.boundary.kind = .close then
        s1.submit .closeOutDone .info .none (word ((s.bill.period + 65535) % 65536)) none
      else (s1, none)
    else (s, none)
  | .reconAdvance =>
    match s.run.phase with
    | .recon i =>
      if i + 1 < s.map.ns then
        ({ s with run := { s.run with phase := .recon (i + 1) }, bill := { s.bill with owes := false } }, none)
      else
        let s1 : State := { s with
          run := { s.run with phase := .enter }
          bill := { s.bill with sweeping := s.bill.boundary.kind != .none, owes := false } }
        (if s1.bill.sweeping ∧ s.map.ns = 1 ∧ s.bill.cursor = 0 then s1.advanceSweep else s1, none)
    | _ => (s, none)
  | .takeBuyers => (allSlots.foldl State.noteWord5 s.takeBuyers, none)
  | .switchReportOut => (s, some t)
  | .switchDone => ({ s with lineUp := { s.lineUp with switch := none } }, none)
  | .beginCall f cmd => (s.beginCall f cmd, none)
  | .dueCall f cmd => (s.callDue f cmd, none)
  | .enumOver f => (s.enumOver f, none)
  | .blockedOver _ => (s, none)
  | .awaitBlocked f => (s, if s.dir.work.contains (.blockedOver f) then some t else none)
  | .scanNext => (s.nextSample, none)

/-- A block's work goes on until a task has to wait. -/
def State.runTasks (b : Blk) : List Task → State → State
  | [], s => s.setWork b []
  | t :: ts, s =>
    match s.doTask t with
    | (s1, none) => State.runTasks b ts s1
    | (s1, some w) => s1.setWork b (w :: ts)

/-- A read that the Order Unit presents keeps its place while the block's own work makes another step due (R176). -/
def State.keepOrderTurn (s : State) (b : Blk) : State := if b = .orderUnit then s.keepTurn .orderUnit else s

/-- The work a block still has goes on. -/
def State.resumeWork (s : State) (b : Blk) : State := State.runTasks b (s.workOf b) (s.keepOrderTurn b)

/-- Work is added behind what a block has, and goes on if nothing waits. A submission that is added behind a hand-off of the block
that waits, such as a CONTROLLER BACK (R166), is stamped when its turn comes (assumption 12). -/
def State.push (s : State) (b : Blk) (ts : List Task) : State :=
  if (s.workOf b).isEmpty then State.runTasks b ts s else s.setWork b (s.workOf b ++ ts)

/-- Hand-offs of the Tap Directory, with the enumeration call that they lead to: it begins in this step, or, when a hand-off
before it has to wait, is begun by a later TRANSACTION_START (R58). -/
def State.pushCalls (s : State) (ts : List Task) : State :=
  let s1 := s.push .directory ts
  { s1 with dir := { s1.dir with work := s1.dir.work.map Task.later } }

/-- Whether a block waits for what a report queue or the end of a burst may have brought. -/
def State.mayGoOn (s : State) (b : Blk) : Bool :=
  match s.workOf b with
  | .orderReport _ :: _ => true
  | .corrReport _ :: _ => true
  | .awaitWritten _ :: _ => true
  | .awaitBlocked _ :: _ => true
  | _ => false

/-- Every block that can wait, in the order in which those that wait for the same room go on: R98 does not say which of two does,
and the model lets the Tap Directory go before the Telemetry Scanner (assumption 61). -/
def allBlocks : List Blk :=
  [.orderUnit, .billing, .lineUp, .directory, .correlator, .scanner, .timeBase] ++ (List.finRange 8).map .engine

/-- Blocks that waited for room in a report queue, or for the end of a burst of their own, go on, in the order of `allBlocks`
(assumption 61). -/
def State.settle (s : State) : State :=
  allBlocks.foldl (fun s b => if s.mayGoOn b then s.resumeWork b else s) s

/-! ### The epoch check (R37) -/

/-- The epoch check: the boundary is asked for and taken, or the epoch is HELD. -/
def State.epochCheck (s : State) : State :=
  if s.run.part = .running ∧ s.lineUp.epoch = .scheduled ∧ s.lineUp.epochReq ≤ s.now ∧ s.lineUp.switching = false then
    if s.bill.boundary.kind = .none then
      State.ask
        { s.takeBoundary with lineUp := { s.lineUp with ask := .taken s.now } } .billing (.boundary true)
    else
      State.push { s with lineUp := { s.lineUp with epoch := .held } } .lineUp
        [.alarm .epochHeld .minor .none (word s.lineUp.epochReq) none]
  else s

/-! ### Validation (R33–R35) -/

/-- Validation ends (R35): EDITED, failed or PASSED. -/
def State.endValidation (s : State) (v : Validation) (fault : Option (ValResult × Option SlotId)) : State :=
  let l := { s.lineUp with validation := none }
  let s1 :=
    if v.edited then { s with lineUp := (l.setBank v.bank .editable).setResult v.bank .edited none }
    else
      match fault with
      | some (r, k) => { s with lineUp := (l.setBank v.bank .editable).setResult v.bank r k }
      | none =>
        State.protect
          { s with lineUp := { (l.setBank v.bank .sealed).setResult v.bank .passed none with
              epoch := .scheduled, epochReq := v.minute } } s.path.protActive (some v.bank)
  let s2 := s1.ask .lineUp (.header v.bank)
  let s3 := if v.startup then { s2 with run := { s2.run with phase := .states false false } } else s2
  if s1.lineUp.bankState[v.bank] = .sealed then s3.epochCheck else s3

/-- The next part of the bank is asked for. -/
def State.readPart (s : State) (v : Validation) : State :=
  State.ask { s with lineUp := { s.lineUp with validation := some v } } .lineUp (.readBank v.bank v.part)

/-- One part of the validated bank has been read and is checked (R33, R34). -/
def State.checkPart (s : State) (v : Validation) : State :=
  let ws := s.bankPart v.bank v.part
  if v.part = 0 then s.readPart { v with part := 1, minute := (wordAt ws 1).toNat }
  else if v.part = 1 then
    if planGood ws then s.readPart { v with part := 2, plan := planOf ws }
    else s.endValidation v (some (.classBand, none))
  else if v.part < 4 then s.readPart { v with part := v.part + 1 }
  else
    let x := Slot.ofWords ws
    match slotFault v.plan v.slots s.eventChanged x with
    | some r => s.endValidation v (some (r, some (Fin.ofNat 72 (v.part - 4))))
    | none =>
      if v.part < 75 then s.readPart { v with part := v.part + 1, slots := v.slots ++ [x.getD Slot.dark] }
      else s.endValidation v none

/-- The read of a validation ends, if it is the one in progress. -/
def State.validationRead (s : State) (b : Bank) (p : Nat) : State :=
  match s.lineUp.validation with
  | some v => if v.bank = b ∧ v.part = p then s.checkPart v else s
  | none => s

/-! ### The switch (R39, R40) -/

/-- An event of the outgoing copy is carried (R40). -/
def carries (old new : Copy) (k : SlotId) : Bool :=
  match new.slotOfEvent old.slots[k].event with
  | none => false
  | some j => old.ev[k] == .scheduled || new.slots[j].start == old.slots[k].start

/-- The EVENT slots of the outgoing copy that were SCHEDULED or RUNNING. -/
def openEvents (old : Copy) : List SlotId :=
  allSlots.filter fun k => old.slots[k].isEvent && (old.ev[k] == .scheduled || old.ev[k] == .running)

/-- The drop reports, in the outgoing slot order, then the start and end reports, in the new slot order (R40). -/
def switchReports (old new : Copy) (minute : Nat) : List Task :=
  ((openEvents old).filter fun k => !carries old new k).map
      (fun k => Task.orderReport (.eventDrop old.slots[k].event minute)) ++
    allSlots.filterMap fun j =>
      if new.slots[j].isEvent then
        match (openEvents old).find? fun k => old.slots[k].event == new.slots[j].event && carries old new k with
        | some k => (changeReport old.ev[k] new.ev[j] new.slots[j].event minute).map Task.orderReport
        | none => none
      else none

/-- Step 3 of a switch, when its anchor burst has been written, and the steps that follow (R39). A CARRIER sample in progress
is one of the outgoing copy from then on (R126). -/
def State.madeSwitch (s : State) : State :=
  match s.lineUp.switch with
  | none => s
  | some w =>
    let old := s.active
    let new := w.staging
    let carried := ((openEvents old).filter (carries old new)).map fun k => old.slots[k].event
    let l := { s.lineUp with
      copy := some new, active := some w.bank, epoch := .none, switch := some { w with made := true },
      outgoing := some { outgoing := old, carried := carried } }
    let sample := s.scan.sample.map fun x => { x with old := x.old || x.slot.isSome }
    let s1 := State.protect
      { s with lineUp := (l.setBank (Bank.other w.bank) .editable).setBank w.bank .active
               scan := { s.scan with sample := sample } } (some w.bank) none
    State.push s1 .lineUp
      (switchReports old new w.minute ++
        [.notice (.epochReg w.minute s.bill.boundary.number), .burst .lineUp (.header (Bank.other w.bank)),
         .burst .lineUp (.header w.bank), .takeBuyers] ++
        allSlots.map (fun k => .burst .lineUp (.word5 k)) ++
        [.switchReportOut, .alarm .epochSwitched .info .none (word s.bill.boundary.number) none, .switchDone])

/-! ### The end of a burst -/

/-- The log entry has been written (R108, R112–R114): the producer, the write slot and the critical list move, and the
anchor burst is asked for. -/
def State.logWritten (s : State) : State :=
  match s.log.writing with
  | none => s
  | some a =>
    let l := { s.log with
      writing := none, producer := (s.log.producer + 1) % 65536,
      slot := if s.log.slot + 1 = s.map.s then 0 else s.log.slot + 1,
      critical := if a.sev = .critical then s.log.critical ++ [(s.log.producer, a.minute)] else s.log.critical }
    State.ask (State.evalLog { s with log := l }) .alarm .logAnchor

/-- The close-out's anchor burst has been written: the CLOSE registration enters the Notice Queue or waits for room (R147). -/
def State.closeQueued (s : State) : State :=
  match s.bill.closing with
  | none => s
  | some q =>
    if s.bill.queue.length < Config.noticeDepth then
      { s.keepTurn .billing with bill := { s.bill with queue := s.bill.queue ++ [q], closing := none } }
    else { s with bill := { s.bill with regWait := some q, closing := none } }

/-- The ask for an EPOCH boundary is answered (R148). -/
def State.answerAsk (s : State) : State :=
  match s.lineUp.ask with
  | .taken m => { s with lineUp := { s.lineUp with ask := .answered m } }
  | _ => s

/-- The last-alive minute has been read (R181). -/
def State.lastAliveRead (s : State) : State :=
  if s.run.phase = .lastAlive then
    let v := (memWord s.mem Config.lastAliveAddr).toNat
    let s1 := { s with run := { s.run with lastAlive := v } }
    if s.runMinute < v then s1.refuseStart .timeBeforeLastAlive .none
    else { s1 with run := { s1.run with phase := .check } }
  else s

/-- The last validation result and failing slot as a bank's header reads (R46, 11.4). -/
def State.headerResult (s : State) (b : Bank) : BitVec 16 := (wordAt (s.bankPart b 0) 3).setWidth 16

/-- The pending bank at start-up, by the state word it holds (R46). A SEALED bank that is validated again is shown VALIDATING
in the live area, and its header is written with the outcome alone, without the VALIDATING burst of R33: R46 asks for the
header burst that writes the state reached (assumption 49). -/
def State.startPending (s : State) (b : Bank) : State :=
  let ws := s.bankPart b 0
  let l := { s.lineUp with results := s.lineUp.results.set b (s.headerResult b) }
  let code := bits (wordAt ws 2) 0 4
  let go (s : State) : State := { s with run := { s.run with phase := .states false false } }
  if code = 4 then
    State.readPart { s with lineUp := l.setBank b .validating }
      { bank := b, part := 0, edited := false, minute := 0, plan := Vector.replicate 8 BandPlan.closed, slots := [],
        startup := true }
  else if code = 3 then
    go (State.ask { s with lineUp := (l.setBank b .editable).setResult b .aborted none } .lineUp (.header b))
  else go (State.ask { s with lineUp := l.setBank b .editable } .lineUp (.header b))

/-- The header of the pending bank has been read (R46.3). -/
def State.pendingRead (s : State) (b : Bank) : State := if s.run.phase = .lineupWait then s.startPending b else s

/-- The failing check of the active bank has been written to its header, and the start is refused (R45). -/
def State.resultWritten (s : State) : State :=
  match s.run.phase with
  | .refusing _ => s.refuseCold .config .activeBankInvalid
  | _ => s

/-- What the end of a burst brings about in its block. -/
def State.burstEnded (s : State) (b : Burst) : State :=
  match b with
  | .sub _ _ true => { s with bill := { s.bill with answer := true } }
  | .result _ => s.resultWritten
  | .switchAnchor => s.madeSwitch
  | .logEntry => s.logWritten
  | .closeAnchor => s.closeQueued
  | .boundary true => s.answerAsk
  | .readLastAlive => s.lastAliveRead
  | .readBank b p => s.validationRead b p
  | .readPending b => s.pendingRead b
  | _ => s

/-- What a task with a read of its own does at the end of that read (R21, R44). -/
def State.readTask (s : State) : Task → State
  | .recompute sub => s.recompute sub
  | .freeBooked sub event => s.freeBooked sub event
  | _ => s

/-- The read of `n` words from `a` has ended, and its step has further reads to make: what it found is kept. -/
def State.keepRead (s : State) (r : Requester) (x : ReadDone) : State :=
  let s1 := s.freeRead r
  { s1 with path := { s1.path with reads := s1.path.reads.set r.idx (s.path.reads[r.idx] ++ [x]) } }

/-- A read burst of block `r` ends. The last read of a step ends with the step, which its own command makes; a read with more
to come is kept, and one for which there is no step left ends without effect. -/
def State.endStepRead (s : State) (r : Requester) (a n : Nat) : State :=
  let x : ReadDone := { addr := a, len := n, words := memWords s.mem a n }
  if !(s.readsDue r).isEmpty && s.hasRead r (s.readsDue r) then s
  else if goesOn ((s.path.reads[r.idx] ++ [x]).map ReadDone.req) (s.readsDue r) then s.keepRead r x
  else s.tookRead r

/-- A read burst ends. The task of the Order Unit that waits for it is done, and its work goes on. -/
def State.endRead (s : State) (r : Requester) (a n : Nat) : State :=
  match r, s.order.work with
  | .orderUnit, t :: ts =>
    if !(s.taskReads t).isEmpty && s.hasRead .orderUnit (s.taskReads t) then
      (State.runTasks .orderUnit ts ((s.tookRead .orderUnit).readTask t)).noTurn .orderUnit
    else s.endStepRead .orderUnit a n
  | _, _ => s.endStepRead r a n

/-- The burst that holds the port ends (R176): memory, the port, and the block it belongs to. -/
def State.completeBurst (s : State) : State :=
  match s.path.port with
  | .burst r (.read a n) _ _ false => s.endRead r a n
  | .burst _ b a ws orphan =>
    let s1 := s.endBurst a ws
    if orphan then s1 else State.settle (s1.burstEnded b)
  | _ => s

end Sys2Proof.Machine
end

