-- ==== Sys2Proof/Machine/Path.lean ====
section
/-! DEFINITION. The commands of the computer port and the memory port (chapter 9), and the resets (R188). -/

namespace Sys2Proof.Machine

/-- COMPUTER_READ (R167, R175): a live word is answered at once; any other read is presented to the port. -/
def doComputerRead (addr : WordAddr) (s : State) : State :=
  if s.classOf addr.toNat = .live then { s with path := { s.path with dataOut := s.live addr.toNat } }
  else if s.cycleReady then s.present { addr := addr.toNat, write := false, be := 0, data := 0, trigger := none }
  else s

/-- COMPUTER_WRITE (R170–R174): absorbed, suppressed, or presented to the port, with its trigger if it raises one. While the
reset line is held nothing is recorded: the live words read as after a reset (R175, R188). -/
def doComputerWrite (addr : WordAddr) (be : BitVec 4) (data : Word) (s : State) : State :=
  let a := addr.toNat
  let cl := s.classOf a
  let cycle (t : Option Trigger) : Cycle := { addr := a, write := true, be := be, data := data, trigger := t }
  if cl = .live then s
  else if s.guardOn && s.covers cl then s.suppress a
  else if s.cycleReady then
    match cl with
    | .trigger t =>
      if be = 0xF then s.present (cycle (some t))
      else if s.run.held then s.present (cycle none)
      else (s.recordIgnored a).present (cycle none)
    | .other (some b) => (s.bankEdit b).present (cycle none)
    | .part (some b) => (s.bankEdit b).present (cycle none)
    | _ => s.present (cycle none)
  else s

/-- PENDING_SUBMISSION_HANDED (R173): the held entry is handed when the intake has room; in IDLE it is discarded (R107). -/
def doPendingSubmissionHanded (s : State) : State :=
  match s.path.pendingSub with
  | none => s
  | some a =>
    if s.run.part = .idle then { s with path := { s.path with pendingSub := none } }
    else if s.log.intake.length < Config.intakeDepth then
      { s with path := { s.path with pendingSub := none }, log := { s.log with intake := s.log.intake ++ [a] } }
    else s

/-- MEMORY_PORT_GRANT (R176, R177). -/
def doMemoryPortGrant (s : State) : State := s.grant

/-- BURST_COMPLETE (R176): the burst that holds the port ends. -/
def doBurstComplete (s : State) : State := s.completeBurst

/-- PASSED_CYCLE_CARRIED (R167, R171): the port has carried the computer's cycle. -/
def doPassedCycleCarried (s : State) : State :=
  match s.path.port with
  | .cycle c => s.carry c
  | _ => s

/-! ### Resets (R188) -/

/-- The memory port through a reset: a burst that holds it runs to its last word, a computer cycle completes (R178). -/
def PortUse.orphaned : PortUse → PortUse
  | .burst r b a ws _ => .burst r b a ws true
  | p => p

/-- Every block as its chapter states it after a reset; memory and the queue of commands are untouched. -/
def State.afterReset (s : State) (cause : ResetCause) (held : Bool) (time : TimeBase) : State :=
  { s with
    run := { RunControl.reset cause with held := held }, time := time,
    path := { MemPath.reset with port := s.path.port.orphaned, cycle := s.path.cycle, freeCount := s.path.freeCount },
    cfg := Settings.none, order := OrderUnit.reset, lineUp := LineUp.reset, dir := Directory.reset,
    engines := Vector.replicate 8 Engine.reset, corr := Correlator.reset, log := AlarmLog.reset, scan := Scanner.reset,
    bill := Billing.reset }

/-- POWER_ON (R188). -/
def doPowerOn (s : State) : State := s.afterReset .powerOn false TimeBase.reset

/-- RESET_LINE (R188): the reset line is released. -/
def doResetLine (s : State) : State := s.afterReset .resetLine false TimeBase.reset

/-- RESET_LINE_HELD (R188): while the line is held the part stays in reset. -/
def doResetLineHeld (s : State) : State := s.afterReset .resetLine true TimeBase.reset

/-- RESTART (R180, R188, R189): taken in every part state; the clock keeps counting and set (R160). -/
def doRestart (w : Word) (s : State) : State :=
  if actionCode w = 3 then
    s.arrive .control w fun s =>
      s.afterReset .restart false
        { TimeBase.reset with minute := s.time.minute, half := s.time.half, clockSet := s.time.clockSet }
  else s

/-! ### The commands of this file: each goes to the state its own effect gives -/

def execComputerRead (addr : WordAddr) (s : State) : Answer := .next (doComputerRead addr s)
def execComputerWrite (addr : WordAddr) (be : BitVec 4) (data : Word) (s : State) : Answer := .next (doComputerWrite addr be data s)
def execPendingSubmissionHanded (s : State) : Answer := .next (doPendingSubmissionHanded s)
def execMemoryPortGrant (s : State) : Answer := .next (doMemoryPortGrant s)
def execBurstComplete (s : State) : Answer := .next (doBurstComplete s)
def execPassedCycleCarried (s : State) : Answer := .next (doPassedCycleCarried s)
def execPowerOn (s : State) : Answer := .next (doPowerOn s)
def execResetLine (s : State) : Answer := .next (doResetLine s)
def execResetLineHeld (s : State) : Answer := .next (doResetLineHeld s)
def execRestart (w : Word) (s : State) : Answer := .next (doRestart w s)

end Sys2Proof.Machine
end

