-- ==== Sys2Proof/Machine/Control.lean ====
section
/-! DEFINITION. Run Control's commands: the control word, the configuration check, the start-up work, the entry to RUNNING and
the entry to HALTED (chapter 10). -/

namespace Sys2Proof.Machine

/-- The control result word; arrivals other than RESTART taken in STARTING do not change it (R180). -/
def State.answerControl (s : State) (r : CmdResult) : State :=
  if s.run.part = .starting then s else { s with run := { s.run with result := r } }

/-- The entry to STARTING (R181): the RUN minute is taken, the fault reads NONE, and the last-alive minute is asked for. A
sequence in progress at a resume is cut (R128). -/
def State.enterStarting (s : State) : State :=
  State.evalLog (State.ask
    { s with
      run := { s.run with part := .starting, fromHalted := s.run.part == .halted, phase := .lastAlive,
                          runMinute := some s.time.minute, fault := .none, result := .inProgress }
      scan := { s.scan with cut := s.scan.cut || (s.run.part == .halted && s.scan.scanning) } } .runControl .readLastAlive)

/-- RUN (R180, R181). -/
def doRun (w : Word) (s : State) : State :=
  if actionCode w = 1 then
    s.arrive .control w fun s =>
      match s.run.part with
      | .idle | .halted => if s.time.clockSet then s.enterStarting else s.answerControl .timeNotSet
      | .starting => s
      | .running => s.answerControl .alreadyRunning
      | .halting => s.answerControl .busy
  else s

/-- HALT (R180, R186): dispatch and the backlog walk stop (R26), supervision stops (R165), the sweep pauses, at the end of a step
whose reads have begun (R153). -/
def doHalt (w : Word) (s : State) : State :=
  if actionCode w = 2 then
    s.arrive .control w fun s =>
      match s.run.part with
      | .idle | .halted => s.answerControl .notRunning
      | .starting => s
      | .running =>
        { s with
          run := { s.run with part := .halting, result := .accepted }
          order := { s.order with walk := none }
          time := { s.time with supervision := Timer.stopped } }
      | .halting => s.answerControl .busy
  else s

/-- CLEAR STATUS (R178, R187). -/
def doClearStatus (w : Word) (s : State) : State :=
  if actionCode w = 4 then
    s.arrive .control w fun s =>
      State.answerControl
        { s with
          path := { s.path with suppressedCount := 0, suppressedAddr := 0, suppressed := false, ignoredAddr := 0,
                                ignored := false, armed := true, pendingSub := none }
          run := { s.run with fault := .none } } .accepted
  else s

/-- CONTROL_BAD_ACTION (R180): any other command. -/
def doControlBadAction (w : Word) (s : State) : State :=
  if 1 ≤ actionCode w ∧ actionCode w ≤ 4 then s else s.arrive .control w fun s => s.answerControl .badAction

/-! ### The configuration check (R182) -/

/-- The check of a start from HALTED: the layout comparison follows the faults. `m` is memory as it has been read. -/
def State.checkResume (s : State) (m : List Host.Cell) : State :=
  let c := readSettings m
  if s.path.map ≠ some (readMap m) ∨ c.enable ≠ s.cfg.enable then s.refuseResume .layoutChanged .none
  else { s with run := { s.run with staged := some c, phase := .enter } }

/-- The configuration area has been read, each group as it stood at its own burst (R182): a fault refuses the start; a start
from HALTED goes on to the layout comparison; one from IDLE takes the map, and goes on to the active bank. `m` is memory as it
has been read. -/
def State.checkConfig (s : State) (m : List Host.Cell) : State :=
  let fault := configFault m
  if fault ≠ .none then s.refuseStart .config fault
  else if s.run.fromHalted then s.checkResume m
  else
    { s with
      path := { s.path with map := some (readMap m) }
      run := { s.run with staged := some (readSettings m), phase := .bankNumber } }

/-- The active bank number has been read (R45): the Memory Path is told which bank is active. -/
def State.checkBankNumber (s : State) : State :=
  let n := (memWord s.mem Config.activeBankAddr).toNat
  if 1 < n then s.refuseCold .config .activeBankNumber
  else
    let b : Bank := if n = 0 then 0 else 1
    State.protect { s with run := { s.run with phase := .bank b } } (some b) none

/-- The active bank has been read and is checked (R45): a failure is shown, written to the header, and then refuses the start;
otherwise the copy is held with its event states at the RUN minute. `v` has memory as it has been read. -/
def State.checkBank (s v : State) (b : Bank) : State :=
  match v.bankFault b with
  | some (r, k) =>
    State.ask { s with lineUp := s.lineUp.setResult b r k, run := { s.run with phase := .refusing b } } .lineUp (.result b)
  | none =>
    { s with
      lineUp := { s.lineUp with
        copy := some (v.readCopy b s.runMinute), active := some b, results := s.lineUp.results.set b (v.headerResult b) }
      run := { s.run with phase := .log } }

/-- The log has been read (R111), and the check has passed: the settings are in force, and the start-up work begins. `v` has
memory as it has been read. -/
def State.checkLog (s v : State) : State :=
  let s1 := { s with cfg := s.run.staged.getD s.cfg, run := { s.run with staged := none, phase := .load 0 } }
  s1.loadLog v

/-- CONFIGURATION_CHECK (R182): the end of the last read of each part of the check, in the order of the rule: the configuration
area, the active bank's number, the active bank, the log. -/
def doConfigurationCheck (s : State) : State :=
  match s.run.phase with
  | .check => if s.hasRead .runControl configReads then (s.tookRead .runControl).checkConfig (s.seenBy .runControl) else s
  | .bankNumber => if s.hasRead .lineUp bankNumberReads then (s.tookRead .lineUp).checkBankNumber else s
  | .bank b => if s.hasRead .lineUp (s.bankReads b) then (s.tookRead .lineUp).checkBank (s.view .lineUp) b else s
  | .log => if s.hasRead .alarm s.logReads then (s.tookRead .alarm).checkLog (s.view .alarm) else s
  | _ => s

/-! ### Start-up work (R183) -/

/-- An entry as the start-up load takes it from its mirror words (R82): the entry, whether it is written back, and its log
entries. -/
def State.loadEntry (s : State) (ws : List Word) : Entry × Bool × List Task :=
  match Entry.ofMirror ws with
  | none => (Entry.free, ws.any fun w => w != 0, [])
  | some x =>
    match s.entryOfSerial x.serial with
    | some d =>
      let subject : Subject := match (s.entry d).place with
        | some pl => .place pl.feeder pl.pos
        | none => .none
      (Entry.free, true, [.alarm .tapMoved .minor subject x.serial none])
    | none =>
      match x.place with
      | none => (x, flagAt (wordAt ws 1) 3, [])
      | some pl =>
        if (s.placeAt pl.feeder pl.pos).isSome then
          let since := if x.silentSince = 0 then s.runMinute else x.silentSince
          ({ x with place := none, state := .lost, silentSince := since }, true,
           if x.state = .lost then [] else [tapAlarm .tapLost .major pl.feeder pl.pos (word since)])
        else ({ x with verify := s.cfg.enable.getLsbD pl.feeder.val }, false, [])

/-- DIRECTORY_LOAD_ENTRY (R82): one mirror entry is read into the pool. -/
def doDirectoryLoadEntry (s : State) : State :=
  match s.run.phase with
  | .load n =>
    if s.dir.work.isEmpty && s.hasRead .directory (s.mirrorReads n) then
      let s := s.tookRead .directory
      let e : EntryId := Fin.ofNat 576 n
      let x := s.loadEntry (memWords s.mem (s.map.mirror + 8 * n) 8)
      let s1 := s.setEntry e x.1
      let s2 := { s1 with run := { s1.run with phase := if n < 575 then .load (n + 1) else .loads false false } }
      (s2.push .directory (x.2.2 ++ if x.2.1 then [.burst .directory (.mirror e)] else [])).noTurn .directory
    else s
  | _ => s

/-- The loads of step 2 are both done: the subscriber pass begins (R183). -/
def StartPhase.afterLoads (billing scanner : Bool) : StartPhase :=
  if billing && scanner then .pass 0 else .loads billing scanner

/-- The boundary as it is persisted, judged against the numbers loaded (R155); none is a boundary that is not taken. -/
def judgeBoundary (kind : Nat) (minute number period epoch : Nat) : Option Boundary :=
  if kind = 0 then some { kind := .none, minute := minute, number := number }
  else if kind = 1 ∧ number = period then some { kind := .close, minute := minute, number := number }
  else if kind = 2 ∧ number = epoch then some { kind := .epoch, minute := minute, number := number }
  else none

/-- BILLING_LOAD (R155). -/
def doBillingLoad (s : State) : State :=
  match s.run.phase with
  | .loads false sc =>
    if s.dir.work.isEmpty && s.hasRead .billing billingLoadReads then
      let m := s.seenBy .billing
      let s := s.tookRead .billing
      let w (a : Nat) : Word := memWord m a
      let period := bits (w Config.periodAddr) 0 16
      let epoch := (w Config.epochNumberAddr).toNat
      let minute := (w (Config.boundaryAddr + 1)).toNat
      let number := (w (Config.boundaryAddr + 2)).toNat
      let judged := judgeBoundary (bits (w Config.boundaryAddr) 0 8) minute number period epoch
      let s1 := { s with
        bill := { s.bill with
          loaded := true, period := period, periodStart := (w Config.periodStartAddr).toNat,
          prevLen := (w Config.prevLenAddr).toNat, epoch := epoch, epochMin := (w Config.epochMinuteAddr).toNat,
          cur := s.active.rates, prev := Vector.ofFn fun t => bits (w (Config.prevRatesAddr + t.val)) 0 16,
          boundary := judged.getD { kind := .none, minute := minute, number := number },
          cursor := bits (w Config.cursorAddr) 0 16 }
        run := { s.run with phase := StartPhase.afterLoads true sc } }
      if judged.isNone then s1.ask .billing (.boundary false) else s1
    else s
  | _ => s

/-- CARRIER_LOSS_LOAD (R128): the carrier-loss counts of the EVENT slots of the active bank. -/
def doCarrierLossLoad (s : State) : State :=
  match s.run.phase with
  | .loads bl false =>
    if s.dir.work.isEmpty && s.hasRead .scanner s.lossReads then
      let m := s.seenBy .scanner
      let load (k : Fin 72) : TeleSlot :=
        { TeleSlot.cleared with
          loss := if s.active.slots[k].isEvent then bits (memWord m (s.slotBase k + 6)) 0 16 else 0 }
      { s.tookReads .scanner s.lossReads with
        scan := { s.scan with slots := Vector.ofFn load }, run := { s.run with phase := StartPhase.afterLoads bl true } }
    else s
  | _ => s

/-- SUBSCRIBER_PASS_STEP (R25). -/
def doSubscriberPassStep (s : State) : State :=
  match s.run.phase with
  | .pass i =>
    if s.orderFree && s.hasRead .orderUnit [s.readSub i] then
      let x := (s.tookRead .orderUnit).passStep i
      (x.1.push .orderUnit x.2).noTurn .orderUnit
    else s
  | _ => s

/-- LINEUP_STARTUP (R46): the active bank's header and word 5 of its slots are written, and then the pending bank's header is read.
The end of that read goes on with step 3 (`State.startPending`). R30 gives the pending bank no state in between: it is shown
NOT-LOADED until its header has been read (assumption 49). -/
def doLineupStartup (s : State) : State :=
  if s.run.phase = .lineup ∧ s.order.work = [] then
    let b := s.lineUp.active.getD 0
    let s1 := { s with lineUp := s.lineUp.setBank b .active, run := { s.run with phase := .lineupWait } }
    let s2 := (s1.protect (some b) none).ask .lineUp (.header b)
    (allSlots.foldl State.noteWord5 s2.takeBuyers).asks .lineUp (allSlots.map .word5 ++ [.readPending (Bank.other b)])
  else s

/-- The work of step 5 is done by both blocks: the reconciliation pass begins (R183). -/
def StartPhase.afterStates (scanner correlator : Bool) : StartPhase :=
  if scanner && correlator then .recon 0 else .states scanner correlator

/-- SCANNER_STARTUP (R128): the states are set and the Telemetry Block and the carrier words written whole. -/
def doScannerStartup (s : State) : State :=
  match s.run.phase with
  | .states false co =>
    let slots : Vector TeleSlot 72 := Vector.ofFn fun k => { TeleSlot.cleared with loss := s.scan.slots[k].loss }
    let s1 := { s with
      scan := { s.scan with
        mode := s.cfg.scanMode, interval := s.cfg.scanInterval, scanning := false, late := false, carrier := none,
        seqCount := 0, startMin := 0, endMin := 0, entries := Vector.replicate 8 TeleEntry.cleared, slots := slots,
        retained := [] }
      run := { s.run with phase := StartPhase.afterStates true co } }
    s1.asks .scanner ([.teleHeader] ++ (List.finRange 8).map .teleEntry ++ allSlots.map .teleSlot ++ allSlots.map .carrier)
  | _ => s

/-- OUTAGE_REBUILD (R106). -/
def doOutageRebuild (s : State) : State :=
  match s.run.phase with
  | .states sc false =>
    if s.corr.work.isEmpty then
      let w := s.rebuildList
      let s1 := s.storeCorr w
      let s2 := { s1 with run := { s1.run with phase := StartPhase.afterStates sc true } }
      s2.push .correlator (w.alarms ++ s1.rebuildWalk w)
    else s
  | _ => s

/-- The action of the reconciliation pass on a caught-up record (R156): the record, and the overlap reports of an outage
it resolves. -/
def State.reconcile (s : State) (x : SubRec) (i : Nat) (r : BillRec) : BillRec × List (Nat × Nat) :=
  let acc := r.accrue s.now s.bill.cur s.runMinute
  let leave (st : BillState) : BillRec × List (Nat × Nat) :=
    if r.state = .outage then ({ acc.resolve s.cfg.tc with state := st }, s.overlapsOf x acc)
    else ({ acc with state := st }, [])
  let a : BillRec × List (Nat × Nat) :=
    if !x.wantOn then (if r.state = .off then (r, []) else leave .off)
    else
      match x.confirmed, r.state with
      | .on, .off | .on, .awaiting =>
        if s.tapCovered i then ({ acc with state := .outage, began := s.runMinute }, [])
        else ({ acc with state := .service }, [])
      | .none, .off | .off, .off => ({ acc with state := .awaiting }, [])
      | .none, .service | .none, .outage => leave .awaiting
      | _, _ => (r, [])
  if a.1.tiers = x.tiers then a
  else ({ a.1.accrue s.now s.bill.cur s.runMinute with tiers := x.tiers }, a.2)

/-- The overlap reports of a resolution, each answered before the next is sent (R142). -/
def overlapTasks (sub : Nat) (os : List (Nat × Nat)) : List Task :=
  os.flatMap fun x => [.overlapOut sub x.1 x.2, .awaitAnswer]

/-- RECONCILIATION_STEP (R156). -/
def doReconciliationStep (s : State) : State :=
  match s.run.phase with
  | .recon i =>
    if s.mayRecon i && s.hasRead .billing (s.reconReads i) then
      let v := s.view .billing
      let x := v.subRec i
      let s := s.tookRead .billing
      if x.enrolled then
        let r := v.billRec i
        let r1 := s.bill.catchUp s.now r
        let a := s.reconcile x i r1
        (s.push .billing
          ((if a.1 = r then [] else [.burst .billing (.bill i a.1.words), .awaitWritten .billing]) ++
            overlapTasks i a.2 ++ (if s.bill.behind r = .oneEpoch then [.refreshOut i] else []) ++
            [.reconAdvance, .sweepEnd])).noTurn .billing
      else (s.push .billing [.reconAdvance, .sweepEnd]).noTurn .billing
    else s
  | _ => s

/-! ### The entry to RUNNING (R184) -/

/-- Supervision at the entry to RUNNING (R165). -/
def State.startSupervision (s : State) : State :=
  if 0 < s.cfg.heartbeat then { s with time := { s.time with supervision := Timer.start (2 * s.cfg.heartbeat) } }
  else
    let s1 := { s with time := { s.time with supervision := Timer.stopped } }
    if s.time.silent then
      State.push (State.evalContact { s1 with time := { s1.time with silent := false } }) .timeBase
        [.alarm .controllerBack .info .none (word (min 65535 (s.now - s.time.silenceMinute))) none]
    else s1

/-- The engines and roll calls of the enabled feeders start (R70, R94). -/
def State.startFeeders (s : State) : State :=
  (List.finRange 8).foldl (fun s f =>
    if s.cfg.enable.getLsbD f.val then (s.setEng f { s.eng f with state := .ready }).startRoll f else s) s

/-- The scan mode in effect takes effect with its starts (R120, R128). -/
def State.startScan (s : State) : State :=
  { s with
    scan := { s.scan with startDue := s.scan.mode != .off }
    time := { s.time with scan := if s.scan.mode = .periodic then Timer.start (2 * s.scan.interval) else Timer.stopped } }

/-- An enumeration call that was due when HALTING came lapses, and one that an outcome still to be taken would give: the loop goes
on with the next IDENTIFY (R94). -/
def Engine.noDue (x : Engine) : Engine :=
  { x with enum := x.enum.map fun en => { en with due := none, again := x.outcome.isSome } }

/-- A call whose turn has not come yet, hand-offs before it having to wait. -/
def Task.isDueCall : Task → Bool
  | .dueCall _ _ => true
  | _ => false

/-- No enumeration call that a halt has paused is due any more, nor will one become due behind hand-offs that still wait: the
loop goes on with the next IDENTIFY (R94). -/
def State.dropDueCalls (s : State) : State :=
  { s with engines := s.engines.map Engine.noDue
           dir := { s.dir with work := s.dir.work.filter fun t => !t.isDueCall } }

/-- The settings of a resume take effect (R96, R106, R114, R128, R185): supply clear reports for the SUPPLY entries that were
LOW, the entries NORMAL, the list and thresholds anew, and the undeclared runs examined. Each entry record that reads
otherwise than before gets a burst (R124). -/
def State.takeSettings (s : State) (c : Settings) : State :=
  let clears := (List.finRange 8).filterMap fun i =>
    match s.cfg.scanList[i.val]? with
    | some en =>
      if en.kind = .supply ∧ s.scan.entries[i].eval.state = .low then en.link.map fun f => Task.corrReport (.supplyClear f)
      else none
    | none => none
  let old := s.scan.entries
  let entries : Vector TeleEntry 8 := Vector.ofFn fun i =>
    if i.val < c.scanList.length then { old[i] with eval := Eval.normal, shown := .normal } else TeleEntry.cleared
  let changed := (List.finRange 8).filter fun i => entries[i].words != old[i].words
  let s1 := State.dropDueCalls
    { s with cfg := c, scan := { s.scan with entries := entries }, order := { s.order with backlog := true } }
  let s2 := s1.evalLog.asks .scanner (changed.map .teleEntry)
  let w := (List.finRange 8).foldl s2.examineUndeclared s2.corrWork
  let w := s2.fullWalk w
  ((s2.storeCorr w).push .correlator w.tasks).push .scanner clears

/-- ENTRY_TO_RUNNING (R184): RESUMED is submitted, the part is RUNNING, and the blocks take up their work. It waits while the
intake is full, and at a resume until the scan sequence that was cut has ended with its sample (R128). -/
def doEntryToRunning (s : State) : State :=
  if s.run.phase = .enter ∧ s.log.intake.length < Config.intakeDepth ∧ !(s.run.fromHalted && s.scan.scanning) then
    let s1 := (s.submit .resumed .info .none (word (s.runMinute - s.run.lastAlive)) none).1
    let s2 := { s1 with run := { s1.run with part := .running, phase := .none, result := .accepted, staged := none } }
    let s3 := match s.run.fromHalted, s.run.staged with
      | true, some c => s2.takeSettings c
      | _, _ => s2.startFeeders
    ((s3.ask .runControl .lastAlive).startSupervision).startScan.evalLog
  else s

/-! ### HALTED (R186) -/

/-- The reads of the report at the head of the Order Unit's queue have begun: it is a work item in progress (R4). -/
def State.reportBegun (s : State) : Bool := s.order.reports.head?.any fun r => s.begun .orderUnit (s.reportReads r)

/-- The four conditions of R186: no transaction on any line; no work item of the Order Unit; the Notice Queue empty, no work item
of the Billing Unit, and the sweep paused or ended; no epoch switch, the ask for its boundary being its beginning (assumption 38). A
work item whose reads have begun is in progress (assumption 7). -/
def State.blocksAtRest (s : State) : Bool :=
  (s.engines.all fun x => x.txn.isNone) && (s.orderFree && !s.reportBegun) &&
    (s.bill.queue.isEmpty && s.bill.work.isEmpty && !s.sweepBegun) && s.lineUp.ask == .none && s.lineUp.switch.isNone

/-- HALTED_ENTRY (R186). -/
def doHaltedEntry (s : State) : State :=
  if s.run.part = .halting ∧ s.blocksAtRest then { s with run := { s.run with part := .halted } } else s

/-! ### The commands of this file: each goes to the state its own effect gives -/

def execRun (w : Word) (s : State) : Answer := .next (doRun w s)
def execHalt (w : Word) (s : State) : Answer := .next (doHalt w s)
def execClearStatus (w : Word) (s : State) : Answer := .next (doClearStatus w s)
def execControlBadAction (w : Word) (s : State) : Answer := .next (doControlBadAction w s)
def execConfigurationCheck (s : State) : Answer := .next (doConfigurationCheck s)
def execDirectoryLoadEntry (s : State) : Answer := .next (doDirectoryLoadEntry s)
def execBillingLoad (s : State) : Answer := .next (doBillingLoad s)
def execCarrierLossLoad (s : State) : Answer := .next (doCarrierLossLoad s)
def execSubscriberPassStep (s : State) : Answer := .next (doSubscriberPassStep s)
def execLineupStartup (s : State) : Answer := .next (doLineupStartup s)
def execScannerStartup (s : State) : Answer := .next (doScannerStartup s)
def execOutageRebuild (s : State) : Answer := .next (doOutageRebuild s)
def execReconciliationStep (s : State) : Answer := .next (doReconciliationStep s)
def execEntryToRunning (s : State) : Answer := .next (doEntryToRunning s)
def execHaltedEntry (s : State) : Answer := .next (doHaltedEntry s)

end Sys2Proof.Machine
end

