-- ==== Sys2Proof/Machine/Time.lean ====
section
/-! DEFINITION. The Time Base's commands: ticks, minute events, time sets, heartbeats and supervision (chapter 8). -/

namespace Sys2Proof.Machine

/-- The next tick makes a minute event (R159). -/
def State.minuteDue (s : State) : Bool := s.time.clockSet && s.time.half == 119 && !s.clockHeld

/-- The schedule check, in RUNNING and HALTING (R42, R161). -/
def State.runSchedule (s : State) : State :=
  if s.run.part = .running ∨ s.run.part = .halting then s.scheduleCheck.1.push .lineUp s.scheduleCheck.2 else s

/-- The buyer counts are taken, and word 5 is written where it changed (R43). -/
def State.updateBuyers (s : State) : State :=
  if s.run.part = .running ∨ s.run.part = .halting then
    let s1 := s.takeBuyers
    (s1.staleWord5.foldl State.noteWord5 s1).asks .lineUp (s1.staleWord5.map .word5)
  else s

/-- The last-alive minute is written in RUNNING, HALTING and HALTED (R161). -/
def State.writeLastAlive (s : State) : State := if s.afterStart then s.ask .runControl .lastAlive else s

/-- The carrier-loss count, in RUNNING and HALTING (R125). -/
def State.runLoss (s : State) : State := if s.run.part = .running ∨ s.run.part = .halting then s.countLoss else s

/-- MINUTE_EVENT (R159, R161): the tick that takes the half-second count past 119. The rules leave the order of the schedule
check, the epoch check and the buyer counts at one minute event open (R42, R43): the model makes them in this order
(assumption 50). -/
def doMinuteEvent (s : State) : State :=
  if s.minuteDue then
    let s1 := { s with time := { s.time.tickTimers with half := 0, minute := s.time.minute + 1 } }
    s1.runSchedule.epochCheck.updateBuyers.runLoss.evalEscalation.writeLastAlive
  else s

/-- HALF_SECOND_TICK (R159, R160, R164): every other tick. -/
def doHalfSecondTick (s : State) : State :=
  if s.minuteDue then s
  else
    { s with time := { s.time.tickTimers with half := if s.time.clockSet then (s.time.half + 1) % 120 else s.time.half } }

/-- The clock is set (R162). -/
def State.setClock (s : State) (v : Nat) : State :=
  { s with time := { s.time with minute := v, half := 0, clockSet := true } }

def State.answerTime (s : State) (r : CmdResult) : State := { s with time := { s.time with timeResult := r } }

/-- A forward jump (R163): each block acts once at `v`. The rule gives the schedule check and the epoch check no order: the model
makes the schedule check first (assumption 50). -/
def State.forwardJump (s : State) (v : Nat) : State :=
  (s.setClock v).runSchedule.epochCheck.evalEscalation.writeLastAlive

/-- TIME_SET (R162, R163). -/
def doTimeSet (w : Word) (s : State) : State :=
  s.arrive .timeSet w fun s =>
    let v := w.toNat
    match s.run.part with
    | .idle => ((s.setClock v).answerTime .accepted).evalEscalation
    | .starting => s.answerTime .busy
    | _ =>
      if v < s.time.minute then s.answerTime .timeBackward
      else if v = s.time.minute then (s.answerTime .accepted).evalEscalation
      else (s.answerTime .accepted).forwardJump v

def State.answerBeat (s : State) (r : CmdResult) : State := { s with time := { s.time with beatResult := r } }

/-- A set controller-silent flag is cleared, with CONTROLLER BACK (R166). -/
def State.clearSilent (s : State) : State :=
  if s.time.silent then
    State.push (State.evalContact { s with time := { s.time with silent := false } }) .timeBase
      [.alarm .controllerBack .info .none (word (min 65535 (s.now - s.time.silenceMinute))) none]
  else s

/-- HEARTBEAT (R166); the value written is not read. -/
def doHeartbeat (w : Word) (s : State) : State :=
  s.arrive .heartbeat w fun s =>
    match s.run.part with
    | .idle => s.answerBeat .notRunning
    | .running =>
      let s1 := (s.answerBeat .accepted).clearSilent
      if 0 < s.cfg.heartbeat then { s1 with time := { s1.time with supervision := Timer.start (2 * s.cfg.heartbeat) } } else s1
    | _ => (s.answerBeat .accepted).clearSilent

/-- SUPERVISION_EXPIRY (R165). -/
def doSupervisionExpiry (s : State) : State :=
  if 0 < s.time.supervision.due then
    let s1 := { s with time := { s.time with supervision := s.time.supervision.take } }
    if s.time.silent then s1
    else
      State.push (State.evalContact { s1 with time := { s1.time with silent := true, silenceMinute := s.now } }) .timeBase
        [.alarm .controllerSilent .critical .none (word s.cfg.heartbeat) none]
  else s

/-! ### The commands of this file: each goes to the state its own effect gives -/

def execMinuteEvent (s : State) : Answer := .next (doMinuteEvent s)
def execHalfSecondTick (s : State) : Answer := .next (doHalfSecondTick s)
def execTimeSet (w : Word) (s : State) : Answer := .next (doTimeSet w s)
def execHeartbeat (w : Word) (s : State) : Answer := .next (doHeartbeat w s)
def execSupervisionExpiry (s : State) : Answer := .next (doSupervisionExpiry s)

end Sys2Proof.Machine
end

