-- ==== Sys2Proof/Machine/Orders.lean ====
section
/-! DEFINITION. The Order Unit's commands: arrivals, the backlog walk, the dispatch of each kind of order, the reports of its
queue, the Billing Unit's arrivals, and the notices that waited (chapter 1). -/

namespace Sys2Proof.Machine

/-- An order arrival is noted on the dispatch of its index (assumption 45). -/
def OrderUnit.noteReorder (o : OrderUnit) (i : Nat) : OrderUnit :=
  { o with
    taken := o.taken.map fun x => if x.sub = i then { x with reorder := true } else x
    work := o.work.map (Task.reordered i) }

/-- The Order Unit takes an order arrival (R5). An index whose record is being read for its dispatch, or whose dispatched order
waits for room in the Notice Queue, is taken as one in flight is (assumption 45). -/
def State.takeOrder (s : State) (i : Nat) (w : Word) : State :=
  if bits w 0 8 = 0 then s
  else if s.order.queue.contains i then s
  else if s.order.inflight.any fun x => x.sub == i then
    { s with order := { s.order with
      inflight := s.order.inflight.map fun x => if x.sub = i then { x with reorder := true } else x } }
  else if s.dispatching i then { s with order := s.order.noteReorder i }
  else s.enqueue i

/-- ORDER_ARRIVAL (R5, R171). An arrival that was raised in a start that has been refused since finds no Subscriber Table: it is
dropped. -/
def doOrderArrival (i : Nat) (w : Word) (s : State) : State :=
  if s.path.map.isSome then
    if i < s.map.ns then s.arrive (.order i) w fun s => s.takeOrder i w else s
  else if s.path.arrivals.head? = some (.order i, w) then s.arrive (.order i) w id
  else s

/-- BACKLOG_WALK_STEP (R6): one record is read. -/
def doBacklogWalkStep (s : State) : State :=
  if s.mayWalk && s.hasRead .orderUnit [s.readOrder s.walkNext] then
    let s := s.tookRead .orderUnit
    let k := s.order.walk.getD { next := 0, appended := false, full := false }
    if Config.orderQueueDepth ≤ s.order.queue.length then { s with order := { s.order with walk := none } }
    else
      let add := (s.ownRec k.next).pending && !s.knows k.next
      let q := if add then s.order.queue ++ [k.next] else s.order.queue
      let k1 : Walk := { next := k.next + 1, appended := k.appended || add, full := k.full }
      let o := { s.order with queue := q }
      if Config.orderQueueDepth ≤ q.length then { s with order := { o with walk := none } }
      else if k1.next < s.map.ns then { s with order := { o with walk := some k1 } }
      else if k1.appended || k1.full then
        { s with order := { o with walk := some { next := 0, appended := false, full := false } } }
      else { s with order := { o with walk := none, backlog := false } }
  else s

/-! ### Dispatch (R7) -/

/-- The dispatch of an index has begun, and the last of the reads that it takes ends (R7). -/
def State.dispatchReady (s : State) (i : Nat) : Bool := s.hasRead .orderUnit (s.dispatchReads i)

/-- The reads of the dispatch have been made. -/
def State.endDispatch (s : State) : State :=
  let s1 := s.tookRead .orderUnit
  { s1 with order := { s1.order with taken := none } }

/-- A dispatch that ends at once, and of whose index an arrival came meanwhile, puts the index back as a reordered completion does
(R9; assumption 45). -/
def State.putBack (s : State) (x : Dispatch) : State := if x.reorder then s.enqueue x.sub else s

/-- An accepted order: its notices are handed, and its changes follow (R7, R24). -/
def State.acceptOrder (s : State) (kind : OrderKind) (x : Dispatch) (r : SubRec) (notices : List NoticeKind)
    (entry : Option EntryId) : State :=
  s.push .orderUnit
    (notices.map (fun n => Task.notice (.notice x.sub n s.now)) ++
      [.applyOrder
        { kind := kind, sub := x.sub, record := r, minute := s.now, entry := entry, reorder := x.reorder }])

/-- The dispatch of an order of one kind (R7): the index taken from the queue, when its record is pending with that kind. -/
def State.dispatch (s : State) (kind : OrderKind) : State :=
  match s.order.taken with
  | none => s
  | some x =>
    let r := s.dispatched x.sub
    if s.dispatchReady x.sub && r.pending && r.okind == kind.code then
      let s1 := s.endDispatch
      State.noTurn
        (if kind ≠ .enrol ∧ r.enrolled = false then (s1.refuse x.sub r .notEnrolled).putBack x
         else
           match (s.view .orderUnit).judge kind x.sub r with
           | .refused res => (s1.refuse x.sub r res).putBack x
           | .accepted notices entry => s1.acceptOrder kind x r notices entry) .orderUnit
    else s

/-- BAD_ORDER (R7): a kind outside 1–9 is refused, and a record that is no longer pending ends its dispatch. -/
def doBadOrder (s : State) : State :=
  match s.order.taken with
  | none => s
  | some x =>
    let r := s.dispatched x.sub
    if s.dispatchReady x.sub then
      if !r.pending then s.endDispatch.putBack x
      else if r.okind < 1 ∨ 9 < r.okind then ((s.endDispatch.refuse x.sub r .badOrder).putBack x).noTurn .orderUnit
      else s
    else s

/-- ENROL (R10). -/
def doEnrol (s : State) : State := s.dispatch .enrol
/-- CONNECT (R11). -/
def doConnect (s : State) : State := s.dispatch .connect
/-- DISCONNECT (R12). -/
def doDisconnect (s : State) : State := s.dispatch .disconnect
/-- RETIER (R13). -/
def doRetier (s : State) : State := s.dispatch .retier
/-- MOVE (R14). -/
def doMove (s : State) : State := s.dispatch .move
/-- BUY (R15). -/
def doBuy (s : State) : State := s.dispatch .buy
/-- CANCEL (R16). -/
def doCancel (s : State) : State := s.dispatch .cancel
/-- AUDIT (R18). -/
def doAudit (s : State) : State := s.dispatch .audit
/-- REMOVE (R17). -/
def doRemove (s : State) : State := s.dispatch .remove

/-! ### Reports (R4, R8, R19–R22) -/

/-- A step of the Order Unit with the reads of a plan begins: the last of them ends, or, of a step without reads, the read that the
block presents for another step keeps its place (R176). -/
def State.orderStep (s : State) (plan : List ReadReq) : State :=
  if plan.isEmpty then s.keepTurn .orderUnit else s.tookRead .orderUnit

/-- The oldest report is taken as a work item when the Order Unit has none, at the end of the last of its reads: `g` gives its
effect and its tasks. Blocks that waited for room in the report queue go on. -/
def State.takeReport (s : State) (g : OrderReport → State → Option (State × List Task)) : State :=
  match s.order.reports with
  | [] => s
  | r :: rest =>
    let plan := s.reportReads r
    if s.orderFree && s.hasRead .orderUnit plan then
      match g r { s.orderStep plan with order := { s.order with reports := rest } } with
      | some (s1, ts) => (s1.push .orderUnit ts).settle.stepMade .orderUnit plan
      | none => s
    else s

/-- TRANSACTION_REPORT (R8): a start arms, an outcome completes; an OK SET PORT is the confirmation's. -/
def doTransactionReport (s : State) : State :=
  s.takeReport fun r s =>
    match r with
    | .start cmd e p before => some (s.armFlights cmd e p before, [])
    | .outcome .read e _ (.readOk ports) => some (s.auditResults e ports, [])
    | .outcome .read e _ _ => some (s.failFlights fun x => x.armed && x.auditOf e, [])
    | .outcome .setPort e p .failed => some (s.failFlights fun x => x.armed && x.onPort e p, [])
    | _ => none

/-- CONFIRMATION (R19): an OK SET PORT. -/
def doConfirmation (s : State) : State :=
  s.takeReport fun r s =>
    match r with
    | .outcome .setPort e p (.setOk answer minute) => some (s.confirmUnclaimed e p, s.confirmTasks e p answer minute)
    | _ => none

/-- LOST_TAP_REPORT (R8). -/
def doLostTapReport (s : State) : State :=
  s.takeReport fun r s =>
    match r with
    | .lostTap e => some (s.lostTap e, [])
    | _ => none

/-- BLOCKED_REPORT (R68). -/
def doBlockedReport (s : State) : State :=
  s.takeReport fun r s =>
    match r with
    | .blocked f => some (s.feederBlockedOrders f, [])
    | _ => none

/-- EVENT_START_REPORT (R20). -/
def doEventStartReport (s : State) : State :=
  s.takeReport fun r s =>
    match r with
    | .eventStart id _ => some (s, s.startWalk id)
    | _ => none

/-- EVENT_END_REPORT (R21). -/
def doEventEndReport (s : State) : State :=
  s.takeReport fun r s =>
    match r with
    | .eventEnd id minute => some (s, s.endWalk id minute false)
    | _ => none

/-- EVENT_DROP_REPORT (R22). -/
def doEventDropReport (s : State) : State :=
  s.takeReport fun r s =>
    match r with
    | .eventDrop id minute => some (s, s.endWalk id minute true)
    | _ => none

/-! ### Billing arrivals (R23) -/

/-- The oldest arrival of the Billing Unit is taken, also between the steps of a work item, at the end of its read. -/
def State.takeBilling (s : State) (g : BillArrival → State → Option State) : State :=
  match s.order.billing with
  | [] => s
  | a :: rest =>
    let plan := s.arrivalReads a
    if s.hasRead .orderUnit plan then
      ((g a { s.orderStep plan with order := { s.order with billing := rest } }).map
        fun t => t.stepMade .orderUnit plan).getD s
    else s

/-- OVERLAP_REPORT (R23). -/
def doOverlapReport (s : State) : State :=
  s.takeBilling fun a s =>
    match a with
    | .overlap sub event minutes => some (s.takeOverlap sub event minutes)
    | _ => none

/-- SETTLE_ANSWER (R23). -/
def doSettleAnswer (s : State) : State :=
  s.takeBilling fun a s =>
    match a with
    | .settle sub event => some (s.takeSettle sub event)
    | _ => none

/-- REFRESH_REQUEST (R23): for a subscriber with a claim words 2–4 of its record are read, and the wanted state is computed
(R44). -/
def doRefreshRequest (s : State) : State :=
  s.takeBilling fun a s =>
    match a with
    | .refresh sub => some (s.recompute sub)
    | _ => none

/-! ### Notices that waited (R24, R132) -/

/-- A registration of the Billing Unit's own that waited enters the queue (R147). -/
def State.handRegistration (s : State) : State :=
  match s.bill.regWait with
  | some q => { s.keepTurn .billing with bill := { s.bill with queue := s.bill.queue ++ [q], regWait := none } }
  | none => s

/-- NOTICE_HANDED (R132): the block's waiting notice enters the queue, and its work goes on. -/
def doNoticeHanded (b : Blk) (s : State) : State :=
  if s.bill.queue.length < Config.noticeDepth then
    if b = .billing then s.handRegistration
    else
      match s.workOf b with
      | .notice _ :: _ => s.resumeWork b
      | _ => s
  else s

/-! ### The commands of this file: each goes to the state its own effect gives -/

def execOrderArrival (i : Nat) (w : Word) (s : State) : Answer := .next (doOrderArrival i w s)
def execBacklogWalkStep (s : State) : Answer := .next (doBacklogWalkStep s)
def execBadOrder (s : State) : Answer := .next (doBadOrder s)
def execEnrol (s : State) : Answer := .next (doEnrol s)
def execConnect (s : State) : Answer := .next (doConnect s)
def execDisconnect (s : State) : Answer := .next (doDisconnect s)
def execRetier (s : State) : Answer := .next (doRetier s)
def execMove (s : State) : Answer := .next (doMove s)
def execBuy (s : State) : Answer := .next (doBuy s)
def execCancel (s : State) : Answer := .next (doCancel s)
def execAudit (s : State) : Answer := .next (doAudit s)
def execRemove (s : State) : Answer := .next (doRemove s)
def execTransactionReport (s : State) : Answer := .next (doTransactionReport s)
def execConfirmation (s : State) : Answer := .next (doConfirmation s)
def execLostTapReport (s : State) : Answer := .next (doLostTapReport s)
def execBlockedReport (s : State) : Answer := .next (doBlockedReport s)
def execEventStartReport (s : State) : Answer := .next (doEventStartReport s)
def execEventEndReport (s : State) : Answer := .next (doEventEndReport s)
def execEventDropReport (s : State) : Answer := .next (doEventDropReport s)
def execOverlapReport (s : State) : Answer := .next (doOverlapReport s)
def execSettleAnswer (s : State) : Answer := .next (doSettleAnswer s)
def execRefreshRequest (s : State) : Answer := .next (doRefreshRequest s)
def execNoticeHanded (b : Blk) (s : State) : Answer := .next (doNoticeHanded b s)

end Sys2Proof.Machine
end

