-- ==== Sys2Proof/Machine/LineUp.lean ====
section
/-! DEFINITION. The Line-up Unit's commands: the commit word, validation and the epoch switch (chapter 2). -/

namespace Sys2Proof.Machine

def State.answerCommit (s : State) (r : CmdResult) : State := { s with lineUp := { s.lineUp with result := r } }

/-- A commit arrival judged by the part state (R32); `judged` is taken in RUNNING, HALTING and HALTED. -/
def State.commitArrival (s : State) (judged : State → State) : State :=
  match s.run.part with
  | .idle => s.answerCommit .notRunning
  | .starting => s.answerCommit .busy
  | _ => judged s

/-- The bank a commit word names. -/
def commitBank (w : Word) : Option Bank := if bankField w = 0 then some 0 else if bankField w = 1 then some 1 else none

/-- An accepted COMMIT (R33). -/
def State.startValidation (s : State) (b : Bank) : State :=
  let s1 := { s with lineUp := { s.lineUp.setBank b .validating with result := .accepted } }
  (s1.ask .lineUp (.header b)).readPart
    { bank := b, part := 0, edited := false, minute := 0, plan := Vector.replicate 8 BandPlan.closed, slots := [],
      startup := false }

/-- COMMIT (R32, R33). -/
def doCommit (w : Word) (s : State) : State :=
  if actionCode w = 1 then
    s.arrive .commit w fun s =>
      s.commitArrival fun s =>
        match commitBank w with
        | none => s.answerCommit .badAction
        | some b =>
          match s.lineUp.bankState[b] with
          | .active => s.answerCommit .notPendingBank
          | .sealed => s.answerCommit .alreadySealed
          | .validating => s.answerCommit .busy
          | _ => s.startValidation b
  else s

/-- An accepted WITHDRAW (R36). -/
def State.withdrawBank (s : State) (b : Bank) : State :=
  let l := { (s.lineUp.setBank b .editable).setResult b .withdrawn none with epoch := .none, result := .accepted }
  (State.protect { s with lineUp := l } s.path.protActive none).ask .lineUp (.header b)

/-- WITHDRAW (R32, R36). -/
def doWithdraw (w : Word) (s : State) : State :=
  if actionCode w = 2 then
    s.arrive .commit w fun s =>
      s.commitArrival fun s =>
        match commitBank w with
        | none => s.answerCommit .badAction
        | some b =>
          match s.lineUp.bankState[b] with
          | .active => s.answerCommit .notPendingBank
          | .sealed => if s.lineUp.switching then s.answerCommit .busy else s.withdrawBank b
          | _ => s.answerCommit .nothingSealed
  else s

/-- COMMIT_BAD_ACTION (R32): another action, or a bank that is neither 0 nor 1. -/
def doCommitBadAction (w : Word) (s : State) : State :=
  if (actionCode w = 1 ∨ actionCode w = 2) ∧ commitBank w ≠ none then s
  else s.arrive .commit w fun s => s.commitArrival fun s => s.answerCommit .badAction

/-- VALIDATION_BURST (R33–R35): the read burst of the validated bank that holds the port ends. -/
def doValidationBurst (s : State) : State :=
  match s.path.port with
  | .burst _ (.readBank _ _) _ _ false => s.completeBurst
  | _ => s

/-- EPOCH_SWITCH (R39): the boundary has been taken; the last part of the sealed bank is read into the staging copy, and the bursts of steps 2
and 3 are asked for. Step 3 comes with the end of the anchor burst. -/
def doEpochSwitch (s : State) : State :=
  match s.lineUp.ask, s.lineUp.active with
  | .answered m, some a =>
    if s.lineUp.switch.isNone && s.hasRead .lineUp (s.bankReads (Bank.other a)) then
      let b := Bank.other a
      let w : Switch := { bank := b, minute := m, staging := (s.view .lineUp).readCopy b m, made := false }
      let s := s.tookRead .lineUp
      State.asks { s with lineUp := { s.lineUp with ask := .none, switch := some w } } .lineUp [.prevRates, .switchAnchor]
    else s
  | _, _ => s

/-! ### The commands of this file: each goes to the state its own effect gives -/

def execCommit (w : Word) (s : State) : Answer := .next (doCommit w s)
def execWithdraw (w : Word) (s : State) : Answer := .next (doWithdraw w s)
def execCommitBadAction (w : Word) (s : State) : Answer := .next (doCommitBadAction w s)
def execValidationBurst (s : State) : Answer := .next (doValidationBurst s)
def execEpochSwitch (s : State) : Answer := .next (doEpochSwitch s)

end Sys2Proof.Machine
end

