-- ==== Sys2Proof/Machine/Line.lean ====
section
/-! DEFINITION. The Feeder Engines' commands: transactions, attempts, answers, line faults and the blocked-line check
(chapter 3). -/

namespace Sys2Proof.Machine

/-! ### The start of a transaction (R58, R69) -/

/-- A READY engine may choose work: RUNNING, nothing of its last transaction open, no request held, no submission of its own
waiting (R67). It waits until the Tap Directory has taken the outcome of its last transaction, of which R62 and R69 say nothing
(assumption 55). -/
def State.mayChoose (s : State) (f : Feeder) : Bool :=
  let x := s.eng f
  s.run.part == .running && x.state == .ready && x.txn.isNone && x.outcome.isNone && !x.quiet && x.work.isEmpty &&
    x.request.isNone

/-- An ENUMERATING engine may begin a call that is due, or one that a halt paused go on (R58, R70, R94). -/
def State.mayGoOnEnum (s : State) (f : Feeder) : Bool :=
  let x := s.eng f
  s.run.part == .running && x.state == .enumerating && x.txn.isNone && x.outcome.isNone && !x.quiet && x.work.isEmpty &&
    s.dir.work.isEmpty

/-- The start report to the Order Unit (R8, R58). -/
def State.startReport (s : State) (cmd : TapCmd) (e : EntryId) (p : Port) : State :=
  { s with order := { s.order with reports := s.order.reports ++ [.start cmd e p s.order.nextSeq] } }

/-- The position of an entry on its feeder. -/
def State.posOf (s : State) (e : EntryId) : Nat := ((s.entry e).place.map (·.pos)).getD 0

/-- The engine goes to TALKING with a transaction (R58). -/
def State.talk (s : State) (f : Feeder) (t : Txn) (mark : Bool) : State :=
  s.setEng f ({ s.eng f with state := .talking }.begin t mark)

/-- The chosen work becomes a transaction: the wanted state as it stands, the re-application mark cleared, the start report
handed (R58, R69, R73). -/
def State.startWork (s : State) (f : Feeder) (mark : Bool) : WorkChoice → State
  | .setPort e p =>
    let w := (s.tapPort e p).wanted
    let s1 := s.setTapPort e p { s.tapPort e p with reapply := false }
    (s1.startReport .setPort e p).talk f
      (newTxn .setPort (s.posOf e) e p w false (setPortPayload p w) s.cfg.attempts) mark
  | .read e paced =>
    let s1 := if paced then s.startPaced f else s
    (s1.startReport .read e 0).talk f (newTxn .read (s.posOf e) e 0 PortState.off false [] s.cfg.attempts) mark
  | .probe =>
    let s1 := s.setRoll f { s.roll f with probeOwed := false }
    s1.talk f (newTxn .identify 0 0 0 PortState.off true [] 1) mark

/-- The start report of the work needs room in the Order Unit's report queue (R4). -/
def State.reportRoom (s : State) : WorkChoice → Bool
  | .probe => true
  | _ => decide (s.order.reports.length < Config.orderReportDepth)

/-- The call an enumeration goes on with: the one that is due, else a FORGET not yet sent, else IDENTIFY (R88, R89, R94). -/
def Enum.nextCall (en : Enum) : TapCmd :=
  en.due.getD (if en.mode = .fresh ∧ en.forgot = false then .forget else .identify)

/-- TRANSACTION_START (R58, R69): `mark` is the level of the receive line. -/
def doTransactionStart (f : Feeder) (mark : Bool) (s : State) : State :=
  if s.mayChoose f then
    match s.workChoice f with
    | some c => if s.reportRoom c then s.startWork f mark c else s
    | none => s
  else if s.mayGoOnEnum f then
    match (s.eng f).enum with
    | some en => (s.setEng f { s.eng f with mark := mark }).beginCall f en.nextCall
    | none => s
  else s

/-! ### Attempts (R58–R62) -/

/-- COLLISION (R59). -/
def doCollision (f : Feeder) (s : State) : State := s.onPhase f .calling fun x t => x.failAttempt t .collision

/-- CALL_SENT (R60). -/
def doCallSent (f : Feeder) (s : State) : State :=
  s.onPhase f .calling fun x t => { x with txn := some { t with phase := .awaiting, rx := [] }, watch := 0, monitor := 0 }

/-- ANSWER_START_BIT (R60): the latency in whole bit times. A start bit with latency 0 or 1 is EARLY for FORGET too, where R60's
paragraph on FORGET gives BAD-ANSWER for one in the window (assumption 66). -/
def doAnswerStartBit (f : Feeder) (latency : Nat) (s : State) : State :=
  s.onPhase f .awaiting fun x t =>
    if latency ≤ 1 then x.failAttempt { t with latency := latency } .early
    else if s.cfg.window < latency then x
    else if t.cmd = .forget then x.failAttempt { t with latency := latency } .badAnswer
    else { x with txn := some { t with phase := .receiving, latency := min 255 latency, rx := [] }, mark := false }

/-- ANSWER_WINDOW_EXPIRY (R60). -/
def doAnswerWindowExpiry (f : Feeder) (s : State) : State :=
  s.onPhase f .awaiting fun x t => if t.cmd = .forget then x.endOk t [] else x.failAttempt t .noAnswer

/-- ANSWER_CHARACTER (R49, R61): a character and the level of its stop bit, as `receiveChar` gives them. -/
def doAnswerCharacter (f : Feeder) (c : Byte) (stopMark : Bool) (s : State) : State :=
  s.onPhase f .receiving fun x t =>
    if stopMark then
      let rx := t.rx ++ [c]
      { x with txn := some { t with rx := rx, phase := if rx.length = t.cmd.expected then .tail else .receiving },
               mark := true, watch := 0 }
    else x.failAttempt t .badAnswer

/-- ANSWER_CHARACTER_TIMEOUT (R61): 20 bit times without the next expected character. -/
def doAnswerCharacterTimeout (f : Feeder) (s : State) : State :=
  s.onPhase f .receiving fun x t => if t.rx.isEmpty then x else x.failAttempt t .badAnswer

/-- ANSWER_TAIL_START_BIT (R61). -/
def doAnswerTailStartBit (f : Feeder) (s : State) : State := s.onPhase f .tail fun x t => x.failAttempt t .badAnswer

/-- ANSWER_TAIL_END (R52, R54, R61, R62). -/
def doAnswerTailEnd (f : Feeder) (s : State) : State :=
  s.onPhase f .tail fun x t =>
    if answerCrcGood t.addr t.rx && gateGood t.cmd t.rx then x.endOk t (t.rx.drop 1).dropLast
    else x.failAttempt t .badAnswer

/-- ATTEMPT_GAP_END (R62): the next attempt begins, or the engine returns to READY after its last one. -/
def doAttemptGapEnd (f : Feeder) (mark : Bool) (s : State) : State :=
  let x := s.eng f
  match x.txn with
  | some t =>
    if t.phase = .gap then
      if t.ended then s.setEng f { x with txn := none, state := if x.state = .talking then .ready else x.state }
      else s.setEng f (x.begin { t with attempt := t.attempt + 1, rx := [] } mark)
    else s
  | none => s.setEng f { x with quiet := false }

/-- RECEIVE_LINE_TO_MARK (R58, R65): the line watch starts afresh, and an attempt that waited for mark begins. -/
def doReceiveLineToMark (f : Feeder) (s : State) : State :=
  let x := { s.eng f with mark := true, watch := 0 }
  match x.txn with
  | some t => if t.phase = .waitMark then s.setEng f { x with txn := some { t with phase := .calling } } else s.setEng f x
  | none => s.setEng f x

/-! ### Line faults (R65–R68) -/

/-- The states in which an engine can go to BLOCKED (R57). -/
def EngState.live : EngState → Bool
  | .ready | .talking | .enumerating => true
  | _ => false

/-- The engine enters BLOCKED (R67), with the alarm given: the transaction and the enumeration in progress end, and the
blocked-line check timer is started. The Tap Directory makes the hand-offs of the first step, behind those it has still to
make; then the engine hands its blocked report and submits its alarm, in this order (assumption 27). -/
def State.blockFeeder (s : State) (f : Feeder) (cut : Bool) (alarm : Task) : State :=
  let h := s.takeHanded f
  let x := h.1.eng f
  let s1 := (h.1.setEng f (x.blocked s.now cut)).setBlockedCheck f (Timer.start Config.blockedCheckTicks)
  let r := s1.blockEnum f x
  (r.1.pushCalls (h.2 ++ x.blockedOutcome ++ r.2 ++ [.blockedOver f])).push (.engine f)
    [.awaitBlocked f, .orderReport (.blocked f), alarm]

/-- The engine is driving the line. -/
def Engine.driving (x : Engine) : Bool :=
  match x.txn with
  | some t => t.phase == .calling
  | none => false

/-- LINE_STUCK (R65, R67): the line watch has passed 64 bit times at space. -/
def doLineStuck (f : Feeder) (s : State) : State :=
  if s.inService && (s.eng f).state.live && !(s.eng f).driving then
    s.blockFeeder f false (.alarm .feederBlocked .critical (.feeder f) 0 none)
  else s

/-- The command code of the call being sent. -/
def Engine.callCode (x : Engine) : Nat := (x.txn.map fun t => t.cmd.code).getD 0

/-- TRANSMITTER_FAULT (R66, R67): the transmit monitor has passed 200 bit times. -/
def doTransmitterFault (f : Feeder) (s : State) : State :=
  if s.inService && (s.eng f).state.live && (s.eng f).driving then
    s.blockFeeder f true (.alarm .transmitterFault .critical (.feeder f) (word (s.eng f).callCode) none)
  else s

/-- BLOCKED_LINE_CHECK_EXPIRY (R67): the engine watches its line. -/
def doBlockedLineCheckExpiry (f : Feeder) (s : State) : State :=
  if 0 < s.time.blockedCheck[f].due ∧ (s.eng f).state = .blocked then
    (s.setBlockedCheck f s.time.blockedCheck[f].take).setEng f { s.eng f with checking := true }
  else s

/-- BLOCKED_LINE_CHECK_SPACE (R67): a space ends the check. -/
def doBlockedLineCheckSpace (f : Feeder) (s : State) : State :=
  if (s.eng f).checking then s.setEng f { s.eng f with checking := false, mark := false } else s

/-- FEEDER_CLEAR (R67, R85): 64 bit times at mark. -/
def doFeederClear (f : Feeder) (s : State) : State :=
  let x := s.eng f
  if x.checking && x.state == .blocked then
    let s1 := s.setEng f { x with state := .ready, checking := false, cut := false, mark := true, watch := 0 }
    ((s1.setBlockedCheck f Timer.stopped).verifyFeeder f).push (.engine f)
      [.alarm .feederClear .info (.feeder f) (word (min 65535 (s.now - x.blockedSince))) none]
  else s

/-! ### The commands of this file: each goes to the state its own effect gives -/

def execTransactionStart (f : Feeder) (mark : Bool) (s : State) : Answer := .next (doTransactionStart f mark s)
def execCollision (f : Feeder) (s : State) : Answer := .next (doCollision f s)
def execCallSent (f : Feeder) (s : State) : Answer := .next (doCallSent f s)
def execAnswerStartBit (f : Feeder) (latency : Nat) (s : State) : Answer := .next (doAnswerStartBit f latency s)
def execAnswerWindowExpiry (f : Feeder) (s : State) : Answer := .next (doAnswerWindowExpiry f s)
def execAnswerCharacter (f : Feeder) (c : Byte) (stopMark : Bool) (s : State) : Answer := .next (doAnswerCharacter f c stopMark s)
def execAnswerCharacterTimeout (f : Feeder) (s : State) : Answer := .next (doAnswerCharacterTimeout f s)
def execAnswerTailStartBit (f : Feeder) (s : State) : Answer := .next (doAnswerTailStartBit f s)
def execAnswerTailEnd (f : Feeder) (s : State) : Answer := .next (doAnswerTailEnd f s)
def execAttemptGapEnd (f : Feeder) (mark : Bool) (s : State) : Answer := .next (doAttemptGapEnd f mark s)
def execReceiveLineToMark (f : Feeder) (s : State) : Answer := .next (doReceiveLineToMark f s)
def execLineStuck (f : Feeder) (s : State) : Answer := .next (doLineStuck f s)
def execTransmitterFault (f : Feeder) (s : State) : Answer := .next (doTransmitterFault f s)
def execBlockedLineCheckExpiry (f : Feeder) (s : State) : Answer := .next (doBlockedLineCheckExpiry f s)
def execBlockedLineCheckSpace (f : Feeder) (s : State) : Answer := .next (doBlockedLineCheckSpace f s)
def execFeederClear (f : Feeder) (s : State) : Answer := .next (doFeederClear f s)

end Sys2Proof.Machine
end

