-- ==== Sys2Proof/Machine/Taps.lean ====
section
/-! DEFINITION. The Tap Directory's commands: outcomes, the roll call and enumeration (chapter 4). -/

namespace Sys2Proof.Machine

/-! ### Outcomes of READ and SET PORT (R74–R79) -/

/-- The outcome an engine has handed is taken when the directory has no work in progress, by the command whose outcome it is
(`mine`). `mark` is the level of the line for an enumeration's next call. -/
def State.takeOutcome (s : State) (f : Feeder) (mark : Bool) (mine : Outcome → Bool) : State :=
  match (s.eng f).outcome with
  | none => s
  | some o =>
    if s.dir.work.isEmpty && mine o then
      let r := (s.setEng f { s.eng f with outcome := none, mark := mark }).outcomeEffect f o
      r.1.pushCalls r.2
    else s

/-- The outcome is OK. -/
def Outcome.isOk (o : Outcome) : Bool :=
  match o.res with
  | .ok _ _ _ _ _ => true
  | .failed _ => false

/-- An outcome of a command to a placed tap. -/
def Outcome.ofTap (o : Outcome) (cmd : TapCmd) : Bool := !o.probe && o.cmd == cmd

/-- READ_OUTCOME_OK (R78): a serial that differs makes it FAILED with BAD-ANSWER. -/
def doReadOutcomeOk (f : Feeder) (s : State) : State :=
  s.takeOutcome f (s.eng f).mark fun o => o.ofTap .read && o.isOk && s.isCurrent f o

/-- SET_PORT_OUTCOME_OK (R79). -/
def doSetPortOutcomeOk (f : Feeder) (s : State) : State :=
  s.takeOutcome f (s.eng f).mark fun o => o.ofTap .setPort && o.isOk && s.isCurrent f o

/-- OUTCOME_FAILED (R76). -/
def doOutcomeFailed (f : Feeder) (s : State) : State :=
  s.takeOutcome f (s.eng f).mark fun o => !o.probe && o.toTap && !o.isOk && s.isCurrent f o

/-- STALE_OUTCOME (R74): nothing changes in the entry, and the Order Unit is handed a FAILED outcome. -/
def doStaleOutcome (f : Feeder) (s : State) : State :=
  s.takeOutcome f (s.eng f).mark fun o => !o.probe && o.toTap && !s.isCurrent f o

/-! ### The roll call (R83, R84) -/

/-- PACING_TIMER_EXPIRY (R83). -/
def doPacingTimerExpiry (f : Feeder) (s : State) : State :=
  if 0 < s.time.pacing[f].due then
    (s.setPacing f s.time.pacing[f].take).advanceRoll f false
  else s

/-- PROBE_OUTCOME (R63, R84, R93): an OK serial starts an EXTEND step; anything else returns the engine to READY. -/
def doProbeOutcome (f : Feeder) (mark : Bool) (s : State) : State := s.takeOutcome f mark fun o => o.probe

/-! ### The enumerate word (R86) -/

def State.answerEnum (s : State) (r : CmdResult) : State := { s with dir := { s.dir with result := r } }

/-- A feeder that cannot take a request (R86.2). -/
def State.enumRefused (s : State) (f : Feeder) : Bool :=
  let x := s.eng f
  x.state == .off || x.state == .blocked || x.state == .enumerating || x.request.isSome

/-- An enumerate arrival (R86); `mode` is none for a word of neither mode. -/
def State.enumArrival (s : State) (w : Word) (mode : Option EnumMode) : State :=
  match s.run.part with
  | .idle | .halting | .halted => s.answerEnum .notRunning
  | .starting => s.answerEnum .busy
  | .running =>
    match mode, enumFeeders w with
    | none, _ => s.answerEnum .badAction
    | some _, [] => s.answerEnum .badAction
    | some m, fs =>
      if fs.any s.enumRefused then s.answerEnum .feeder
      else if m = .fresh ∧ fs.any s.openOutageOn then s.answerEnum .outageOpen
      else (fs.foldl (fun s f => s.setEng f { s.eng f with request := some m }) s).answerEnum .accepted

/-- ENUMERATE_FRESH (R86). -/
def doEnumerateFresh (w : Word) (s : State) : State :=
  if enumModeField w = 1 then s.arrive .enumerate w fun s => s.enumArrival w (some .fresh) else s

/-- ENUMERATE_EXTEND (R86). -/
def doEnumerateExtend (w : Word) (s : State) : State :=
  if enumModeField w = 2 then s.arrive .enumerate w fun s => s.enumArrival w (some .extend) else s

/-- ENUMERATE_BAD_ACTION (R86): another mode, or an empty feeder set. -/
def doEnumerateBadAction (w : Word) (s : State) : State :=
  if (enumModeField w = 1 ∨ enumModeField w = 2) ∧ enumFeeders w ≠ [] then s
  else s.arrive .enumerate w fun s => s.enumArrival w none

/-- ENUMERATION_REQUEST_TAKEN (R87): by an engine in READY; an outage now open abandons a FRESH. The engine takes it once the
directory has taken its last outcome and has made its hand-offs, where R87 speaks of the moment at which the engine would return to
READY (assumption 55). -/
def doEnumerationRequestTaken (f : Feeder) (mark : Bool) (s : State) : State :=
  let x := s.eng f
  if s.run.part = .running ∧ x.state = .ready ∧ x.txn = none ∧ x.outcome = none ∧ x.quiet = false ∧ x.work = [] ∧
      s.dir.work = [] then
    match x.request with
    | none => s
    | some m =>
      if m = .fresh ∧ s.openOutageOn f then
        (s.setEng f { x with request := none }).push .directory [enumDone f 0 .outageOpen]
      else
        let b := (s.setEng f { x with mark := mark }).beginEnum f m
        b.1.pushCalls (b.2 ++ [.beginCall f (if m = .fresh then .forget else .identify)])
  else s

/-! ### Outcomes of enumeration calls (R88–R92) -/

/-- The outcome of an enumeration call is taken. -/
def State.takeEnumOutcome (s : State) (f : Feeder) (cmd : TapCmd) (mark : Bool) : State :=
  s.takeOutcome f mark fun o => (s.eng f).enum.isSome && !o.probe && o.cmd == cmd

/-- FORGET_OUTCOME (R88). -/
def doForgetOutcome (f : Feeder) (mark : Bool) (s : State) : State := s.takeEnumOutcome f .forget mark

/-- ENUM_IDENTIFY_OUTCOME (R89, R90). -/
def doEnumIdentifyOutcome (f : Feeder) (mark : Bool) (s : State) : State := s.takeEnumOutcome f .identify mark

/-- ASSIGN_OUTCOME (R90, R91): a wrong echo is ASSIGN-FAILED. -/
def doAssignOutcome (f : Feeder) (mark : Bool) (s : State) : State := s.takeEnumOutcome f .assign mark

/-! ### The commands of this file: each goes to the state its own effect gives -/

def execReadOutcomeOk (f : Feeder) (s : State) : Answer := .next (doReadOutcomeOk f s)
def execSetPortOutcomeOk (f : Feeder) (s : State) : Answer := .next (doSetPortOutcomeOk f s)
def execOutcomeFailed (f : Feeder) (s : State) : Answer := .next (doOutcomeFailed f s)
def execStaleOutcome (f : Feeder) (s : State) : Answer := .next (doStaleOutcome f s)
def execPacingTimerExpiry (f : Feeder) (s : State) : Answer := .next (doPacingTimerExpiry f s)
def execProbeOutcome (f : Feeder) (mark : Bool) (s : State) : Answer := .next (doProbeOutcome f mark s)
def execEnumerateFresh (w : Word) (s : State) : Answer := .next (doEnumerateFresh w s)
def execEnumerateExtend (w : Word) (s : State) : Answer := .next (doEnumerateExtend w s)
def execEnumerateBadAction (w : Word) (s : State) : Answer := .next (doEnumerateBadAction w s)
def execEnumerationRequestTaken (f : Feeder) (mark : Bool) (s : State) : Answer := .next (doEnumerationRequestTaken f mark s)
def execForgetOutcome (f : Feeder) (mark : Bool) (s : State) : Answer := .next (doForgetOutcome f mark s)
def execEnumIdentifyOutcome (f : Feeder) (mark : Bool) (s : State) : Answer := .next (doEnumIdentifyOutcome f mark s)
def execAssignOutcome (f : Feeder) (mark : Bool) (s : State) : Answer := .next (doAssignOutcome f mark s)

end Sys2Proof.Machine
end

