-- ==== Sys2Proof/Machine/Alarm.lean ====
section
/-! DEFINITION. The Alarm Unit's commands: the reports to the correlator, the intake, the log and the log consumer word
(chapter 5). -/

namespace Sys2Proof.Machine

/-- The oldest report is taken when the correlator has none in hand (R98): `g` gives the changed list, and the state with
the report's own counts and marks. Blocks that waited for room in the report queue go on. -/
def State.takeCorr (s : State) (g : CorrReport → State → Option (State × CorrWork)) : State :=
  match s.corr.reports with
  | [] => s
  | r :: rest =>
    if s.corr.work.isEmpty then
      match g r { s with corr := { s.corr with reports := rest } } with
      | some (s1, w) => ((s1.storeCorr w).push .correlator w.tasks).settle
      | none => s
    else s

/-- LOST_REPORT (R100). -/
def doLostReport (s : State) : State :=
  s.takeCorr fun r s =>
    match r with
    | .lost e _ _ _ => some (s, s.corrLost e)
    | _ => none

/-- RETURN_REPORT (R101). -/
def doReturnReport (s : State) : State :=
  s.takeCorr fun r s =>
    match r with
    | .back e f pos minute => some (s, s.corrReturn e f pos minute)
    | _ => none

/-- VACATE_REPORT (R103). -/
def doVacateReport (s : State) : State :=
  s.takeCorr fun r s =>
    match r with
    | .vacate e f pos minute wasLost => some (s, s.corrVacate e f pos minute wasLost)
    | _ => none

/-- ENUMERATION_START_REPORT (R105). -/
def doEnumerationStartReport (s : State) : State :=
  s.takeCorr fun r s =>
    match r with
    | .enumStart f => some (s.setEnumerating f true, s.corrWork)
    | _ => none

/-- ENUMERATION_END_REPORT (R105): every run on the feeder is examined, and then the walk of R102 is made (assumption 59). -/
def doEnumerationEndReport (s : State) : State :=
  s.takeCorr fun r s =>
    match r with
    | .enumEnd f =>
      let s1 := s.setEnumerating f false
      some (s1, s1.fullWalk (s1.examineAll s1.corrWork f))
    | _ => none

/-- SUPPLY_LOW_REPORT (R104): a count that leaves 0 has every undeclared run of the feeder examined. -/
def doSupplyLowReport (s : State) : State :=
  s.takeCorr fun r s =>
    match r with
    | .supplyLow f =>
      let n := s.corr.lowSupply[f]
      let s1 := s.setLowSupply f (satAdd 8 n 1)
      some (s1, if n = 0 then s1.fullWalk (s1.examineUndeclared s1.corrWork f) else s1.corrWork)
    | _ => none

/-- SUPPLY_CLEAR_REPORT (R104). -/
def doSupplyClearReport (s : State) : State :=
  s.takeCorr fun r s =>
    match r with
    | .supplyClear f => some (s.setLowSupply f (s.corr.lowSupply[f] - 1), s.corrWork)
    | _ => none

/-- The engines that waited for the Tap Directory's hand-offs at their blocking go on (R67). -/
def State.releaseEngines (s : State) : State :=
  (List.finRange 8).foldl (fun s f =>
    match (s.eng f).work with
    | .awaitBlocked _ :: _ => s.resumeWork (.engine f)
    | _ => s) s

/-- ALARM_SUBMISSION_TAKEN (R107): a block's waiting submission enters the intake, and its work goes on; behind the Tap
Directory's, an engine's (R67). -/
def doAlarmSubmissionTaken (b : Blk) (s : State) : State :=
  if s.log.intake.length < Config.intakeDepth then
    match s.workOf b with
    | .alarm _ _ _ _ _ :: _ => if b = .directory then (s.resumeWork b).releaseEngines else s.resumeWork b
    | _ => s
  else s

/-- The log writer is free and may write: the log is loaded and no entry burst is in progress. -/
def AlarmLog.ready (l : AlarmLog) : Bool := l.loaded && l.writing.isNone

/-- LOG_WRITE (R108): the oldest entry is taken and its burst asked for; LOG OVERFLOWED comes first (R110). -/
def doLogWrite (s : State) : State :=
  match s.log.intake with
  | [] => s
  | a :: rest =>
    if s.log.ready && decide (s.log.unconsumed < s.map.s) && s.log.dropped == 0 then
      State.ask { s with log := { s.log with intake := rest, writing := some a } } .alarm .logEntry
    else s

/-- LOG_ENTRY_WRITTEN (R108): the log entry's burst ends. -/
def doLogEntryWritten (s : State) : State :=
  match s.path.port with
  | .burst _ .logEntry _ _ false => s.completeBurst
  | _ => s

/-- LOG_DROP (R110): with the log full, the oldest entry is taken, counted and forgotten. -/
def doLogDrop (s : State) : State :=
  match s.log.intake with
  | [] => s
  | _ :: rest =>
    if s.log.ready && decide (s.map.s ≤ s.log.unconsumed) then
      { s with log := { s.log with intake := rest, dropped := satAdd 65535 s.log.dropped 1 } }
    else s

/-- LOG_OVERFLOWED (R110): the dropped count is written before any waiting entry. -/
def doLogOverflowed (s : State) : State :=
  if s.log.ready && decide (0 < s.log.dropped) && decide (s.log.unconsumed < s.map.s) then
    let a : AlarmEntry :=
      { kind := .logOverflowed, sev := .major, subject := .none, minute := s.now, value := word s.log.dropped }
    State.ask { s with log := { s.log with dropped := 0, writing := some a } } .alarm .logEntry
  else s

/-- LOG_CONSUMER (R109). -/
def doLogConsumer (w : Word) (s : State) : State :=
  s.arrive .logConsumer w fun s =>
    let v := bits w 0 16
    if s.run.part = .idle then { s with log := { s.log with result := .notRunning } }
    else if s.log.loaded then State.evalLog { s with log := s.log.takeConsumer v }
    else { s with log := { s.log with waiting := s.log.waiting ++ [v] } }

/-! ### The commands of this file: each goes to the state its own effect gives -/

def execLostReport (s : State) : Answer := .next (doLostReport s)
def execReturnReport (s : State) : Answer := .next (doReturnReport s)
def execVacateReport (s : State) : Answer := .next (doVacateReport s)
def execEnumerationStartReport (s : State) : Answer := .next (doEnumerationStartReport s)
def execEnumerationEndReport (s : State) : Answer := .next (doEnumerationEndReport s)
def execSupplyLowReport (s : State) : Answer := .next (doSupplyLowReport s)
def execSupplyClearReport (s : State) : Answer := .next (doSupplyClearReport s)
def execAlarmSubmissionTaken (b : Blk) (s : State) : Answer := .next (doAlarmSubmissionTaken b s)
def execLogWrite (s : State) : Answer := .next (doLogWrite s)
def execLogEntryWritten (s : State) : Answer := .next (doLogEntryWritten s)
def execLogDrop (s : State) : Answer := .next (doLogDrop s)
def execLogOverflowed (s : State) : Answer := .next (doLogOverflowed s)
def execLogConsumer (w : Word) (s : State) : Answer := .next (doLogConsumer w s)

end Sys2Proof.Machine
end

