-- ==== Sys2Proof/Machine/Scan.lean ====
section
/-! DEFINITION. The Telemetry Scanner's commands: the scan word, the interval, sequences, conversions and the line-up switch
report (chapter 6). -/

namespace Sys2Proof.Machine

def State.answerScan (s : State) (r : CmdResult) : State := { s with scan := { s.scan with result := r } }

/-- An accepted scan arrival sets the mode in effect, with its starts (R120, R121). -/
def State.setScanMode (s : State) (mode : ScanMode) (interval : Nat) : State :=
  let x := s.scan
  let period := if mode = ScanMode.periodic then interval else x.interval
  let timer := if mode = ScanMode.periodic then Timer.start (2 * interval) else Timer.stopped
  let s1 : State := { s with
    scan := { x with mode := mode, interval := period, startDue := mode != ScanMode.off, ofOnce := false,
                     result := .accepted }
    time := { s.time with scan := timer } }
  s1.ask .scanner .teleHeader

/-- A scan arrival (R121); the mode is none for a word that is refused REFUSED-BAD-ACTION. -/
def State.scanArrival (s : State) (w : Word) (mode : Option ScanMode) : State :=
  match s.run.part with
  | .idle => s.answerScan .notRunning
  | .starting => s.answerScan .busy
  | _ =>
    match mode with
    | some m => if scanModeGood (actionCode w) (intervalField w) then s.setScanMode m (intervalField w) else s.answerScan .badAction
    | none => s.answerScan .badAction

/-- SCAN_OFF (R121). -/
def doScanOff (w : Word) (s : State) : State :=
  if actionCode w = 0 then s.arrive .scan w fun s => s.scanArrival w (some .off) else s

/-- SCAN_ONCE (R121). -/
def doScanOnce (w : Word) (s : State) : State :=
  if actionCode w = 1 then s.arrive .scan w fun s => s.scanArrival w (some .once) else s

/-- SCAN_PERIODIC (R121). -/
def doScanPeriodic (w : Word) (s : State) : State :=
  if actionCode w = 2 then s.arrive .scan w fun s => s.scanArrival w (some .periodic) else s

/-- SCAN_CONTINUOUS (R121). -/
def doScanContinuous (w : Word) (s : State) : State :=
  if actionCode w = 3 then s.arrive .scan w fun s => s.scanArrival w (some .continuous) else s

/-- SCAN_BAD_ACTION (R121): another mode, or PERIODIC with an interval out of range. -/
def doScanBadAction (w : Word) (s : State) : State :=
  if scanModeGood (actionCode w) (intervalField w) then s else s.arrive .scan w fun s => s.scanArrival w none

/-- SCAN_INTERVAL_EXPIRY (R120): a sequence is called for, or the late flag is set. No sequence runs in
STARTING, and R120 says nothing of an expiry taken in STARTING from HALTED with the scanner IDLE: the model keeps the call, so that the
sequence starts in the state that follows, HALTED too where the resume is refused (assumption 63). -/
def doScanIntervalExpiry (s : State) : State :=
  if 0 < s.time.scan.due then
    let s1 := { s with time := { s.time with scan := s.time.scan.take } }
    if s.scan.mode = .periodic then
      if s.scan.scanning then State.ask { s1 with scan := { s1.scan with late := true } } .scanner .teleHeader
      else { s1 with scan := { s1.scan with startDue := true } }
    else s1
  else s

/-- SEQUENCE_START (R119, R120). -/
def doSequenceStart (s : State) : State :=
  if s.sequencesRun && s.scan.startDue && !s.scan.scanning && s.scan.work.isEmpty then s.startSequence else s

/-- SETTLE_END (R118). -/
def doSettleEnd (s : State) : State :=
  match s.scan.sample with
  | some x => { s with scan := { s.scan with sample := some { x with converting := true } } }
  | none => s

/-- The sample of a probe entry (R117, R122–R124). -/
def State.probeSample (s : State) (x : Sample) (code : Nat) (v : Int) (sat : Bool) : State × List Task :=
  let t := s.scan.entries[x.i]
  let ev := t.eval.judge x.entry v
  let t1 : TeleEntry :=
    { eval := ev, value := v, code := code, shown := ev.state, sat := sat, count := satAdd 65535 t.count 1, minute := s.now }
  ({ s with scan := { s.scan.setEntry x.i t1 with sample := none } },
   probeHandOff x.entry t.eval.state ev.state v ++ [.burst .scanner (.teleEntry x.i), .scanNext])

/-- The copy that the slot of a CARRIER sample belongs to: one taken before step 3 of a switch is judged against the outgoing
copy (R126; assumption 28). -/
def State.sampleCopy (s : State) (x : Sample) : Copy :=
  match x.old, s.lineUp.outgoing with
  | true, some r => r.outgoing
  | _, _ => s.active

/-- The sample of a CARRIER entry on a slot (R117, R122–R124): judged by the slot's level less its expected level. -/
def State.carrierSample (s : State) (x : Sample) (k : SlotId) (slot : Slot) (code : Nat) (level : Int) (sat : Bool) :
    State × List Task :=
  let c := s.scan.slots[k]
  let ev := c.eval.judge x.entry (level - slot.level)
  let c1 : TeleSlot := { c with eval := ev, value := level, sat := sat, sampled := true, minute := s.now }
  let t := s.scan.entries[x.i]
  let t1 : TeleEntry :=
    { t with value := level, code := code, shown := ev.state, sat := sat, count := satAdd 65535 t.count 1, minute := s.now }
  let copy := s.sampleCopy x
  let running := copy.slots[k].isEvent && copy.ev[k] == .running
  ({ s with scan := { (s.scan.setEntry x.i t1).setSlot k c1 with sample := none } },
   carrierHandOff k running c.eval.state ev.state level ++
     [.burst .scanner (.teleEntry x.i), .burst .scanner (.teleSlot k), .burst .scanner (.carrier k), .scanNext])

/-- CONVERSION_END (R117, R118): the value follows, is evaluated and handed off. -/
def doConversionEnd (code : BitVec 12) (s : State) : State :=
  match s.scan.sample with
  | some x =>
    if x.converting then
      let v := convert s.cfg.probes[Fin.ofNat 13 x.entry.probe] code.toNat
      let r := match x.slot with
        | some (k, slot) => s.carrierSample x k slot code.toNat v.1 v.2
        | none => s.probeSample x code.toNat v.1 v.2
      r.1.push .scanner r.2
    else s
  | none => s

/-- LINEUP_SWITCH_REPORT (R126): step 8 of a switch, and the steps of the switch that follow it (R39). A CARRIER sample that has
been evaluated and waits in the hand-off of its last step, the alarm intake being full, is not abandoned: R126 does not name it, and
the model has its alarm and its bursts follow (assumption 28). -/
def doLineupSwitchReport (s : State) : State :=
  match s.lineUp.work, s.lineUp.outgoing with
  | .switchReportOut :: rest, some r =>
    let abandoned := match s.scan.sample with
      | some x => x.slot.isSome && x.old
      | none => false
    let x := s.scan.takeSwitch r.outgoing s.active r.carried
    let again := x.mode == .continuous && !x.scanning
    let s1 := { s with
      scan := { x with startDue := x.startDue || again, sample := if abandoned then none else x.sample }
      lineUp := { s.lineUp with outgoing := none } }
    let s2 := s1.asks .scanner ([.teleHeader] ++ allSlots.map .teleSlot ++ allSlots.map .carrier)
    let s3 := if abandoned then s2.nextSample else s2
    State.runTasks .lineUp rest s3
  | _, _ => s

/-! ### The commands of this file: each goes to the state its own effect gives -/

def execScanOff (w : Word) (s : State) : Answer := .next (doScanOff w s)
def execScanOnce (w : Word) (s : State) : Answer := .next (doScanOnce w s)
def execScanPeriodic (w : Word) (s : State) : Answer := .next (doScanPeriodic w s)
def execScanContinuous (w : Word) (s : State) : Answer := .next (doScanContinuous w s)
def execScanBadAction (w : Word) (s : State) : Answer := .next (doScanBadAction w s)
def execScanIntervalExpiry (s : State) : Answer := .next (doScanIntervalExpiry s)
def execSequenceStart (s : State) : Answer := .next (doSequenceStart s)
def execSettleEnd (s : State) : Answer := .next (doSettleEnd s)
def execConversionEnd (code : BitVec 12) (s : State) : Answer := .next (doConversionEnd code s)
def execLineupSwitchReport (s : State) : Answer := .next (doLineupSwitchReport s)

end Sys2Proof.Machine
end

