-- ==== Sys2Proof/Machine/Bill.lean ====
section
/-! DEFINITION. The Billing Unit's commands: the close-out word, the registrations, the notices and the sweep (chapter 7). -/

namespace Sys2Proof.Machine

/-! ### Close-out (R146, R147) -/

def State.answerClose (s : State) (r : CmdResult) : State := { s with bill := { s.bill with result := r } }

/-- An accepted close-out at minute `m`: the CLOSE boundary is outstanding and the anchor burst is asked for (R147). -/
def State.acceptClose (s : State) (m : Nat) : State :=
  let period := (s.bill.period + 1) % 65536
  State.ask
    { s with bill := { s.bill with
        boundary := { kind := .close, minute := m, number := period }, cursor := 0, result := .accepted,
        closing := some (.closeReg m period) } } .billing .closeAnchor

/-- CLOSE_OUT (R146); the value written is not read. -/
def doCloseOut (w : Word) (s : State) : State :=
  s.arrive .closeOut w fun s =>
    match s.run.part with
    | .idle | .halting | .halted => s.answerClose .notRunning
    | .starting => s.answerClose .busy
    | .running =>
      if s.bill.boundary.kind ≠ .none then s.answerClose .sweepBusy
      else if s.now ≤ s.bill.periodStart then s.answerClose .emptyPeriod
      else s.acceptClose s.now

/-- CLOSE_REGISTRATION_QUEUED (R147): the close-out's anchor burst ends. -/
def doCloseRegistrationQueued (s : State) : State :=
  match s.path.port with
  | .burst _ .closeAnchor _ _ false => s.completeBurst
  | _ => s

/-! ### Work items (R133) -/

/-- The sweep passes over a record that is not enrolled or is current (R153); `v` has memory as it has been read. -/
def State.passesOver (s v : State) (i : Nat) : Bool :=
  !(v.subRec i).enrolled || s.bill.behind (v.billRec i) == .current

/-- The sweep that a registration has started, in its first moment: with one record, which it passes over, it ends in this step
(R154). -/
def State.sweepStarted (s v : State) : State :=
  if s.map.ns = 1 ∧ s.passesOver v 0 = true then s.push .billing [.sweepAdvance, .sweepEnd] else s

/-- CLOSE_REGISTRATION (R149): the boundary comes into force and the sweep starts. -/
def doCloseRegistration (s : State) : State :=
  match s.bill.queue with
  | .closeReg minute number :: rest =>
    let plan := s.entryReads (.closeReg minute number)
    if s.entryReady && s.hasRead .billing plan then
      State.stepMade (State.sweepStarted
        { s.tookReads .billing plan with bill := { s.bill with
          queue := rest, period := number, periodStart := minute, prevLen := minute - s.bill.periodStart, cursor := 0,
          sweeping := true, owes := true } } (s.view .billing)) .billing plan
    else s
  | _ => s

/-- EPOCH_REGISTRATION (R149): the current rate table becomes the previous one, and the active copy's the current. -/
def doEpochRegistration (s : State) : State :=
  match s.bill.queue with
  | .epochReg minute number :: rest =>
    let plan := s.entryReads (.epochReg minute number)
    if s.entryReady && s.hasRead .billing plan then
      State.stepMade (State.sweepStarted
        { s.tookReads .billing plan with bill := { s.bill with
          queue := rest, epoch := number, epochMin := minute, prev := s.bill.cur, cur := s.active.rates, cursor := 0,
          sweeping := true, owes := true } } (s.view .billing)) .billing plan
    else s
  | _ => s

/-- What a notice's own work gives: the record, the overlap reports, and the event of a settle answer. -/
structure NoticeWork where
  record   : BillRec
  overlaps : List (Nat × Nat)
  settle   : Option Nat
deriving DecidableEq, Repr

def NoticeWork.only (r : BillRec) : NoticeWork := { record := r, overlaps := [], settle := none }

/-- The tasks of a handled notice (R134.5, R134.6): the record burst, then the hand-offs, then the entry's removal. -/
def noticeTasks (sub : Nat) (x : NoticeWork) (refresh : Bool) : List Task :=
  [.burst .billing (.bill sub x.record.words), .awaitWritten .billing] ++ overlapTasks sub x.overlaps ++
    (match x.settle with
     | some ev => [.settleOut sub ev]
     | none => []) ++
    (if refresh then [.refreshOut sub] else []) ++ [.noticeDone]

/-- The notice at the head of the queue is handled (R134): the record is brought across the boundary in force and accrued to
the notice's minute; `work` is the notice's own work, none for a notice of another kind. -/
def State.handleNotice (s : State) (work : NoticeKind → Option (Nat → BillRec → NoticeWork)) : State :=
  match s.bill.queue with
  | .notice sub kind minute :: _ =>
    match work kind with
    | some g =>
      if s.entryReady && s.hasRead .billing (s.entryReads (.notice sub kind minute)) then
        let r := (s.view .billing).billRec sub
        let s := s.tookRead .billing
        let r2 := (s.bill.catchUp s.now r).accrue s.now s.bill.cur minute
        (s.push .billing (noticeTasks sub (g sub r2) (s.bill.behind r == .oneEpoch))).noTurn .billing
      else s
    | none => s
  | _ => s

/-- An outage in progress is resolved and the record goes to a state (R141); the overlaps are those of the resolution. -/
def State.resolveTo (s : State) (sub : Nat) (r : BillRec) (st : BillState) : NoticeWork :=
  { record := { r.resolve s.cfg.tc with state := st }, overlaps := s.overlapsOf (s.subRec sub) r, settle := none }

/-- ENROL_INIT (R137): neither brought across a boundary nor accrued. -/
def doEnrolInit (s : State) : State :=
  match s.bill.queue with
  | .notice sub (.enrolInit tiers) minute :: _ =>
    if s.entryReady && s.hasRead .billing [s.readBill sub] then
      let r := (s.view .billing).billRec sub
      ((s.tookRead .billing).push .billing
        (noticeTasks sub (NoticeWork.only (s.bill.enrolInit s.now minute tiers r)) false)).noTurn .billing
    else s
  | _ => s

/-- AWAIT_SERVICE (R138). -/
def doAwaitService (s : State) : State :=
  s.handleNotice fun k =>
    match k with
    | .awaitService => some fun _ r => NoticeWork.only (if r.state = .off then { r with state := .awaiting } else r)
    | _ => none

/-- START_SERVICE (R138). -/
def doStartService (s : State) : State :=
  s.handleNotice fun k =>
    match k with
    | .startService => some fun _ r => NoticeWork.only (if r.state = .awaiting then { r with state := .service } else r)
    | _ => none

/-- STOP_SERVICE (R139). -/
def doStopService (s : State) : State :=
  s.handleNotice fun k =>
    match k with
    | .stopService => some fun sub r =>
      if r.state = .outage then (s.view .billing).resolveTo sub r .off else NoticeWork.only { r with state := .off }
    | _ => none

/-- MOVE_NOTICE (R139). -/
def doMoveNotice (s : State) : State :=
  s.handleNotice fun k =>
    match k with
    | .move => some fun sub r =>
      match r.state with
      | .outage => (s.view .billing).resolveTo sub r .awaiting
      | .service => NoticeWork.only { r with state := .awaiting }
      | _ => NoticeWork.only r
    | _ => none

/-- RETIER_NOTICE (R139). -/
def doRetierNotice (s : State) : State :=
  s.handleNotice fun k =>
    match k with
    | .retier tiers => some fun _ r => NoticeWork.only { r with tiers := tiers }
    | _ => none

/-- OUTAGE_BEGIN (R140). -/
def doOutageBegin (s : State) : State :=
  s.handleNotice fun k =>
    match k with
    | .outageBegin _ => some fun _ r =>
      NoticeWork.only (if r.state = .service then { r with state := .outage, began := r.since } else r)
    | _ => none

/-- OUTAGE_END (R141). -/
def doOutageEnd (s : State) : State :=
  s.handleNotice fun k =>
    match k with
    | .outageEnd _ => some fun sub r =>
      if r.state = .outage then (s.view .billing).resolveTo sub r .service else NoticeWork.only r
    | _ => none

/-- OVERLAP_ANSWER (R133, R142): the work item that waits for the answer goes on. -/
def doOverlapAnswer (s : State) : State :=
  match s.bill.work with
  | .awaitAnswer :: _ => if s.bill.answer then s.resumeWork .billing else s
  | _ => s

/-- PPV_CHARGE (R143). -/
def doPpvCharge (s : State) : State :=
  s.handleNotice fun k =>
    match k with
    | .ppvCharge price => some fun _ r => NoticeWork.only (r.ppvCharge price)
    | _ => none

/-- PPV_SETTLE (R144). -/
def doPpvSettle (s : State) : State :=
  s.handleNotice fun k =>
    match k with
    | .ppvSettle event drop => some fun sub r =>
      { record := s.settleRecord ((s.view .billing).subRec sub) event drop r, overlaps := [], settle := some event }
    | _ => none

/-- The tasks of a sweep step at the cursor (R153, R154); `v` has memory as it has been read. -/
def State.sweepTasks (s v : State) : List Task :=
  let i := s.bill.cursor
  if s.map.ns ≤ i then [.sweepEnd]
  else if (v.subRec i).enrolled then
    let r := v.billRec i
    match s.bill.behind r with
    | .current => [.sweepAdvance, .sweepEnd]
    | b =>
      [.burst .billing (.bill i (s.bill.catchUp s.now r).words), .awaitWritten .billing] ++
        (if b = .oneEpoch then [.refreshOut i] else []) ++ [.sweepAdvance, .sweepEnd]
  else [.sweepAdvance, .sweepEnd]

/-- SWEEP_STEP (R133, R153): one index, after each entry handled and while the queue is empty. -/
def doSweepStep (s : State) : State :=
  if s.sweepReady && s.hasRead .billing s.sweepReads then
    ((s.tookReads .billing s.sweepReads).push .billing (s.sweepTasks (s.view .billing))).noTurn .billing
  else s

/-! ### The commands of this file: each goes to the state its own effect gives -/

def execCloseOut (w : Word) (s : State) : Answer := .next (doCloseOut w s)
def execCloseRegistrationQueued (s : State) : Answer := .next (doCloseRegistrationQueued s)
def execCloseRegistration (s : State) : Answer := .next (doCloseRegistration s)
def execEpochRegistration (s : State) : Answer := .next (doEpochRegistration s)
def execEnrolInit (s : State) : Answer := .next (doEnrolInit s)
def execAwaitService (s : State) : Answer := .next (doAwaitService s)
def execStartService (s : State) : Answer := .next (doStartService s)
def execStopService (s : State) : Answer := .next (doStopService s)
def execMoveNotice (s : State) : Answer := .next (doMoveNotice s)
def execRetierNotice (s : State) : Answer := .next (doRetierNotice s)
def execOutageBegin (s : State) : Answer := .next (doOutageBegin s)
def execOutageEnd (s : State) : Answer := .next (doOutageEnd s)
def execOverlapAnswer (s : State) : Answer := .next (doOverlapAnswer s)
def execPpvCharge (s : State) : Answer := .next (doPpvCharge s)
def execPpvSettle (s : State) : Answer := .next (doPpvSettle s)
def execSweepStep (s : State) : Answer := .next (doSweepStep s)

end Sys2Proof.Machine
end

