-- ==== Sys2Proof/Machine/Dispatch.lean ====
section
/-! DEFINITION. The dispatch of a command to its meaning: one arm for each row of the table. -/

namespace Sys2Proof.Machine

open Sys2Proof

def exec (i : Instr) (s : State) : Host.Outcome State Fault Refusal :=
  match i with
  | .powerOn => Sys2Proof.Machine.execPowerOn s
  | .resetLine => Sys2Proof.Machine.execResetLine s
  | .resetLineHeld => Sys2Proof.Machine.execResetLineHeld s
  | .computerRead addr => Sys2Proof.Machine.execComputerRead addr s
  | .computerWrite addr be data => Sys2Proof.Machine.execComputerWrite addr be data s
  | .pendingSubmissionHanded => Sys2Proof.Machine.execPendingSubmissionHanded s
  | .memoryPortGrant => Sys2Proof.Machine.execMemoryPortGrant s
  | .burstComplete => Sys2Proof.Machine.execBurstComplete s
  | .passedCycleCarried => Sys2Proof.Machine.execPassedCycleCarried s
  | .run w => Sys2Proof.Machine.execRun w s
  | .halt w => Sys2Proof.Machine.execHalt w s
  | .restart w => Sys2Proof.Machine.execRestart w s
  | .clearStatus w => Sys2Proof.Machine.execClearStatus w s
  | .controlBadAction w => Sys2Proof.Machine.execControlBadAction w s
  | .configurationCheck => Sys2Proof.Machine.execConfigurationCheck s
  | .directoryLoadEntry => Sys2Proof.Machine.execDirectoryLoadEntry s
  | .billingLoad => Sys2Proof.Machine.execBillingLoad s
  | .carrierLossLoad => Sys2Proof.Machine.execCarrierLossLoad s
  | .subscriberPassStep => Sys2Proof.Machine.execSubscriberPassStep s
  | .lineupStartup => Sys2Proof.Machine.execLineupStartup s
  | .scannerStartup => Sys2Proof.Machine.execScannerStartup s
  | .outageRebuild => Sys2Proof.Machine.execOutageRebuild s
  | .reconciliationStep => Sys2Proof.Machine.execReconciliationStep s
  | .entryToRunning => Sys2Proof.Machine.execEntryToRunning s
  | .haltedEntry => Sys2Proof.Machine.execHaltedEntry s
  | .minuteEvent => Sys2Proof.Machine.execMinuteEvent s
  | .halfSecondTick => Sys2Proof.Machine.execHalfSecondTick s
  | .timeSet w => Sys2Proof.Machine.execTimeSet w s
  | .heartbeat w => Sys2Proof.Machine.execHeartbeat w s
  | .supervisionExpiry => Sys2Proof.Machine.execSupervisionExpiry s
  | .orderArrival sub w => Sys2Proof.Machine.execOrderArrival sub w s
  | .backlogWalkStep => Sys2Proof.Machine.execBacklogWalkStep s
  | .badOrder => Sys2Proof.Machine.execBadOrder s
  | .enrol => Sys2Proof.Machine.execEnrol s
  | .connect => Sys2Proof.Machine.execConnect s
  | .disconnect => Sys2Proof.Machine.execDisconnect s
  | .retier => Sys2Proof.Machine.execRetier s
  | .move => Sys2Proof.Machine.execMove s
  | .buy => Sys2Proof.Machine.execBuy s
  | .cancel => Sys2Proof.Machine.execCancel s
  | .audit => Sys2Proof.Machine.execAudit s
  | .remove => Sys2Proof.Machine.execRemove s
  | .transactionReport => Sys2Proof.Machine.execTransactionReport s
  | .confirmation => Sys2Proof.Machine.execConfirmation s
  | .lostTapReport => Sys2Proof.Machine.execLostTapReport s
  | .blockedReport => Sys2Proof.Machine.execBlockedReport s
  | .eventStartReport => Sys2Proof.Machine.execEventStartReport s
  | .eventEndReport => Sys2Proof.Machine.execEventEndReport s
  | .eventDropReport => Sys2Proof.Machine.execEventDropReport s
  | .overlapReport => Sys2Proof.Machine.execOverlapReport s
  | .settleAnswer => Sys2Proof.Machine.execSettleAnswer s
  | .refreshRequest => Sys2Proof.Machine.execRefreshRequest s
  | .noticeHanded b => Sys2Proof.Machine.execNoticeHanded b s
  | .commit w => Sys2Proof.Machine.execCommit w s
  | .withdraw w => Sys2Proof.Machine.execWithdraw w s
  | .commitBadAction w => Sys2Proof.Machine.execCommitBadAction w s
  | .validationBurst => Sys2Proof.Machine.execValidationBurst s
  | .epochSwitch => Sys2Proof.Machine.execEpochSwitch s
  | .transactionStart f mark => Sys2Proof.Machine.execTransactionStart f mark s
  | .collision f => Sys2Proof.Machine.execCollision f s
  | .callSent f => Sys2Proof.Machine.execCallSent f s
  | .answerStartBit f latency => Sys2Proof.Machine.execAnswerStartBit f latency s
  | .answerWindowExpiry f => Sys2Proof.Machine.execAnswerWindowExpiry f s
  | .answerCharacter f c stopMark => Sys2Proof.Machine.execAnswerCharacter f c stopMark s
  | .answerCharacterTimeout f => Sys2Proof.Machine.execAnswerCharacterTimeout f s
  | .answerTailStartBit f => Sys2Proof.Machine.execAnswerTailStartBit f s
  | .answerTailEnd f => Sys2Proof.Machine.execAnswerTailEnd f s
  | .attemptGapEnd f mark => Sys2Proof.Machine.execAttemptGapEnd f mark s
  | .receiveLineToMark f => Sys2Proof.Machine.execReceiveLineToMark f s
  | .lineStuck f => Sys2Proof.Machine.execLineStuck f s
  | .transmitterFault f => Sys2Proof.Machine.execTransmitterFault f s
  | .blockedLineCheckExpiry f => Sys2Proof.Machine.execBlockedLineCheckExpiry f s
  | .blockedLineCheckSpace f => Sys2Proof.Machine.execBlockedLineCheckSpace f s
  | .feederClear f => Sys2Proof.Machine.execFeederClear f s
  | .readOutcomeOk f => Sys2Proof.Machine.execReadOutcomeOk f s
  | .setPortOutcomeOk f => Sys2Proof.Machine.execSetPortOutcomeOk f s
  | .outcomeFailed f => Sys2Proof.Machine.execOutcomeFailed f s
  | .staleOutcome f => Sys2Proof.Machine.execStaleOutcome f s
  | .pacingTimerExpiry f => Sys2Proof.Machine.execPacingTimerExpiry f s
  | .probeOutcome f mark => Sys2Proof.Machine.execProbeOutcome f mark s
  | .enumerateFresh w => Sys2Proof.Machine.execEnumerateFresh w s
  | .enumerateExtend w => Sys2Proof.Machine.execEnumerateExtend w s
  | .enumerateBadAction w => Sys2Proof.Machine.execEnumerateBadAction w s
  | .enumerationRequestTaken f mark => Sys2Proof.Machine.execEnumerationRequestTaken f mark s
  | .forgetOutcome f mark => Sys2Proof.Machine.execForgetOutcome f mark s
  | .enumIdentifyOutcome f mark => Sys2Proof.Machine.execEnumIdentifyOutcome f mark s
  | .assignOutcome f mark => Sys2Proof.Machine.execAssignOutcome f mark s
  | .lostReport => Sys2Proof.Machine.execLostReport s
  | .returnReport => Sys2Proof.Machine.execReturnReport s
  | .vacateReport => Sys2Proof.Machine.execVacateReport s
  | .enumerationStartReport => Sys2Proof.Machine.execEnumerationStartReport s
  | .enumerationEndReport => Sys2Proof.Machine.execEnumerationEndReport s
  | .supplyLowReport => Sys2Proof.Machine.execSupplyLowReport s
  | .supplyClearReport => Sys2Proof.Machine.execSupplyClearReport s
  | .alarmSubmissionTaken b => Sys2Proof.Machine.execAlarmSubmissionTaken b s
  | .logWrite => Sys2Proof.Machine.execLogWrite s
  | .logEntryWritten => Sys2Proof.Machine.execLogEntryWritten s
  | .logDrop => Sys2Proof.Machine.execLogDrop s
  | .logOverflowed => Sys2Proof.Machine.execLogOverflowed s
  | .logConsumer w => Sys2Proof.Machine.execLogConsumer w s
  | .scanOff w => Sys2Proof.Machine.execScanOff w s
  | .scanOnce w => Sys2Proof.Machine.execScanOnce w s
  | .scanPeriodic w => Sys2Proof.Machine.execScanPeriodic w s
  | .scanContinuous w => Sys2Proof.Machine.execScanContinuous w s
  | .scanBadAction w => Sys2Proof.Machine.execScanBadAction w s
  | .scanIntervalExpiry => Sys2Proof.Machine.execScanIntervalExpiry s
  | .sequenceStart => Sys2Proof.Machine.execSequenceStart s
  | .settleEnd => Sys2Proof.Machine.execSettleEnd s
  | .conversionEnd code => Sys2Proof.Machine.execConversionEnd code s
  | .lineupSwitchReport => Sys2Proof.Machine.execLineupSwitchReport s
  | .closeOut w => Sys2Proof.Machine.execCloseOut w s
  | .closeRegistrationQueued => Sys2Proof.Machine.execCloseRegistrationQueued s
  | .closeRegistration => Sys2Proof.Machine.execCloseRegistration s
  | .epochRegistration => Sys2Proof.Machine.execEpochRegistration s
  | .enrolInit => Sys2Proof.Machine.execEnrolInit s
  | .awaitService => Sys2Proof.Machine.execAwaitService s
  | .startService => Sys2Proof.Machine.execStartService s
  | .stopService => Sys2Proof.Machine.execStopService s
  | .moveNotice => Sys2Proof.Machine.execMoveNotice s
  | .retierNotice => Sys2Proof.Machine.execRetierNotice s
  | .outageBegin => Sys2Proof.Machine.execOutageBegin s
  | .outageEnd => Sys2Proof.Machine.execOutageEnd s
  | .overlapAnswer => Sys2Proof.Machine.execOverlapAnswer s
  | .ppvCharge => Sys2Proof.Machine.execPpvCharge s
  | .ppvSettle => Sys2Proof.Machine.execPpvSettle s
  | .sweepStep => Sys2Proof.Machine.execSweepStep s

end Sys2Proof.Machine
end

