-- ==== Sys2Proof/Machine/TapSide.lean ====
section
/-! DEFINITION. The taps as the part relies on them (3.5): which calls a tap answers, what each does to it, and which taps
of a feeder hear a call. The taps are not part of the Lojin 408: no command runs these functions, and no field of State
holds a tap. They say what the environment of an engine is taken to be (R55, R56). -/

namespace Sys2Proof.Machine

/-- One tap: its serial, its position while it is addressed, its ports and its two status inputs. -/
structure Tap where
  serial : Word
  pos    : Option Nat
  ports  : Vector PortState 4
  tamper : Bool
  low    : Bool
deriving DecidableEq, Repr

/-- The downstream gate is open while the tap is addressed (R55). -/
def Tap.gateOpen (t : Tap) : Bool := t.pos.isSome

/-- The address check matches the address (R50, R56). -/
def addrCheckGood (c : Byte) : Bool := c == addrChar (c.toNat % 64)

/-- The command of a command character, with the payload length fixed for it (R53, R54, R56). -/
def callCommand (c : Byte) : Option TapCmd :=
  match c.toNat with
  | 0x01 => some .read
  | 0x32 => some .setPort
  | 0x03 => some .identify
  | 0x54 => some .assign
  | 0x05 => some .forget
  | _ => none

/-- A call that a tap can act on: its address, command and payload; none for the calls of R56. -/
def readCall (chars : List Byte) : Option (Nat × TapCmd × List Byte) :=
  match chars with
  | a :: c :: r =>
    match callCommand c with
    | some cmd =>
      let payload := r.dropLast
      if crc8 chars.dropLast = chars.getLastD 0 ∧ addrCheckGood a ∧ r.length = c.toNat / 16 + 1 then
        match cmd with
        | .setPort => if (charAt payload 0).toNat ≤ 3 then some (a.toNat % 64, cmd, payload) else none
        | .assign =>
          if 1 ≤ (charAt payload 0).toNat ∧ (charAt payload 0).toNat ≤ 62 then some (a.toNat % 64, cmd, payload) else none
        | _ => some (a.toNat % 64, cmd, payload)
      else none
    | none => none
  | _ => none

/-- The status character of a tap (R52). -/
def Tap.status (t : Tap) : Byte := BitVec.ofNat 8 (bitOf t.tamper + 2 * bitOf t.low + 4 * bitOf t.gateOpen)

/-- The port on/off flags of a tap. -/
def Tap.onFlags (t : Tap) : Byte :=
  BitVec.ofNat 8 ((List.finRange 4).foldl (fun n p => n + 2 ^ p.val * bitOf t.ports[p].on) 0)

/-- An answer: status, payload and the CRC over the call's address character, the status and the payload (R52). -/
def Tap.answer (t : Tap) (addr : Nat) (payload : List Byte) : List Byte :=
  t.status :: payload ++ [crc8 (addrChar addr :: t.status :: payload)]

/-- What a tap that hears a call does with it, and the characters it answers (R53–R55). -/
def Tap.hear (t : Tap) (chars : List Byte) : Tap × Option (List Byte) :=
  match readCall chars with
  | none => (t, none)
  | some (addr, cmd, payload) =>
    match cmd, t.pos with
    | .read, some n =>
      if addr = n then
        (t, some (t.answer addr (serialChars t.serial ++ [t.onFlags] ++ t.ports.toList.map (·.mask))))
      else (t, none)
    | .setPort, some n =>
      if addr = n then
        let p : Port := Fin.ofNat 4 (charAt payload 0).toNat
        let t1 := { t with ports := t.ports.set p { on := (charAt payload 1).toNat != 0, mask := charAt payload 2 } }
        (t1, some (t1.answer addr [t1.onFlags, t1.ports[p].mask]))
      else (t, none)
    | .identify, none => (t, if addr = 0 then some (t.answer addr (serialChars t.serial)) else none)
    | .assign, none =>
      if addr = 0 ∧ serialOfChars (payload.drop 1) = t.serial then
        let t1 := { t with pos := some (charAt payload 0).toNat }
        (t1, some (t1.answer addr [charAt payload 0]))
      else (t, none)
    | .forget, _ => (if addr = 63 then { t with pos := none } else t, none)
    | _, _ => (t, none)

/-- The taps of a feeder from the head end, when a call is sent: a tap hears it while every tap before it is addressed, and
a gate closes only after the whole call has passed (R55). The answers are those that reach the head end. -/
def hearAll (chars : List Byte) : List Tap → List Tap × List (List Byte)
  | [] => ([], [])
  | t :: r =>
    let (t1, a) := t.hear chars
    let (r1, as) := if t.gateOpen then hearAll chars r else (r, [])
    (t1 :: r1, a.toList ++ as)

/-- A tap that has lost its supply (R56). -/
def Tap.lostSupply (t : Tap) : Tap := { t with pos := none, ports := Vector.replicate 4 PortState.off }

end Sys2Proof.Machine
end

