-- ==== Sys2Proof/Safety.lean ====
section
/-! DEFINITION. The notions the statements are written in: the arrival an owner takes next, memory that reads the same, and
the bounds of the queues. -/

namespace Sys2Proof.Machine

/-- The arrival of a write of `w` waits first, and the reset line is not held: the owner takes it next (R171). -/
def State.first (s : State) (t : Trigger) (w : Word) : Prop :=
  s.run.held = false ∧ s.path.arrivals.head? = some (t, w)

/-- The state with the arrival that waits first taken. -/
def State.popped (s : State) : State := { s with path := { s.path with arrivals := s.path.arrivals.tail } }

/-- Every byte of memory reads in `t` as it reads in `s`. -/
def SameMemory (s t : State) : Prop := ∀ a, memGet t.mem a = memGet s.mem a

/-- The Order Queue, the two report queues, the Notice Queue and the alarm intake hold no more than they have room for
(R4, R5, R98, R107, R132). -/
def State.Bounded (s : State) : Prop :=
  s.order.queue.length ≤ Config.orderQueueDepth ∧ s.order.reports.length ≤ Config.orderReportDepth ∧
    s.corr.reports.length ≤ Config.corrReportDepth ∧ s.bill.queue.length ≤ Config.noticeDepth ∧
    s.log.intake.length ≤ Config.intakeDepth

/-- The commands in which a burst ends or a computer's write is carried. -/
def writesMemory (c : Instr) : Bool :=
  [Instr.burstComplete, .passedCycleCarried, .validationBurst, .logEntryWritten,
    .closeRegistrationQueued].contains c

/-- The commands that are the arrival of a command word or of an order word (R171). -/
def isArrival : Instr → Bool
  | .run _ | .halt _ | .restart _ | .clearStatus _ | .controlBadAction _ | .heartbeat _ | .timeSet _ | .orderArrival _ _
  | .commit _ | .withdraw _ | .commitBadAction _ | .closeOut _ | .logConsumer _ | .enumerateFresh _ | .enumerateExtend _
  | .enumerateBadAction _ | .scanOff _ | .scanOnce _ | .scanPeriodic _ | .scanContinuous _ | .scanBadAction _ => true
  | _ => false

/-- The command that dispatches an order of a kind (R7). -/
def orderCommand : OrderKind → Instr
  | .enrol => .enrol | .connect => .connect | .disconnect => .disconnect | .retier => .retier | .move => .move
  | .buy => .buy | .cancel => .cancel | .audit => .audit | .remove => .remove

/-- The dispatch of record `i` has begun, noted for reordering or not, no work item of the Order Unit waits, the record is pending
with an order of the kind, and the last of the reads that the dispatch takes ends (R7, R176). -/
def State.dueOrder (s : State) (kind : OrderKind) (i : Nat) (reorder : Bool := false) : Prop :=
  s.order.taken = some { sub := i, reorder := reorder } ∧ s.order.work = [] ∧ s.dispatchReady i = true ∧
    (s.dispatched i).pending = true ∧ (s.dispatched i).okind = kind.code

/-- An order that needs the tap completes at once with it: the tap is LOST, unplaced, or placed on a feeder that is OFF (R8), or,
`blocked`, it is none of these and placed on a feeder that is BLOCKED (R68). -/
def State.tapOut (s : State) (e : EntryId) (blocked : Bool) : Prop :=
  match blocked with
  | false => (s.entry e).state = .lost ∨ (s.entry e).place = none ∨
      ∃ pl, (s.entry e).place = some pl ∧ (s.eng pl.feeder).state = .off
  | true => (s.entry e).state ≠ .lost ∧ ∃ pl, (s.entry e).place = some pl ∧ (s.eng pl.feeder).state = .blocked

/-- The tap can be reached by an order that needs it (R8, R68). -/
def State.tapIn (s : State) (e : EntryId) : Prop :=
  (s.entry e).state ≠ .lost ∧
    ∃ pl, (s.entry e).place = some pl ∧ (s.eng pl.feeder).state ≠ .off ∧ (s.eng pl.feeder).state ≠ .blocked

/-- The record of an order completed DEFERRED, with its failure counted (R9). -/
def SubRec.deferred (r : SubRec) : SubRec :=
  { r with failures := min 255 (r.failures + 1) }.complete r.oserial .deferred

/-- The Order Unit when an index noted for reordering is put back (R9): at the tail of the Order Queue, where a walk ends that
fills the queue, or, the queue holding 32, the backlog flag is set and a walk in progress notes it. -/
def OrderUnit.backAgain (o : OrderUnit) (i : Nat) (reorder : Bool) : OrderUnit :=
  if reorder = false then o
  else if o.queue.length < 32 then
    { o with queue := o.queue ++ [i], walk := if o.queue.length = 31 then none else o.walk }
  else { o with backlog := true, walk := o.walk.map fun w => { w with full := true } }

/-- The Order Unit when its report has been taken and the one order in flight, `x`, has left the table (R9). -/
def OrderUnit.flown (o : OrderUnit) (x : InFlight) (rest : List OrderReport) : OrderUnit :=
  OrderUnit.backAgain { o with reports := rest, inflight := [] } x.sub x.reorder

/-- No block has work in progress. -/
def State.quiet (s : State) : Prop := (∀ b : Blk, s.workOf b = []) ∧ s.order.taken = none

/-- A run is safe while each step it takes goes to a next state that keeps the canonical form of memory and the bounds. -/
def State.Safe (s : State) : Prop := Memory.wf s.mem = true ∧ s.Bounded

end Sys2Proof.Machine
end

