-- ==== Sys2Proof/Certificates/Slice0/Obligations.lean ====
section
/-! DEFINITION. The statements about the model, for the provers: the machine as a whole, then chapter by chapter. -/

open Sys2Proof Sys2Proof.Machine

/-! ### The machine as a whole -/

/-- A step takes the command at the front of the queue and runs it on the state with the queue's rest; with no command
waiting the part idles. The queue is the model's own way of being handed commands (DESIGN CHOICE, assumption 1). -/
def Obligations.StepTakesTheFront : Prop :=
  (∀ (c : Instr) (rest : List Instr) (s : State), s.pending = c :: rest → step s = exec c { s with pending := rest }) ∧
    ∀ s : State, s.pending = [] → step s = .next s

/-- Every command, in every state, goes to a next state, and none touches the queue of commands. A command whose
enabling condition does not hold leaves the state as it is (DESIGN CHOICE, assumption 3). -/
def Obligations.EveryCommandGoesOn : Prop :=
  ∀ (c : Instr) (s : State), ∃ t, exec c s = .next t ∧ t.pending = s.pending

/-- From every state whose memory is in canonical form (addresses strictly rising, no entry equal to what an unlisted
address reads as), a step that answers a next state answers one whose memory is in canonical form. The form is the
model's own (assumption 2). -/
def Obligations.EveryStepKeepsMemoryCanonical : Prop :=
  ∀ s t : State, Memory.wf s.mem = true → step s = .next t → Memory.wf t.mem = true

/-- From every state in which the Order Queue, the Order Unit's report queue, the correlator's report queue, the Notice
Queue and the alarm intake hold no more than their depths (32, 32, 32, 16 and 8), a step that answers a next state
answers one in which they do. -/
def Obligations.EveryStepKeepsTheQueuesBounded : Prop :=
  ∀ s t : State, s.Bounded → step s = .next t → t.Bounded

/-- The state right after power-on has its memory in canonical form and every bounded queue within its depth. -/
def Obligations.ResetIsSafe : Prop :=
  State.reset.Safe

/-- Memory changes only in the steps in which a burst ends, in which the port carries a computer's write, and in which
an arrival stands for its own write (DESIGN CHOICE, assumption 8): every other command leaves every byte of memory
reading as before. -/
def Obligations.OnlyThePortChangesMemory : Prop :=
  ∀ (c : Instr) (s t : State), writesMemory c = false → (isArrival c = true → s.path.arrivals ≠ []) →
    exec c s = .next t → SameMemory s t

/-- Right after power-on the part is IDLE with cause POWER-ON, the clock not set at minute 0, no map held and no guard
on, every queue empty, every entry FREE, every engine OFF, every timer stopped, the attention line deasserted, the
contact open, the tune output 0 and every result word NONE. That the receive input counts as at mark is the model's
choice (DESIGN CHOICE, assumption 5). Power-on, the reset line, the reset line held and RESTART leave memory as it is,
let a burst or a computer cycle that is on the port run out, put every block in its state after power-on, and record
their own cause; RESTART keeps the clock and answers ACCEPTED. That the arrivals not yet taken are dropped and that the
burst on the port ends without effect on its block is the model's reading (DEDUCED, assumption 42). The count that picks
the free values of assumption 22, which is the model's own, goes on. -/
def Obligations.PowerOnAndResets : Prop :=
  (State.reset.run.part = .idle ∧ State.reset.run.cause = .powerOn ∧ State.reset.run.fault = .none ∧
     State.reset.run.runMinute = none ∧ State.reset.run.result = .none ∧
     State.reset.time.clockSet = false ∧ State.reset.time.minute = 0 ∧ State.reset.time.half = 0 ∧
     State.reset.time.silent = false ∧ State.reset.time.timeResult = .none ∧ State.reset.time.beatResult = .none ∧
     State.reset.time.scan.running = false ∧ State.reset.time.supervision.running = false ∧
     (∀ f : Feeder, State.reset.time.pacing[f].running = false ∧ State.reset.time.blockedCheck[f].running = false) ∧
     State.reset.path.map = none ∧ State.reset.guardOn = false ∧ State.reset.path.suppressedCount = 0 ∧
     State.reset.path.armed = true ∧ State.reset.path.pendingSub = none ∧ State.reset.path.ring = .runControl ∧
     (∀ r : Requester, State.reset.path.line r = []) ∧
     State.reset.order = OrderUnit.reset ∧ State.reset.order.queue = [] ∧ State.reset.order.inflight = [] ∧
     State.reset.order.index = [] ∧ State.reset.lineUp.copy = none ∧ State.reset.lineUp.result = .none ∧
     (∀ e : EntryId, State.reset.entry e = Entry.free) ∧ State.reset.dir.result = .none ∧
     (∀ f : Feeder, (State.reset.eng f).state = .off ∧ (State.reset.eng f).txn = none ∧ (State.reset.eng f).mark = true) ∧
     State.reset.corr.outages = [] ∧ State.reset.corr.nextId = 1 ∧ State.reset.log.intake = [] ∧
     State.reset.log.attention = false ∧ State.reset.log.contact = false ∧ State.reset.log.result = .none ∧
     State.reset.scan.tune = 0 ∧ State.reset.scan.result = .none ∧ State.reset.bill.queue = [] ∧
     State.reset.bill.result = .none) ∧
  (∀ s : State,
     exec .powerOn s = .next { State.reset with
       mem := s.mem, pending := s.pending
       path := { MemPath.reset with port := s.path.port.orphaned, cycle := s.path.cycle, freeCount := s.path.freeCount } } ∧
     exec .resetLine s = .next { State.reset with
       mem := s.mem, pending := s.pending, run := RunControl.reset .resetLine
       path := { MemPath.reset with port := s.path.port.orphaned, cycle := s.path.cycle, freeCount := s.path.freeCount } } ∧
     exec .resetLineHeld s = .next { State.reset with
       mem := s.mem, pending := s.pending, run := { RunControl.reset .resetLine with held := true }
       path := { MemPath.reset with port := s.path.port.orphaned, cycle := s.path.cycle, freeCount := s.path.freeCount } } ∧
     ∀ w : Word, s.first .control w → actionCode w = 3 →
       exec (.restart w) s = .next { State.reset with
         mem := s.mem, pending := s.pending, run := { RunControl.reset .restart with result := .accepted }
         time := { TimeBase.reset with minute := s.time.minute, half := s.time.half, clockSet := s.time.clockSet }
         path := { MemPath.reset with port := s.path.port.orphaned, cycle := s.path.cycle, freeCount := s.path.freeCount } })

/-! ### The Memory Path (chapter 9) -/

/-- A read of a live word is answered at once with the word, with no turn on the port and nothing else changed; any
other read is presented to the port when the computer's next cycle can be taken (DESIGN CHOICE, assumption 8). Each live
word of the table of the live area reads the state of its block: states, cause and fault of the part, the flags, the
clock, the result words, the Memory Path's status, the queue depths, the feeder states, the boundary and cursor, the
outages, the log's indices and count, the banks, the epoch and the last validation. Live words with no meaning assigned
read 0. -/
def Obligations.ComputerReads : Prop :=
  (∀ (a : WordAddr) (s : State),
     (Config.liveBase ≤ a.toNat →
       exec (.computerRead a) s = .next { s with path := { s.path with dataOut := s.live a.toNat } }) ∧
     (a.toNat < Config.liveBase → s.cycleReady = true →
       exec (.computerRead a) s = .next { s with
         path := { s.path with
           cycle := some { addr := a.toNat, write := false, be := 0, data := 0, trigger := none } } })) ∧
  (∀ s : State,
     (∀ a : Nat, Config.liveBase + 24 ≤ a → s.live a = 0) ∧ s.live 0xFFFC2 = word s.time.minute ∧
       s.live 0xFFFC3 = word s.time.half ∧ s.live 0xFFFCC = word s.path.suppressedCount ∧
       s.live 0xFFFCD = word s.path.suppressedAddr ∧ s.live 0xFFFCE = word s.path.ignoredAddr ∧
       s.live 0xFFFC0 = word (s.run.part.code + 2 ^ 8 * s.run.cause.code + 2 ^ 16 * s.run.fault.code) ∧
       s.live 0xFFFC4 = word s.run.result.code ∧ s.live 0xFFFC5 = word s.time.beatResult.code ∧
       s.live 0xFFFC6 = word s.time.timeResult.code ∧ s.live 0xFFFC7 = word s.lineUp.result.code ∧
       s.live 0xFFFC8 = word s.bill.result.code ∧ s.live 0xFFFC9 = word s.log.result.code ∧
       s.live 0xFFFCA = word s.dir.result.code ∧ s.live 0xFFFCB = word s.scan.result.code ∧
       s.live 0xFFFCF =
         word (s.order.queue.length + 2 ^ 8 * s.order.inflight.length + 2 ^ 16 * s.bill.queue.length) ∧
       s.live 0xFFFD0 = word (s.bill.boundary.kind.code + 2 ^ 16 * s.bill.cursor) ∧
       s.live 0xFFFD2 = word s.corr.outages.length ∧ s.live 0xFFFD3 = word (s.log.producer + 2 ^ 16 * s.log.slot) ∧
       s.live 0xFFFD4 = word (if s.log.loaded then (s.log.producer + 65536 - s.log.consumer) % 65536 else 0) ∧
       s.live 0xFFFD5 = word (s.lineUp.bankState[0].code + 2 ^ 8 * s.lineUp.bankState[1].code +
         2 ^ 16 * s.lineUp.epoch.code) ∧
       (s.lineUp.epoch = .none → s.live 0xFFFD6 = 0) ∧
       (s.lineUp.epoch ≠ .none → s.live 0xFFFD6 = word s.lineUp.epochReq) ∧
       (∀ r b k, s.lineUp.last = (r, b, some k) → s.live 0xFFFD7 = word (r.code + 2 ^ 8 * b.val + 2 ^ 16 * k.val)) ∧
       (∀ r b, s.lineUp.last = (r, b, none) → s.live 0xFFFD7 = word (r.code + 2 ^ 8 * b.val + 2 ^ 16 * 0xFF)) ∧
       (flagAt (s.live 0xFFFC1) 0 = s.time.clockSet ∧
         (flagAt (s.live 0xFFFC1) 1 = true ↔ s.time.minute = Config.minuteTop) ∧
         flagAt (s.live 0xFFFC1) 2 = s.time.silent ∧ flagAt (s.live 0xFFFC1) 3 = s.log.attention ∧
         flagAt (s.live 0xFFFC1) 4 = s.log.contact ∧ flagAt (s.live 0xFFFC1) 5 = s.path.suppressed ∧
         flagAt (s.live 0xFFFC1) 6 = s.path.ignored ∧ flagAt (s.live 0xFFFC1) 7 = s.order.backlog) ∧
       ∀ f : Feeder, bits (s.live 0xFFFD1) (4 * f.val) 4 = (s.eng f).state.code)

/-- Outside IDLE a write to a persistent word of the anchor, to words 4-15 of a subscriber record, to the billing table,
the mirror, the log or the Telemetry Block, to a bank that is active or sealed, or to the part-owned words of any bank
(words 2 and 3 of the header, words 5-7 of a slot) changes no byte of memory and takes no turn: the count saturates at
65,535, the address and the flag are recorded, and an armed report is disarmed and, with nothing held back, submitted to
the intake or, the intake full, held back; no other block changes. The window words are guarded while a map is held,
whose windows lie within memory and do not overlap. A held entry enters the intake at its tail once it has room, and not
before. -/
def Obligations.GuardedWrites : Prop :=
  (∀ (a : WordAddr) (be : BitVec 4) (w : Word) (s : State),
     s.run.part ≠ .idle →
     (Config.activeBankAddr ≤ a.toNat ∧ a.toNat < Config.liveBase) ∨
       (∃ m, s.path.map = some m ∧ m.windows.any Machine.outOfBounds = false ∧ anyOverlap m.windows = false ∧
         ((∃ i j, i < m.ns ∧ 4 ≤ j ∧ j < 16 ∧ a.toNat = m.sub + 16 * i + j) ∨
           (m.bill ≤ a.toNat ∧ a.toNat < m.bill + 16 * m.ns) ∨ (m.mirror ≤ a.toNat ∧ a.toNat < m.mirror + 4608) ∨
           (m.log ≤ a.toNat ∧ a.toNat < m.log + 4 * m.s) ∨ (m.tele ≤ a.toNat ∧ a.toNat < m.tele + 176) ∨
           ∃ (b : Bank) (off : Nat), off < 608 ∧ a.toNat = m.line + 608 * b.val + off ∧
             (s.path.protActive = some b ∨ s.path.protSealed = some b ∨ off = 2 ∨ off = 3 ∨
               (32 ≤ off ∧ 5 ≤ off % 8)))) →
     ∃ t, exec (.computerWrite a be w) s = .next t ∧ SameMemory s t ∧ t.path.cycle = s.path.cycle ∧
       t.path.port = s.path.port ∧ t.path.suppressedCount = min 65535 (s.path.suppressedCount + 1) ∧
       t.path.suppressedAddr = a.toNat ∧ t.path.suppressed = true ∧ t.path.armed = false ∧
       (s.path.armed = false → t.log = s.log ∧ t.path.pendingSub = s.path.pendingSub) ∧
       (s.path.armed = true → s.path.pendingSub = none → s.log.intake.length < Config.intakeDepth →
         t.path.pendingSub = none ∧
           t.log = { s.log with intake := s.log.intake ++ [{ kind := .writeSuppressed, sev := .minor, subject := .none,
                                                             minute := s.time.minute, value := word a.toNat }] }) ∧
       (s.path.armed = true → s.path.pendingSub = none → Config.intakeDepth ≤ s.log.intake.length →
         t.log = s.log ∧ t.path.pendingSub = some { kind := .writeSuppressed, sev := .minor, subject := .none,
                                                    minute := s.time.minute, value := word a.toNat }) ∧
       t.run = s.run ∧ t.time = s.time ∧ t.order = s.order ∧ t.lineUp = s.lineUp ∧ t.dir = s.dir ∧ t.engines = s.engines ∧
       t.corr = s.corr ∧ t.scan = s.scan ∧ t.bill = s.bill) ∧
  (∀ (s : State) (a : AlarmEntry), s.path.pendingSub = some a → s.run.part ≠ .idle →
     (s.log.intake.length < Config.intakeDepth → exec .pendingSubmissionHanded s = .next { s with
       path := { s.path with pendingSub := none }, log := { s.log with intake := s.log.intake ++ [a] } }) ∧
     (Config.intakeDepth ≤ s.log.intake.length → exec .pendingSubmissionHanded s = .next s))

/-- A write to a live word is absorbed. A full-word write to a command word is presented to the port with its trigger,
in every part state, and a partial write is presented without one and, the reset line not held, recorded as an ignored
trigger. With no map held every word below the anchor block is ordinary memory: the write is presented unchanged and
without a trigger. With a map held, whose windows lie within memory and do not overlap, a full-word write to an order
word is presented with the order's trigger, which the carried write raises as an order arrival in STARTING, RUNNING and
HALTING and in no other part state, the reset line not held; a partial one is presented without it and recorded. A write
to words 0-2 of a subscriber record passes unchanged. One to a word of a bank that is neither part-owned nor of a
protected bank passes too, and sets the edited mark where that bank is VALIDATING. That an order word is watched only
while a map is held, and that the edited mark is set when the write is decided, are the model's reading (DEDUCED,
assumption 10). -/
def Obligations.PassedWrites : Prop :=
  (∀ (a : WordAddr) (be : BitVec 4) (w : Word) (s : State), Config.liveBase ≤ a.toNat →
     exec (.computerWrite a be w) s = .next s) ∧
  (∀ (i : Fin 8) (be : BitVec 4) (w : Word) (s : State), s.cycleReady = true →
     (be = 0xF → exec (.computerWrite (BitVec.ofNat 20 (Config.commandBase + i.val)) be w) s = .next { s with
       path := { s.path with cycle := some { addr := Config.commandBase + i.val, write := true, be := be, data := w,
                                             trigger := commandTrigger i.val } } }) ∧
     (be ≠ 0xF → s.run.held = true →
       exec (.computerWrite (BitVec.ofNat 20 (Config.commandBase + i.val)) be w) s = .next { s with
         path := { s.path with cycle := some { addr := Config.commandBase + i.val, write := true, be := be, data := w,
                                               trigger := none } } }) ∧
     (be ≠ 0xF → s.run.held = false →
       exec (.computerWrite (BitVec.ofNat 20 (Config.commandBase + i.val)) be w) s = .next { s with
       path := { s.path with ignoredAddr := Config.commandBase + i.val, ignored := true
                             cycle := some { addr := Config.commandBase + i.val, write := true, be := be, data := w,
                                             trigger := none } } })) ∧
  (∀ (a : WordAddr) (be : BitVec 4) (w : Word) (s : State), s.cycleReady = true →
     let c (t : Option Trigger) : Cycle := { addr := a.toNat, write := true, be := be, data := w, trigger := t }
     (s.path.map = none → a.toNat < Config.anchorBase →
       exec (.computerWrite a be w) s = .next { s with path := { s.path with cycle := some (c none) } }) ∧
     (∀ m, s.path.map = some m → m.windows.any Machine.outOfBounds = false → anyOverlap m.windows = false →
       (∀ i, i < m.ns → a.toNat = m.sub + 16 * i + 3 →
         (be = 0xF →
           exec (.computerWrite a be w) s = .next { s with path := { s.path with cycle := some (c (some (.order i))) } }) ∧
         (be ≠ 0xF → s.run.held = true →
           exec (.computerWrite a be w) s = .next { s with path := { s.path with cycle := some (c none) } }) ∧
         (be ≠ 0xF → s.run.held = false → exec (.computerWrite a be w) s = .next { s with
           path := { s.path with ignoredAddr := a.toNat, ignored := true, cycle := some (c none) } })) ∧
       (∀ i j, i < m.ns → j < 3 → a.toNat = m.sub + 16 * i + j →
         exec (.computerWrite a be w) s = .next { s with path := { s.path with cycle := some (c none) } }) ∧
       (∀ (b : Bank) (off : Nat), off < 608 → a.toNat = m.line + 608 * b.val + off → off ≠ 2 → off ≠ 3 →
         off < 32 ∨ off % 8 < 5 → s.path.protActive ≠ some b → s.path.protSealed ≠ some b →
         (∀ v, s.lineUp.validation = some v → v.bank = b →
           exec (.computerWrite a be w) s = .next { s with
             lineUp := { s.lineUp with validation := some { v with edited := true } }
             path := { s.path with cycle := some (c none) } }) ∧
         ((∀ v, s.lineUp.validation = some v → v.bank ≠ b) →
           exec (.computerWrite a be w) s = .next { s with path := { s.path with cycle := some (c none) } })))) ∧
  (∀ (s : State) (c : Cycle) (i : Nat), s.path.port = .cycle c → c.write = true → c.trigger = some (.order i) →
     (s.run.held = false → s.path.map.isSome = true →
       s.run.part = .starting ∨ s.run.part = .running ∨ s.run.part = .halting →
       ∃ t, exec .passedCycleCarried s = .next t ∧ t.path.port = .free ∧
         t.path.arrivals = s.path.arrivals ++ [(.order i, c.data)] ∧ t.order = s.order ∧ t.run = s.run) ∧
     (s.run.held = true ∨ s.path.map = none ∨ s.run.part = .idle ∨ s.run.part = .halted →
       ∃ t, exec .passedCycleCarried s = .next t ∧ t.path.port = .free ∧ t.path.arrivals = s.path.arrivals ∧
         t.order = s.order ∧ t.run = s.run))

/-- A carried read takes the word of memory; a carried write changes the bytes whose enables are set and no other byte,
and then, the reset line not held, hands the arrival of its command word behind those that wait. At the end of a write
burst its words stand in memory at its address, every other byte stands, and the port is free. A read burst that ends
with more reads of its step to come is kept with the words it found, and the port is free; the last read of a step ends
with the step itself; and one whose step is not due any more ends without effect. A step sees the words that its earlier
reads found, whatever has been written there since, and the rest of memory as it stands. That a step is taken whole at
the end of the last of its reads is the model's choice (DESIGN CHOICE, assumption 7). -/
def Obligations.CyclesAndBurstsCarried : Prop :=
  (∀ (s : State) (c : Cycle), s.path.port = .cycle c →
     (c.write = false → exec .passedCycleCarried s = .next { s with
       path := { s.path with port := .free, partNext := s.partWaits, dataOut := memWord s.mem c.addr } }) ∧
     (c.write = true → Memory.wf s.mem = true →
       ∃ t, exec .passedCycleCarried s = .next t ∧ t.path.port = .free ∧
         (∀ i : Fin 4, memGet t.mem (4 * c.addr + i.val) =
           if c.be.getLsbD i.val then c.data.extractLsb' (8 * i.val) 8 else memGet s.mem (4 * c.addr + i.val)) ∧
         (∀ x, x < 4 * c.addr ∨ 4 * c.addr + 4 ≤ x → memGet t.mem x = memGet s.mem x) ∧
         (c.trigger = none → t.path.arrivals = s.path.arrivals) ∧
         (∀ g : Trigger, c.trigger = some g → (∀ i, g ≠ .order i) → s.run.held = false →
           t.path.arrivals = s.path.arrivals ++ [(g, c.data)]) ∧
         t.run = s.run ∧ t.time = s.time ∧ t.order = s.order ∧ t.lineUp = s.lineUp ∧ t.dir = s.dir ∧
         t.engines = s.engines ∧ t.corr = s.corr ∧ t.log = s.log ∧ t.scan = s.scan ∧ t.bill = s.bill)) ∧
  ((∀ (s : State) (r : Requester) (b : Burst) (a : Nat) (ws : List Word) (o : Bool),
     Memory.wf s.mem = true → s.path.port = .burst r b a ws o → (∀ x n, b ≠ .read x n) →
     ∃ t, exec .burstComplete s = .next t ∧ t.path.port = .free ∧ t.mem = memWriteWords s.mem a ws ∧
       ∀ x, x < 4 * a ∨ 4 * (a + ws.length) ≤ x → memGet t.mem x = memGet s.mem x) ∧
   (∀ (s : State) (r : Requester) (a n : Nat), s.path.port = .burst r (.read a n) a [] false →
     (r ≠ .orderUnit ∨ s.order.work = []) →
     let made := s.path.reads[r.idx].map (fun x => (x.addr, x.len)) ++ [(a, n)]
     let same (t : State) : Prop := t.mem = s.mem ∧ t.order = s.order ∧ t.bill = s.bill ∧ t.lineUp = s.lineUp ∧
       t.dir = s.dir ∧ t.run = s.run ∧ t.log = s.log ∧ t.scan = s.scan
     (∀ rest, s.readsDue r = made ++ rest → rest ≠ [] → ∃ t, exec .burstComplete s = .next t ∧ t.path.port = .free ∧
       t.path.reads[r.idx] = s.path.reads[r.idx] ++ [{ addr := a, len := n, words := memWords s.mem a n }] ∧ same t) ∧
     (s.readsDue r = made → exec .burstComplete s = .next s) ∧
     ((∀ rest, s.readsDue r ≠ made ++ rest) → ∃ t, exec .burstComplete s = .next t ∧ t.path.port = .free ∧
       t.path.reads[r.idx] = [] ∧ same t)) ∧
   (∀ (s : State) (r : Requester) (x : ReadDone), Memory.wf s.mem = true → s.path.reads[r.idx] = [x] →
     (∀ (i : Nat) (w : Word), x.words[i]? = some w → memWord (s.view r).mem (x.addr + i) = w) ∧
     ∀ a, a < x.addr ∨ x.addr + x.words.length ≤ a → memWord (s.view r).mem a = memWord s.mem a))

/-- A free port goes to a waiting computer cycle, but for the one burst that follows a computer cycle; otherwise to the
first requester after the ring position that presents a request, which becomes the ring position: its oldest request, be
it a write, with the words as they stand at the grant, or the next read burst of its next step. A write that a block
asks for while it presents a read stands behind that read, and a read presented while writes wait stands behind those
writes. With the read of the record with which the dispatch of the oldest queued index begins that index leaves the
Order Queue; no other grant changes the Order Unit. That the index leaves with this grant, and not before, is the
model's reading of R7 (DESIGN CHOICE, assumption 7). A block presents a request while it has a write to make or a step
due with a read to make. A read burst takes 1-16 words. A grant changes no byte of memory. The requests of one block are
granted in the order in which it presents them, reads too: the read that a block presents keeps its place, noted before
an arrival, a report, a notice or a queued index makes another step of it come due, and the step it belongs to then goes
before those, where none has begun. That a read is presented when its step comes due is the model's choice (DESIGN
CHOICE, assumption 7). -/
def Obligations.PortGrants : Prop :=
  (∀ s : State, s.path.port = .free →
    (∀ c, s.path.cycle = some c → s.path.partNext = false ∨ s.nextRequester = none →
      ∃ t, exec .memoryPortGrant s = .next t ∧ t.path.port = .cycle c ∧ t.path.cycle = none ∧ t.path.ring = s.path.ring ∧
        t.path.lines = s.path.lines ∧ t.order = s.order ∧ SameMemory s t) ∧
    (∀ r b rest, s.path.cycle = none ∨ s.path.partNext = true → s.nextRequester = some r →
      s.path.line r = b :: rest → (∀ q, s.readTurn r ≠ some (0, q)) →
      ∃ t, exec .memoryPortGrant s = .next t ∧
        t.path.port = .burst r b (s.burstWords b).1 (s.burstWords b).2 false ∧ t.path.ring = r ∧ t.path.line r = rest ∧
        (∀ n q, s.path.turns[r.idx] = some (n + 1, q) → t.path.turns[r.idx] = some (n, q)) ∧
        t.path.cycle = s.path.cycle ∧ t.order = s.order ∧ SameMemory s t) ∧
    (∀ r a n, s.path.cycle = none ∨ s.path.partNext = true → s.nextRequester = some r →
      s.readTurn r = some (0, (a, n)) ∨ (s.path.line r = [] ∧ s.nextRead r = some (a, n)) →
      ∃ t, exec .memoryPortGrant s = .next t ∧
        t.path.port = .burst r (.read a n) a [] false ∧ t.path.ring = r ∧ t.path.lines = s.path.lines ∧
        t.path.cycle = s.path.cycle ∧ (r ≠ .orderUnit ∨ s.dispatchNext = false → t.order = s.order) ∧
        (∀ i q, r = .orderUnit → s.dispatchNext = true → s.order.queue = i :: q →
          (a, n) = (s.map.sub + 16 * i, 16) ∧
            t.order = { s.order with queue := q, taken := some { sub := i, reorder := false } }) ∧ SameMemory s t) ∧
    (∀ r, s.nextRequester = some r → (s.path.line r ≠ [] ∨ s.nextRead r ≠ none) ∧
      ∀ q ∈ s.path.ring.after.takeWhile (· != r), s.path.line q = [] ∧ s.nextRead q = none) ∧
    (s.nextRequester = none ↔ ∀ r, s.path.line r = [] ∧ s.nextRead r = none) ∧
    (∀ r, (s.nextRead r = none → s.readTurn r = none) ∧
      ∀ q, s.nextRead r = some q →
        (∀ n, s.path.turns[r.idx] = some (n, q) → s.readTurn r = some (n, q)) ∧
        ((∀ n, s.path.turns[r.idx] ≠ some (n, q)) → s.readTurn r = some ((s.path.line r).length, q)) ∧
        ∀ n b, s.readTurn r = some (n, q) → (s.ask r b).nextRead r = some q → (s.ask r b).readTurn r = some (n, q)) ∧
    (∀ r, (s.readsDue r = [] → s.nextRead r = none) ∧
      (s.path.reads[r.idx] = [] → s.nextRead r = (s.readsDue r).head?) ∧
      (∀ made next rest, s.path.reads[r.idx].map (fun x => (x.addr, x.len)) = made →
        s.readsDue r = made ++ next :: rest → s.nextRead r = some next) ∧
      ∀ x ∈ s.readsDue r, 1 ≤ x.2 ∧ x.2 ≤ 16)) ∧
  (∀ (s : State) (r : Requester),
    let places (t : State) : Prop := t.path.turns[r.idx] = s.readTurn r ∧
      ∀ q : Requester, q ≠ r → t.path.turns[q.idx] = s.path.turns[q.idx]
    places (s.keepTurn r) ∧ { s.keepTurn r with path := { (s.keepTurn r).path with turns := s.path.turns } } = s ∧
      (r = .orderUnit →
        (∀ i, s.order.queue.length < Config.orderQueueDepth → places (s.enqueue i)) ∧
        (∀ x, s.order.reports.length < Config.orderReportDepth → places (s.doTask (.orderReport x)).1) ∧
        ∀ x, places (s.handArrival x)) ∧
      (r = .billing → ∀ q, s.bill.queue.length < Config.noticeDepth → places (s.doTask (.notice q)).1) ∧
      ∀ plans : List (List ReadReq),
        (∀ p ∈ plans, s.begun r p = true → s.begun r (s.nextPlan r plans) = true) ∧
        ∀ n q, s.path.turns[r.idx] = some (n, q) → (∀ p ∈ plans, s.begun r p = false) →
          (∃ p ∈ plans, p.head? = some q) → (s.nextPlan r plans).head? = some q)

/-- With no arrival waiting, no cycle in progress and the port free, the arrival command of a heartbeat, time set,
close-out or log consumer word goes to the state that the computer's write, the grant, the carried cycle and the arrival
give one after another. That the command may stand for the whole write is the model's choice (DESIGN CHOICE, assumption
8). -/
def Obligations.ArrivalStandsForItsWrite : Prop :=
  ∀ (w : Word) (i : Nat) (c : Instr) (s s1 s2 s3 : State),
    (i, c) ∈ [(1, Instr.heartbeat w), (2, .timeSet w), (4, .closeOut w), (5, .logConsumer w)] →
    s.path.arrivals = [] → s.path.cycle = none → s.path.port = .free → s.path.partNext = false → s.run.held = false →
    exec (.computerWrite (BitVec.ofNat 20 (Config.commandBase + i)) 0xF w) s = .next s1 →
    exec .memoryPortGrant s1 = .next s2 → exec .passedCycleCarried s2 = .next s3 → exec c s = exec c s3

/-! ### Plant time (chapter 8) -/

/-- Every tick counts the interval timers; it raises the half-second count only while the clock is set, and at the held
top of the clock the count goes back to 0 with no minute event. The timers are the pacing and the blocked-line check
timers of the eight feeders, the scan timer and the supervision timer: a tick gives each its own tick and changes
nothing else. A running timer counts each tick, expires when the count reaches the period and runs on from 0 with the
period last given; a stopped timer does not count. -/
def Obligations.TicksCount : Prop :=
  (∀ s : State,
     (s.time.clockSet = false → exec .halfSecondTick s = .next { s with time := s.time.tickTimers }) ∧
     (s.time.clockSet = true → s.time.half < 119 →
       exec .halfSecondTick s = .next { s with time := { s.time.tickTimers with half := s.time.half + 1 } }) ∧
     (s.time.clockSet = true → s.time.half = 119 → s.time.minute = Config.minuteTop →
       exec .halfSecondTick s = .next { s with time := { s.time.tickTimers with half := 0 } })) ∧
  (∀ x : TimeBase,
     (∀ f : Feeder, x.tickTimers.pacing[f] = x.pacing[f].tick ∧ x.tickTimers.blockedCheck[f] = x.blockedCheck[f].tick) ∧
     x.tickTimers.scan = x.scan.tick ∧ x.tickTimers.supervision = x.supervision.tick ∧
     { x.tickTimers with
       pacing := x.pacing, blockedCheck := x.blockedCheck, scan := x.scan, supervision := x.supervision } = x) ∧
  (∀ t : Timer,
     (t.running = false → t.tick = t) ∧
     (t.running = true → t.count + 1 < t.period → t.tick = { t with count := t.count + 1 }) ∧
     (t.running = true → t.count + 1 = t.period → t.tick = { t with count := 0, period := t.next, due := t.due + 1 }) ∧
     (∀ p, (t.changePeriod p).count = t.count ∧ (t.changePeriod p).period = t.period ∧ (t.changePeriod p).next = p) ∧
     ∀ p, (Timer.start p).count = 0 ∧ (Timer.start p).running = true ∧ (Timer.start p).period = p)

/-- With the clock set, below its top and its half-second count at 119, the minute event raises the minute count by one
and returns the half-second count to 0. In RUNNING, HALTING and HALTED a last-alive burst is asked for; in IDLE the
escalation condition alone is evaluated. In RUNNING and HALTING, with room for them, the schedule check hands a start
report for each event that reaches its start and an end report for each that reaches its end, in slot order, holds the
new states and asks for word 5 of each changed slot; buyers are counted afresh, with word 5 of each changed count; and
each EVENT slot whose window held the minute before and whose carrier is LOW has that minute counted, with a burst of
its carrier words. In RUNNING a SCHEDULED epoch that has fallen due takes the EPOCH boundary at the new minute or, a
boundary outstanding, is HELD with EPOCH HELD; otherwise nothing of it changes. In HALTED none of this is done. An event
is SCHEDULED before its start, RUNNING from it, ENDED from its end. The order of the checks at one minute event is the
model's choice (assumption 50), and the case stated is one with no report of an earlier minute waiting. -/
def Obligations.MinuteEvents : Prop :=
  (∀ s : State, s.time.clockSet = true → s.time.half = 119 → s.time.minute ≠ Config.minuteTop →
     (∃ t, exec .minuteEvent s = .next t ∧ t.time.minute = s.time.minute + 1 ∧ t.time.half = 0 ∧ t.time.clockSet = true ∧
       t.run = s.run ∧ SameMemory s t ∧
       (s.run.part = .running ∨ s.run.part = .halting ∨ s.run.part = .halted →
         Burst.lastAlive ∈ t.path.line .runControl)) ∧
     (s.run.part = .idle → exec .minuteEvent s = .next (State.evalEscalation
       { s with time := { s.time.tickTimers with half := 0, minute := s.time.minute + 1 } }))) ∧
  (∀ (s : State) (c : Copy) (rs : List OrderReport), s.time.clockSet = true → s.time.half = 119 →
     s.time.minute ≠ Config.minuteTop → s.lineUp.copy = some c → s.lineUp.work = [] →
     let n := s.time.minute + 1
     let new (k : SlotId) : EvState := c.slots[k].stateAt n
     rs = (List.finRange 72).filterMap (fun k => changeReport c.ev[k] (new k) c.slots[k].event n) →
     s.order.reports.length + rs.length ≤ Config.orderReportDepth →
     (s.run.part = .running ∨ s.run.part = .halting → ∃ t, exec .minuteEvent s = .next t ∧
       t.order.reports = s.order.reports ++ rs ∧
       (∀ k, (c.ev[k] = .scheduled → new k = .running ∨ new k = .ended → t.active.ev[k] = new k) ∧
         (c.ev[k] = .running → new k = .ended → t.active.ev[k] = .ended) ∧
         (c.ev[k] = .ended ∨ c.ev[k] = .none ∨ new k = .none ∨ new k = .scheduled ∨ new k = c.ev[k] →
           t.active.ev[k] = c.ev[k]) ∧
         (t.active.ev[k] ≠ c.ev[k] → Burst.word5 k ∈ t.path.line .lineUp)) ∧
       (∀ k, t.lineUp.buyers[k] = (if c.slots[k].isEvent then
           (s.order.index.filter fun x => x.event == c.slots[k].event).length else 0) ∧
         (s.lineUp.written5[k] ≠ (t.active.ev[k], t.lineUp.buyers[k]) → Burst.word5 k ∈ t.path.line .lineUp) ∧
         t.lineUp.written5[k] = (t.active.ev[k], t.lineUp.buyers[k])) ∧
       (∀ k, let low := c.slots[k].isEvent = true ∧ c.slots[k].start ≤ s.time.minute ∧ s.time.minute < c.slots[k].stop ∧
           s.scan.slots[k].eval.state = .low
         (low → t.scan.slots[k].loss = min 65535 (s.scan.slots[k].loss + 1) ∧ Burst.carrier k ∈ t.path.line .scanner) ∧
           (¬ low → t.scan.slots[k].loss = s.scan.slots[k].loss)) ∧ SameMemory s t) ∧
     (s.run.part = .running → s.lineUp.epoch = .scheduled → s.lineUp.epochReq ≤ n → s.lineUp.switching = false →
       (s.bill.boundary.kind = .none → ∃ t, exec .minuteEvent s = .next t ∧
         t.bill = { s.bill with
           boundary := { kind := .epoch, minute := n, number := (s.bill.epoch + 1) % 2 ^ 32 }, cursor := 0 } ∧
         t.lineUp.ask = .taken n ∧ t.lineUp.epoch = .scheduled ∧
         Burst.boundary true ∈ t.path.line .billing) ∧
       (s.bill.boundary.kind ≠ .none → s.log.intake.length < Config.intakeDepth → ∃ t, exec .minuteEvent s = .next t ∧
         t.bill = s.bill ∧ t.lineUp.epoch = .held ∧ t.lineUp.ask = s.lineUp.ask ∧
         t.log.intake = s.log.intake ++ [AlarmEntry.mk .epochHeld .minor .none n (word s.lineUp.epochReq)])) ∧
     (s.run.part ≠ .running ∨ s.lineUp.epoch ≠ .scheduled ∨ n < s.lineUp.epochReq ∨ s.lineUp.switching = true →
       ∃ t, exec .minuteEvent s = .next t ∧ t.bill = s.bill ∧ t.lineUp.epoch = s.lineUp.epoch ∧
         t.lineUp.ask = s.lineUp.ask ∧ t.log.intake = s.log.intake) ∧
     (s.run.part = .halted → ∃ t, exec .minuteEvent s = .next t ∧ t.lineUp = s.lineUp ∧ t.bill = s.bill ∧
       t.scan = s.scan ∧ t.order = s.order)) ∧
  ((∀ (x : Slot) (minute : Nat),
     (x.isEvent = false → x.stateAt minute = .none) ∧
     (x.isEvent = true → minute < x.start → x.stateAt minute = .scheduled) ∧
     (x.isEvent = true → x.start ≤ minute → minute < x.stop → x.stateAt minute = .running) ∧
     (x.isEvent = true → x.start ≤ minute → x.stop ≤ minute → x.stateAt minute = .ended)) ∧
   (∀ id n : Nat, changeReport .scheduled .running id n = some (.eventStart id n) ∧
     changeReport .running .ended id n = some (.eventEnd id n) ∧
     changeReport .scheduled .ended id n = some (.eventEnd id n) ∧
     ∀ x : EvState, changeReport x x id n = none ∧ changeReport .ended x id n = none ∧ changeReport .none x id n = none ∧
       changeReport x .scheduled id n = none ∧ changeReport x .none id n = none))

/-- In IDLE a time set arrival sets the clock; in STARTING it is refused REFUSED-BUSY; in RUNNING, HALTING and HALTED a
minute below the clock is refused REFUSED-TIME-BACKWARD, the clock's own minute is accepted with no change of the clock,
and a later one is accepted as a forward jump, which asks for the last-alive burst and evaluates the escalation
condition at the new minute. In RUNNING and HALTING the jump makes one schedule check: with room for them the start and
end reports, in slot order, an event whose whole window was skipped giving an end report alone, and word 5 of each slot
changed. In RUNNING it makes one epoch check: a SCHEDULED epoch that has fallen due takes the EPOCH boundary at the new
minute or, a boundary outstanding, is HELD. No carrier-loss minute and no buyer is counted, the timers run on, and in
HALTED no event changes. The case stated is one with no report of an earlier minute waiting. -/
def Obligations.TimeSets : Prop :=
  ∀ (w : Word) (s : State), s.first .timeSet w →
    (s.run.part = .idle → exec (.timeSet w) s = .next (State.evalEscalation { s.popped with
      time := { s.time with minute := w.toNat, half := 0, clockSet := true, timeResult := .accepted } })) ∧
    (s.run.part = .starting → exec (.timeSet w) s = .next { s.popped with time := { s.time with timeResult := .busy } }) ∧
    (s.run.part = .running ∨ s.run.part = .halting ∨ s.run.part = .halted →
      (w.toNat < s.time.minute →
        exec (.timeSet w) s = .next { s.popped with time := { s.time with timeResult := .timeBackward } }) ∧
      (w.toNat = s.time.minute → ∃ t, exec (.timeSet w) s = .next t ∧
        t.time = { s.time with timeResult := .accepted } ∧ SameMemory s t) ∧
      (s.time.minute < w.toNat → ∃ t, exec (.timeSet w) s = .next t ∧ t.time.minute = w.toNat ∧ t.time.half = 0 ∧
        t.time.clockSet = true ∧ t.time.timeResult = .accepted ∧ t.time.pacing = s.time.pacing ∧
        t.time.blockedCheck = s.time.blockedCheck ∧ t.time.scan = s.time.scan ∧
        t.time.supervision = s.time.supervision ∧ t.scan = s.scan ∧ t.lineUp.buyers = s.lineUp.buyers ∧
        t.log.attention = s.log.attention ∧ t.log.escalated = t.escalationDue ∧ t.log.contact = t.contactDue ∧
        Burst.lastAlive ∈ t.path.line .runControl ∧ t.run = s.run ∧ SameMemory s t ∧
        (s.run.part = .halted → t.lineUp = s.lineUp ∧ t.order = s.order ∧ t.bill = s.bill)) ∧
      (∀ (c : Copy) (rs : List OrderReport), s.time.minute < w.toNat → s.lineUp.copy = some c → s.lineUp.work = [] →
        let n := w.toNat
        let new (k : SlotId) : EvState := c.slots[k].stateAt n
        rs = (List.finRange 72).filterMap (fun k => changeReport c.ev[k] (new k) c.slots[k].event n) →
        s.order.reports.length + rs.length ≤ Config.orderReportDepth →
        (s.run.part = .running ∨ s.run.part = .halting → ∃ t, exec (.timeSet w) s = .next t ∧
          t.order.reports = s.order.reports ++ rs ∧
          ∀ k, (c.ev[k] = .scheduled → new k = .running ∨ new k = .ended → t.active.ev[k] = new k) ∧
            (c.ev[k] = .running → new k = .ended → t.active.ev[k] = .ended) ∧
            (c.ev[k] = .ended ∨ c.ev[k] = .none ∨ new k = .none ∨ new k = .scheduled ∨ new k = c.ev[k] →
              t.active.ev[k] = c.ev[k]) ∧
            (t.active.ev[k] ≠ c.ev[k] → Burst.word5 k ∈ t.path.line .lineUp)) ∧
        (s.run.part = .running → s.lineUp.epoch = .scheduled → s.lineUp.epochReq ≤ n → s.lineUp.switching = false →
          (s.bill.boundary.kind = .none → ∃ t, exec (.timeSet w) s = .next t ∧
            t.bill = { s.bill with
              boundary := { kind := .epoch, minute := n, number := (s.bill.epoch + 1) % 2 ^ 32 }, cursor := 0 } ∧
            t.lineUp.ask = .taken n ∧ t.lineUp.epoch = .scheduled ∧ Burst.boundary true ∈ t.path.line .billing) ∧
          (s.bill.boundary.kind ≠ .none → s.log.intake.length < Config.intakeDepth →
            ∃ t, exec (.timeSet w) s = .next t ∧ t.bill = s.bill ∧ t.lineUp.epoch = .held ∧ t.lineUp.ask = s.lineUp.ask ∧
              t.log.intake = s.log.intake ++ [AlarmEntry.mk .epochHeld .minor .none n (word s.lineUp.epochReq)])) ∧
        (s.run.part ≠ .running ∨ s.lineUp.epoch ≠ .scheduled ∨ n < s.lineUp.epochReq ∨ s.lineUp.switching = true →
          ∃ t, exec (.timeSet w) s = .next t ∧ t.bill = s.bill ∧ t.lineUp.epoch = s.lineUp.epoch ∧
            t.lineUp.ask = s.lineUp.ask ∧ t.log.intake = s.log.intake)))

/-- A heartbeat is refused in IDLE and accepted otherwise. With the controller-silent flag clear nothing else changes
but, in RUNNING with H above 0, the supervision timer, started afresh; a set flag is cleared, CONTROLLER BACK is
submitted with the minutes since the silence, and the contact follows. An expiry with the flag clear sets it, records
the minute, closes the contact and submits CONTROLLER SILENT; with the flag set it does nothing. -/
def Obligations.HeartbeatsAndSupervision : Prop :=
  (∀ (w : Word) (s : State), s.first .heartbeat w →
     (s.run.part = .idle →
       exec (.heartbeat w) s = .next { s.popped with time := { s.time with beatResult := .notRunning } }) ∧
     (s.run.part ≠ .idle → s.time.silent = false → s.run.part ≠ .running →
       exec (.heartbeat w) s = .next { s.popped with time := { s.time with beatResult := .accepted } }) ∧
     (s.run.part = .running → s.time.silent = false → 0 < s.cfg.heartbeat →
       exec (.heartbeat w) s = .next { s.popped with
         time := { s.time with beatResult := .accepted, supervision := Timer.start (2 * s.cfg.heartbeat) } }) ∧
     (s.run.part ≠ .idle → s.time.silent = true → s.time.work = [] → s.log.intake.length < Config.intakeDepth →
       ∃ t, exec (.heartbeat w) s = .next t ∧ t.time.beatResult = .accepted ∧ t.time.silent = false ∧
         t.log.contact = s.log.escalated ∧
         t.log.intake = s.log.intake ++ [AlarmEntry.mk .controllerBack .info .none s.time.minute
           (word (min 65535 (s.time.minute - s.time.silenceMinute)))] ∧ SameMemory s t)) ∧
  (∀ s : State, 0 < s.time.supervision.due → s.run.part ≠ .idle →
     (s.time.silent = true → exec .supervisionExpiry s = .next { s with
       time := { s.time with supervision := { s.time.supervision with due := s.time.supervision.due - 1 } } }) ∧
     (s.time.silent = false → s.time.work = [] → s.log.intake.length < Config.intakeDepth →
       ∃ t, exec .supervisionExpiry s = .next t ∧ t.time.silent = true ∧ t.time.silenceMinute = s.time.minute ∧
         t.log.contact = true ∧
         t.log.intake = s.log.intake ++ [AlarmEntry.mk .controllerSilent .critical .none s.time.minute
           (word s.cfg.heartbeat)] ∧ SameMemory s t))

/-! ### Run Control (chapter 10) -/

/-- RUN from IDLE and HALTED with the clock set goes to STARTING with IN-PROGRESS and the RUN minute and asks for the
last-alive minute, and the reads that the blocks have made stand; with the clock not set it is refused; in RUNNING it is
REFUSED-ALREADY-RUNNING, in HALTING REFUSED-BUSY, and in STARTING nothing changes. At the end of the read of the
last-alive minute a RUN minute not below it goes on to the configuration check; a RUN minute below it has the start
refused REFUSED-TIME-BEFORE-LAST-ALIVE with no fault, the part back in the state it started from, from IDLE with the map
given up and the intake empty, from HALTED with every block as it was. HALT takes RUNNING to HALTING and is refused
elsewhere. Any other command is REFUSED-BAD-ACTION outside STARTING. -/
def Obligations.ControlCommands : Prop :=
  (∀ (w : Word) (s : State), s.first .control w → actionCode w = 1 →
     (s.run.part = .idle ∨ s.run.part = .halted → s.time.clockSet = true →
       ∃ t, exec (.run w) s = .next t ∧ t.run.part = .starting ∧ t.run.result = .inProgress ∧ t.run.fault = .none ∧
         t.run.runMinute = some s.time.minute ∧ (t.run.fromHalted = true ↔ s.run.part = .halted) ∧
         t.path.line .runControl = s.path.line .runControl ++ [.readLastAlive] ∧ t.path.reads = s.path.reads ∧ t.time = s.time ∧ t.cfg = s.cfg ∧
         t.order = s.order ∧ t.lineUp = s.lineUp ∧ t.dir = s.dir ∧ t.engines = s.engines ∧ t.corr = s.corr ∧
         t.bill = s.bill ∧ SameMemory s t) ∧
     (s.run.part = .idle ∨ s.run.part = .halted → s.time.clockSet = false →
       exec (.run w) s = .next { s.popped with run := { s.run with result := .timeNotSet } }) ∧
     (s.run.part = .starting → exec (.run w) s = .next s.popped) ∧
     (s.run.part = .running → exec (.run w) s = .next { s.popped with run := { s.run with result := .alreadyRunning } }) ∧
     (s.run.part = .halting → exec (.run w) s = .next { s.popped with run := { s.run with result := .busy } })) ∧
  (∀ (s : State) (a : Nat), s.quiet → s.run.part = .starting → s.run.phase = .lastAlive →
     s.path.port = .burst .runControl .readLastAlive a [] false →
     let v := (memWord s.mem Config.lastAliveAddr).toNat
     (v ≤ s.runMinute → exec .burstComplete s = .next { s with
       path := { s.path with port := .free, partNext := false }
       run := { s.run with lastAlive := v, phase := .check } }) ∧
     (s.runMinute < v → ∃ t, exec .burstComplete s = .next t ∧ t.path.port = .free ∧
       t.run.result = .timeBeforeLastAlive ∧ t.run.fault = .none ∧ t.run.phase = .none ∧ t.run.staged = none ∧
       t.cfg = s.cfg ∧ t.time = s.time ∧ t.order = s.order ∧ t.dir = s.dir ∧ t.engines = s.engines ∧ t.corr = s.corr ∧
       t.scan = s.scan ∧ t.bill = s.bill ∧ SameMemory s t ∧
       (s.run.fromHalted = false → t.run.part = .idle ∧ t.path.map = none ∧ t.path.protActive = none ∧
         t.path.protSealed = none ∧ t.lineUp.copy = none ∧ t.lineUp.active = none ∧ t.log.intake = []) ∧
       (s.run.fromHalted = true → t.run.part = .halted ∧ t.path.map = s.path.map ∧ t.lineUp = s.lineUp ∧
         t.log = s.log))) ∧
  (∀ (w : Word) (s : State), s.first .control w →
     (actionCode w = 2 →
       (s.run.part = .running → exec (.halt w) s = .next { s.popped with
         run := { s.run with part := .halting, result := .accepted }, order := { s.order with walk := none }
         time := { s.time with supervision := Timer.stopped } }) ∧
       (s.run.part = .idle ∨ s.run.part = .halted →
         exec (.halt w) s = .next { s.popped with run := { s.run with result := .notRunning } }) ∧
       (s.run.part = .halting → exec (.halt w) s = .next { s.popped with run := { s.run with result := .busy } }) ∧
       (s.run.part = .starting → exec (.halt w) s = .next s.popped)) ∧
     (actionCode w = 0 ∨ 4 < actionCode w →
       (s.run.part ≠ .starting →
         exec (.controlBadAction w) s = .next { s.popped with run := { s.run with result := .badAction } }) ∧
       (s.run.part = .starting → exec (.controlBadAction w) s = .next s.popped)))

/-- An accepted CLEAR STATUS, in every part state, clears the suppressed and the ignored-trigger status, arms the WRITE
SUPPRESSED report and sets the configuration fault to NONE, and changes nothing else but the result word; in STARTING
the start and its result stand. -/
def Obligations.ClearStatus : Prop :=
  ∀ (w : Word) (s : State), s.first .control w → actionCode w = 4 →
    exec (.clearStatus w) s = .next { s.popped with
      run := { s.run with fault := .none
                          result := if s.run.part = .starting then s.run.result else .accepted }
      path := { s.popped.path with suppressedCount := 0, suppressedAddr := 0, suppressed := false, ignoredAddr := 0,
                                   ignored := false, armed := true, pendingSub := none } }

/-- The faults of the configuration are judged in the order of R182, and the first that holds is the one found: S, Ns,
the bounds and the overlap of the windows, the tap-line settings, the miss threshold, the roll-call period, the outage
minimum, the attention level, the escalation time, the heartbeat interval, the length of the scan list, an entry of it
outside the table of R116, and the scan mode. Each group of the configuration is judged as its own read burst found it.
A fault refuses the start: the part is back in the state it started from with the fault live and nothing written. A
resume with the layout held keeps the new settings for its entry to RUNNING, and one with another layout is refused. A
cold start goes on to the active bank number, which refuses the start above 1 and else names the bank that is protected;
then to the bank, which passes and becomes the active copy with the event states at the RUN minute, or is asked to have
its failing check written to its header, the start refused ACTIVE-BANK-INVALID at the end of that burst; and, the bank
passed, to the alarm log, after which the settings are in force and the start-up work begins. That each of these parts
is one step, taken at the end of the last of its read bursts, is the model's choice (DESIGN CHOICE, assumption 7). -/
def Obligations.ConfigurationChecks : Prop :=
  (∀ m : List Host.Cell,
     let p := readMap m
     let c := readSettings m
     let len := bits (memWord m (Config.anchorBase + 12)) 0 4
     let mode := bits (memWord m (Config.anchorBase + 11)) 0 4
     let interval := bits (memWord m (Config.anchorBase + 11)) 16 16
     let faults : List (Prop × ConfigFault) := [
       (p.s < 16 ∨ 4096 < p.s, .logSize), (p.ns < 1 ∨ 2048 < p.ns, .subscriberCount),
       (p.windows.any Machine.outOfBounds = true, .windowBounds), (anyOverlap p.windows = true, .windowOverlap),
       (c.rate = 3, .lineRate), (c.window < 8 ∨ 60 < c.window, .answerWindow),
       (c.attempts < 1 ∨ 4 < c.attempts, .attempts), (c.missThr < 2 ∨ 15 < c.missThr, .missThreshold),
       (c.tr < 10 ∨ 3600 < c.tr, .rollCallPeriod), (c.nmin < 1 ∨ 64 < c.nmin, .outageMinimum),
       (c.attention < 1 ∨ p.s < c.attention, .attentionThreshold),
       (c.escalation < 1 ∨ 255 < c.escalation, .escalationTime), (255 < c.heartbeat, .heartbeatInterval),
       (8 < len, .scanList), (∃ e, e < len ∧ readScanEntry m e = none, .scanEntry),
       (3 < mode ∨ mode = 2 ∧ (interval < 1 ∨ 3600 < interval), .scanMode)]
     (∀ (i : Nat) (x : Prop × ConfigFault), faults[i]? = some x → x.1 →
       (∀ (j : Nat) (y : Prop × ConfigFault), j < i → faults[j]? = some y → ¬ y.1) → configFault m = x.2) ∧
     ((∀ x ∈ faults, ¬ x.1) → configFault m = .none) ∧
     (∀ e, let w (i : Nat) : Word := memWord m (Config.anchorBase + 16 + 4 * e + i)
       let kind := bits (w 0) 4 4
       let link := bits (w 0) 24 4
       let level (i lo : Nat) : Int := signedField 16 (bits (w i) lo 16)
       (readScanEntry m e = none ↔ 4 < kind ∨ 12 < bits (w 0) 0 4 ∨ (kind = 4 ∧ bits (w 0) 0 4 ≠ 12) ∨
         (kind ≠ 4 ∧ bits (w 0) 0 4 = 12) ∨ level 1 16 < level 1 0 ∨ level 2 16 < level 2 0 ∨ bits (w 0) 16 4 = 0 ∨
         (7 < link ∧ link ≠ 15) ∨ (link ≠ 15 ∧ kind ≠ 0)))) ∧
  (∀ s : State,
     (s.run.phase = .check → s.hasRead .runControl configReads = true →
       let m := s.seenBy .runControl
       (∀ (g i : Nat) (x : ReadDone) (w : Word), Memory.wf s.mem = true →
         (∀ y ∈ s.path.reads[Requester.runControl.idx], y.words.length = y.len) → g < 5 →
         s.path.reads[Requester.runControl.idx][g]? = some x → x.words[i]? = some w →
         memWord m (Config.anchorBase + 16 * g + i) = w) ∧
       (configFault m ≠ .none → s.run.fromHalted = false →
         ∃ t, exec .configurationCheck s = .next t ∧ t.run.part = .idle ∧ t.run.result = .config ∧
           t.run.fault = configFault m ∧ t.path.map = none ∧ t.log.intake = [] ∧ t.cfg = s.cfg ∧ SameMemory s t) ∧
       (configFault m ≠ .none → s.run.fromHalted = true →
         ∃ t, exec .configurationCheck s = .next t ∧ t.run.part = .halted ∧ t.run.result = .config ∧
           t.run.fault = configFault m ∧ t.path.map = s.path.map ∧ t.cfg = s.cfg ∧ SameMemory s t) ∧
       (configFault m = .none → s.run.fromHalted = true →
         (s.path.map = some (readMap m) → (readSettings m).enable = s.cfg.enable →
           ∃ t, exec .configurationCheck s = .next t ∧ t.run.phase = .enter ∧ t.run.staged = some (readSettings m) ∧
             t.cfg = s.cfg ∧ SameMemory s t) ∧
         (s.path.map ≠ some (readMap m) ∨ (readSettings m).enable ≠ s.cfg.enable →
           ∃ t, exec .configurationCheck s = .next t ∧ t.run.part = .halted ∧ t.run.result = .layoutChanged ∧
             t.run.fault = .none ∧ t.cfg = s.cfg ∧ t.path.map = s.path.map ∧ SameMemory s t)) ∧
       (configFault m = .none → s.run.fromHalted = false →
         ∃ t, exec .configurationCheck s = .next t ∧ t.run.phase = .bankNumber ∧ t.run.part = s.run.part ∧
           t.path.map = some (readMap m) ∧ t.run.staged = some (readSettings m) ∧ t.cfg = s.cfg ∧
           SameMemory s t)) ∧
     (s.run.phase = .bankNumber → s.hasRead .lineUp bankNumberReads = true →
       (1 < (memWord s.mem Config.activeBankAddr).toNat →
         ∃ t, exec .configurationCheck s = .next t ∧ t.run.part = .idle ∧ t.run.result = .config ∧
           t.run.fault = .activeBankNumber ∧ t.path.map = none ∧ t.log.intake = [] ∧ SameMemory s t) ∧
       (∀ b : Bank, (memWord s.mem Config.activeBankAddr).toNat = b.val →
         ∃ t, exec .configurationCheck s = .next t ∧ t.run.phase = .bank b ∧ t.path.protActive = some b ∧
           t.path.protSealed = none ∧ SameMemory s t)) ∧
     (∀ b : Bank, s.run.phase = .bank b → s.hasRead .lineUp (s.bankReads b) = true →
       let v := s.view .lineUp
       (v.bankFault b = none → ∃ t, exec .configurationCheck s = .next t ∧ t.run.phase = .log ∧
         t.lineUp.active = some b ∧ t.lineUp.copy = some (v.readCopy b s.runMinute) ∧ SameMemory s t) ∧
       (∀ r k, v.bankFault b = some (r, k) → ∃ t, exec .configurationCheck s = .next t ∧ t.run.phase = .refusing b ∧
         t.lineUp.last = (r, b, k) ∧ t.lineUp.results[b] = resultField r k ∧
         t.path.line .lineUp = s.path.line .lineUp ++ [.result b] ∧ SameMemory s t)) ∧
     (∀ (b : Bank) (a : Nat) (ws : List Word), s.quiet → s.run.phase = .refusing b →
       s.path.port = .burst .lineUp (.result b) a ws false →
       ∃ t, exec .burstComplete s = .next t ∧ t.run.part = .idle ∧ t.run.result = .config ∧
         t.run.fault = .activeBankInvalid ∧ t.path.map = none ∧ t.path.protActive = none ∧ t.lineUp.copy = none ∧
         t.log.intake = [] ∧ t.mem = memWriteWords s.mem a ws) ∧
     (∀ c, s.run.phase = .log → s.run.staged = some c → s.hasRead .alarm s.logReads = true →
       ∃ t, exec .configurationCheck s = .next t ∧ t.run.phase = .load 0 ∧ t.cfg = c ∧ t.log.loaded = true ∧
         t.lineUp = s.lineUp ∧ SameMemory s t))

/-- A mirror entry of zeros makes a FREE entry with no burst; an entry of a serial not yet in the pool at a position
nobody holds is taken as it stands and is marked for verification where its feeder is enabled. The Billing Unit takes
the numbers in force, the rates of the active copy and the cursor, and takes notices from then on; the scanner takes the
carrier-loss counts of the EVENT slots. When both are done the subscriber pass begins. Each step is taken at the end of
the last of its read bursts, with the words that each of them found (DESIGN CHOICE, assumption 7). -/
def Obligations.StartUpLoads : Prop :=
  (∀ (s : State) (n : Fin 576), s.run.phase = .load n.val → s.dir.work = [] →
     s.hasRead .directory (s.mirrorReads n.val) = true →
     let ws := memWords s.mem (s.map.mirror + 8 * n.val) 8
     (ws = List.replicate 8 0 → ∃ t, exec .directoryLoadEntry s = .next t ∧ t.entry n = Entry.free ∧
       (∀ e, e ≠ n → t.entry e = s.entry e) ∧ t.path.lines = s.path.lines ∧
       t.run.phase = (if n.val < 575 then .load (n.val + 1) else .loads false false) ∧ SameMemory s t) ∧
     (∀ x pl, Entry.ofMirror ws = some x → s.entryOfSerial x.serial = none → x.place = some pl →
       s.placeAt pl.feeder pl.pos = none →
       ∃ t, exec .directoryLoadEntry s = .next t ∧ t.entry n = { x with verify := s.cfg.enable.getLsbD pl.feeder.val } ∧
         (∀ e, e ≠ n → t.entry e = s.entry e) ∧ t.path.lines = s.path.lines ∧
         t.run.phase = (if n.val < 575 then .load (n.val + 1) else .loads false false) ∧ SameMemory s t)) ∧
  ((∀ (s : State) (sc : Bool), s.run.phase = .loads false sc → s.dir.work = [] →
     s.hasRead .billing billingLoadReads = true →
     let m := s.seenBy .billing
     ∃ t, exec .billingLoad s = .next t ∧ t.bill.loaded = true ∧
       t.bill.period = bits (memWord m Config.periodAddr) 0 16 ∧
       t.bill.periodStart = (memWord m Config.periodStartAddr).toNat ∧
       t.bill.prevLen = (memWord m Config.prevLenAddr).toNat ∧
       t.bill.epoch = (memWord m Config.epochNumberAddr).toNat ∧
       t.bill.epochMin = (memWord m Config.epochMinuteAddr).toNat ∧ t.bill.cur = s.active.rates ∧
       t.bill.cursor = bits (memWord m Config.cursorAddr) 0 16 ∧
       t.run.phase = (if sc then .pass 0 else .loads true false) ∧ t.dir = s.dir ∧ t.order = s.order ∧ SameMemory s t) ∧
   (∀ (s : State) (bl : Bool), s.run.phase = .loads bl false → s.dir.work = [] →
     s.hasRead .scanner s.lossReads = true →
     ∃ t, exec .carrierLossLoad s = .next t ∧
       (∀ k : SlotId, t.scan.slots[k].loss =
         if s.active.slots[k].isEvent then bits (memWord (s.seenBy .scanner) (s.slotBase k + 6)) 0 16 else 0) ∧
       t.run.phase = (if bl then .pass 0 else .loads false true) ∧ t.dir = s.dir ∧ t.bill = s.bill ∧ SameMemory s t))

/-- A record that is neither enrolled nor pending and reads back as it is written is passed over; one whose words hold a
value outside its table is asked to be written as the part reads it, enrolled or not. An enrolled record whose claim can
be made again has the port's claim, and its wanted state is computed at the end of a read of words 2-4 (R44), with which
the step ends. A claim whose serial no entry holds, or whose port is claimed already, is not made: it is cleared and
wanted service set OFF, with STOP SERVICE at the RUN minute where it was ON, as it is for wanted service ON without a
claim. A used slot enters the Purchase Index as it reads, BOOKED or OPEN; with 256 entries held it is freed without a
notice; of an ended event, of one the bank does not hold, and where it is the second slot of its event, a BOOKED slot is
freed and an OPEN one enters SETTLING with PPV SETTLE at the RUN minute, without the drop mark for an ended event alone.
That a slot found with 256 entries held is freed ahead of the other exceptions is the model's reading (DEDUCED,
assumption 19), and the read of words 2-4 that follows the record's own is its choice (DESIGN CHOICE, assumption 7). The
pass then goes on with the next record or ends at Ns. That the free slots of a record written are written zero is the
model's reading (assumption 53), and the band of a SETTLING entry without an event is 0, the model's own. The SETTLING
entry beside a BOOKED one is assumption 47. -/
def Obligations.SubscriberPassSteps : Prop :=
  (∀ (s : State) (i : Nat), s.run.phase = .pass i → s.order.work = [] → s.order.taken = none →
    s.hasRead .orderUnit [s.readSub i] = true →
    ((s.ownRec i).enrolled = false → (s.ownRec i).pending = false → strangeRecord (s.subWords i) = false →
      ∃ t, exec .subscriberPassStep s = .next t ∧ t.dir = s.dir ∧ t.order = s.order ∧ t.path.lines = s.path.lines ∧
        t.run.phase = (if i + 1 < s.map.ns then .pass (i + 1) else .lineup) ∧ SameMemory s t) ∧
    ((s.ownRec i).enrolled = false → (s.ownRec i).pending = false → strangeRecord (s.subWords i) = true →
      ∃ t, exec .subscriberPassStep s = .next t ∧ t.dir = s.dir ∧ t.order = s.order ∧
        t.path.line .orderUnit = s.path.line .orderUnit ++ [.sub i (s.ownRec i).partWords false] ∧ SameMemory s t) ∧
    (∀ e p, (s.ownRec i).enrolled = true → s.passClaim (s.ownRec i) = some (e, p) →
      (∀ k : Fin 4, (s.ownRec i).slots[k].used = false) → strangeRecord (s.subWords i) = false →
      ∃ t x, exec .subscriberPassStep s = .next t ∧ (t.tapPort e p).claim = some i ∧ x.i = i ∧ x.record = s.ownRec i ∧
        t.order.work = [.recompute i, .passNext x] ∧ t.run.phase = .pass i ∧ SameMemory s t) ∧
    (let r := s.ownRec i
     let next : StartPhase := if i + 1 < s.map.ns then .pass (i + 1) else .lineup
     let free : Vector Purchase 4 := Vector.replicate 4 Purchase.free
     let settle (event : Nat) (drop : Bool) : QEntry := .notice i (.ppvSettle event drop) s.runMinute
     r.enrolled = true → r.pending = false → strangeRecord (s.subWords i) = false → s.claimOf i = none →
     s.bill.queue.length < Config.noticeDepth →
     ((∀ k : Fin 4, r.slots[k].used = false) →
       (r.claimHeld = true →
         s.entryOfSerial r.claimSerial = none ∨
           (∃ e, s.entryOfSerial r.claimSerial = some e ∧ (s.tapPort e r.claimPort).claim ≠ none) →
         ∃ t, exec .subscriberPassStep s = .next t ∧ t.dir = s.dir ∧ t.order = s.order ∧ t.run.phase = next ∧
           t.bill.queue = s.bill.queue ++ (if r.wantOn then [.notice i .stopService s.runMinute] else []) ∧
           t.path.line .orderUnit = s.path.line .orderUnit ++
             [.sub i { r.unclaimed with wantOn := false, slots := free }.partWords false] ∧ SameMemory s t) ∧
       (r.claimHeld = false → r.wantOn = true →
         ∃ t, exec .subscriberPassStep s = .next t ∧ t.dir = s.dir ∧ t.order = s.order ∧ t.run.phase = next ∧
           t.bill.queue = s.bill.queue ++ [.notice i .stopService s.runMinute] ∧
           t.path.line .orderUnit = s.path.line .orderUnit ++
             [.sub i { r with wantOn := false, slots := free }.partWords false] ∧ SameMemory s t)) ∧
     (r.claimHeld = false → r.wantOn = false →
       let entry (k : Fin 4) (band : Nat) (st : IndexState) : IndexEntry :=
         { sub := i, event := r.slots[k].event, band := band, state := st }
       let made (ix : List IndexEntry) (ns : List QEntry) (bs : List Burst) : Prop :=
         ∃ t, exec .subscriberPassStep s = .next t ∧ t.dir = s.dir ∧ t.run.phase = next ∧
           t.order = { s.order with index := s.order.index ++ ix } ∧ t.bill.queue = s.bill.queue ++ ns ∧
           t.path.line .orderUnit = s.path.line .orderUnit ++ bs ∧ SameMemory s t
       let freed : List Burst := [.sub i { r with slots := free }.partWords false]
       (∀ k : Fin 4, r.slots[k].used = true → (∀ j : Fin 4, j ≠ k → r.slots[j].used = false) →
         (256 ≤ s.order.index.length → made [] [] freed) ∧
         (s.order.index.length < 256 →
           (∀ j : SlotId, s.active.slotOfEvent r.slots[k].event = some j →
             (s.active.ev[j] ≠ .ended →
               (r.slots[k].state = .booked → made [entry k s.active.slots[j].band .booked] [] []) ∧
               (r.slots[k].state = .opened → made [entry k s.active.slots[j].band .opened] [] [])) ∧
             (s.active.ev[j] = .ended →
               (r.slots[k].state = .booked → made [] [] freed) ∧
               (r.slots[k].state = .opened →
                 made [entry k s.active.slots[j].band .settling] [settle r.slots[k].event false] []))) ∧
           (s.active.slotOfEvent r.slots[k].event = none →
             (r.slots[k].state = .booked → made [] [] freed) ∧
             (r.slots[k].state = .opened → made [entry k 0 .settling] [settle r.slots[k].event true] [])))) ∧
       (∀ (k l : Fin 4) (j : SlotId), k < l → r.slots[k].used = true → r.slots[l].used = true →
         (∀ m : Fin 4, m ≠ k → m ≠ l → r.slots[m].used = false) → r.slots[l].event = r.slots[k].event →
         s.active.slotOfEvent r.slots[k].event = some j → s.active.ev[j] ≠ .ended → r.slots[k].state = .booked →
         s.order.index.length + 1 < 256 →
         (r.slots[l].state = .booked → made [entry k s.active.slots[j].band .booked] []
           [.sub i { r with slots := free.set k r.slots[k] }.partWords false]) ∧
         (r.slots[l].state = .opened →
           made [entry k s.active.slots[j].band .booked, entry l s.active.slots[j].band .settling]
             [settle r.slots[l].event true] []))))) ∧
  (∀ (s : State) (x : PassItem) (e : EntryId) (p : Port) (a : Nat),
    s.order.work = [.recompute x.i, .passNext x] → s.claimOf x.i = some (e, p) → x.record.pending = false →
    s.path.reads[Requester.orderUnit.idx] = [] →
    s.path.port = .burst .orderUnit (.read (s.map.sub + 16 * x.i + 2) 3) a [] false →
    ∃ t, exec .burstComplete s = .next t ∧ t.path.port = .free ∧
      t.order = { s.order with work := [], index := s.setBands x.i s.order.index } ∧
      (t.tapPort e p).wanted =
        s.wantedOf x.i (s.ownRec x.i).wantOn (s.ownRec x.i).tiers (s.setBands x.i s.order.index) ∧
      (∀ d, d ≠ e → t.entry d = s.entry d) ∧ t.path.lines = s.path.lines ∧
      t.run.phase = (if x.i + 1 < s.map.ns then .pass (x.i + 1) else .lineup) ∧ SameMemory s t)

/-- The active bank is ACTIVE and alone protected; its header and then word 5 of its slots are asked to be written, and
behind them the pending bank's header is asked to be read. At the end of that read a pending bank that read VALIDATING
is EDITABLE with result ABORTED; one that read SEALED is validated again from its first part, and the start waits for
the outcome; any other is EDITABLE with its result kept. That a SEALED bank is shown VALIDATING at once and has no
header burst until its outcome is the model's choice (DESIGN CHOICE, assumption 49). The scan mode and interval are the
configuration's, every telemetry record reads as cleared with the carrier-loss counts kept, and the whole Telemetry
Block, header, entries and slots, and the carrier words are asked to be written. The Outage List is rebuilt from the
runs of the enabled feeders, by feeder and by first position: the first 16 runs of Nmin or more taps are declared with
the ids from 1 on, their own spans, the RUN minute as declared minute and the earliest silence of their taps as start
minute, and a run beyond them sets the list-full flag. The runs of a feeder are the stretches of LOST taps of its row
that no other tap divides, each position of the row being held by one tap. -/
def Obligations.StartUpStates : Prop :=
  (∀ (s : State) (b : Bank), s.run.phase = .lineup → s.order.work = [] → s.lineUp.active = some b →
     ∃ t, exec .lineupStartup s = .next t ∧ t.lineUp.bankState[b] = .active ∧
       t.lineUp.bankState[Bank.other b] = s.lineUp.bankState[Bank.other b] ∧ t.lineUp.results = s.lineUp.results ∧
       t.path.protActive = some b ∧ t.path.protSealed = none ∧ t.run.phase = .lineupWait ∧ SameMemory s t ∧
       (s.path.line .lineUp = [] → ∃ l, t.path.line .lineUp = .header b :: l ++ [.readPending (Bank.other b)] ∧
         (∀ x ∈ l, ∃ k : SlotId, x = .word5 k) ∧ ∀ k : SlotId, Burst.word5 k ∈ l)) ∧
  (∀ (s : State) (p : Bank) (a : Nat), s.quiet → s.run.phase = .lineupWait →
     s.path.port = .burst .lineUp (.readPending p) a [] false →
     let code := bits (wordAt (s.bankPart p 0) 2) 0 4
     let kept := (wordAt (s.bankPart p 0) 3).setWidth 16
     ∃ t, exec .burstComplete s = .next t ∧ t.path.port = .free ∧
       t.lineUp.bankState[Bank.other p] = s.lineUp.bankState[Bank.other p] ∧ t.path.protActive = s.path.protActive ∧
       t.path.protSealed = s.path.protSealed ∧ SameMemory s t ∧
       (code = 3 → t.lineUp.bankState[p] = .editable ∧ t.lineUp.results[p] = resultField .aborted none ∧
         Burst.header p ∈ t.path.line .lineUp ∧ t.run.phase = .states false false) ∧
       (code = 4 → t.lineUp.bankState[p] = .validating ∧ t.lineUp.results[p] = kept ∧
         Burst.readBank p 0 ∈ t.path.line .lineUp ∧
         (∃ v, t.lineUp.validation = some v ∧ v.bank = p ∧ v.part = 0 ∧ v.edited = false ∧ v.startup = true) ∧
         t.run.phase = .lineupWait) ∧
       (code ≠ 3 → code ≠ 4 → t.lineUp.bankState[p] = .editable ∧ t.lineUp.results[p] = kept ∧
         Burst.header p ∈ t.path.line .lineUp ∧ t.run.phase = .states false false)) ∧
  ((∀ (s : State) (co : Bool), s.run.phase = .states false co →
     ∃ t, exec .scannerStartup s = .next t ∧ t.scan.mode = s.cfg.scanMode ∧ t.scan.interval = s.cfg.scanInterval ∧
       (∀ i : ScanId, t.scan.entries[i] = TeleEntry.cleared) ∧
       (∀ k : SlotId, t.scan.slots[k] = { TeleSlot.cleared with loss := s.scan.slots[k].loss }) ∧
       Burst.teleHeader ∈ t.path.line .scanner ∧ (∀ i : ScanId, Burst.teleEntry i ∈ t.path.line .scanner) ∧
       (∀ k : SlotId, Burst.teleSlot k ∈ t.path.line .scanner) ∧
       (∀ k : SlotId, Burst.carrier k ∈ t.path.line .scanner) ∧
       t.run.phase = (if co then .recon 0 else .states true false) ∧ t.corr = s.corr ∧ SameMemory s t) ∧
   (∀ (s : State) (sc : Bool), s.run.phase = .states sc false → s.corr.work = [] →
     ∃ t, exec .outageRebuild s = .next t ∧ t.corr.outages = s.rebuildList.outages ∧
       t.corr.nextId = s.rebuildList.nextId ∧
       t.run.phase = (if sc then .recon 0 else .states false true) ∧ SameMemory s t ∧
       (s.corr.outages = [] → s.corr.nextId = 1 → s.corr.listFull = false → (∀ f : Feeder, s.corr.lowSupply[f] = 0) →
         (∀ f : Feeder, (s.row f).Pairwise fun x y => x.1 < y.1) →
         let runs : List (Feeder × Row) := ((List.finRange 8).filter fun f => s.cfg.enable.getLsbD f.val).flatMap fun f =>
           ((s.runs f).filter fun r => decide (s.cfg.nmin ≤ r.length)).map fun r => (f, r)
         t.corr.outages.length = min 16 runs.length ∧ t.corr.nextId = min 16 runs.length + 1 ∧
         (t.corr.listFull = true ↔ 16 < runs.length) ∧
         ∀ (n : Nat) (f : Feeder) (r : Row), n < 16 → runs[n]? = some (f, r) →
           ∃ o, t.corr.outages[n]? = some o ∧ o.id = n + 1 ∧ o.feeder = f ∧ o.first = Row.firstPos r ∧
             o.last = Row.lastPos r ∧ o.declared = s.runMinute ∧ (∀ x ∈ r, o.start ≤ (s.entry x.2).silentSince) ∧
             ∃ x ∈ r, o.start = (s.entry x.2).silentSince)) ∧
   (∀ (s : State) (f : Feeder), (s.row f).Pairwise (fun x y => x.1 < y.1) →
     (∀ r ∈ s.runs f, r ≠ [] ∧ r <:+: s.row f ∧ ∀ x ∈ r, (s.entry x.2).state = .lost) ∧
     (∀ x ∈ s.row f, (s.entry x.2).state = .lost → ∃ r ∈ s.runs f, x ∈ r) ∧
     (s.runs f).Pairwise fun r q => ∃ x ∈ s.row f, (s.entry x.2).state ≠ .lost ∧ Row.lastPos r < x.1 ∧ x.1 < Row.firstPos q))

/-- A record that is not enrolled is passed over; at Ns the pass ends and the sweep of an outstanding boundary begins,
and with a single record, now current, ends in the same step, the boundary NONE with its minute and number kept
(DEDUCED, assumption 25); an enrolled record that the pass changes is asked to be written as it then stands, before the
pass goes on. The table: with wanted service OFF, AWAITING and SERVICE become OFF, and an OUTAGE is resolved to OFF;
with it ON and the confirmed state ON, OFF and AWAITING become SERVICE or, the tap covered by an outage, OUTAGE from the
RUN minute; with it ON and another confirmed state, OFF becomes AWAITING; with no confirmed state, SERVICE becomes
AWAITING and an OUTAGE is resolved to AWAITING; every other pair stands. A record is accrued to the RUN minute before a
change, and a differing tier set is taken after an accrual at the old one. A resolved outage reports its overlaps. The
entries of the Notice Queue are handled as they come: the block reads for an entry that waits and for a step of the pass
turn about, the pass's step going next when no entry waits, and where its read was presented before the entry was
handed; that they go turn about is the model's choice (DESIGN CHOICE, assumption 65). -/
def Obligations.ReconciliationSteps : Prop :=
  (∀ (s : State) (i : Nat), s.run.phase = .recon i → s.corr.work = [] → s.bill.work = [] →
     s.hasRead .billing (s.reconReads i) = true →
     let v := s.view .billing
     ((v.subRec i).enrolled = false → i + 1 < s.map.ns → s.bill.sweeping = false →
       ∃ t, exec .reconciliationStep s = .next t ∧ t.run.phase = .recon (i + 1) ∧ t.bill = { s.bill with owes := false } ∧
         SameMemory s t) ∧
     ((v.subRec i).enrolled = false → s.map.ns ≤ i + 1 → s.bill.cursor < s.map.ns → s.map.ns ≠ 1 ∨ s.bill.cursor ≠ 0 →
       ∃ t, exec .reconciliationStep s = .next t ∧ t.run.phase = .enter ∧
         (t.bill.sweeping = true ↔ s.bill.boundary.kind ≠ .none) ∧ SameMemory s t) ∧
     ((v.subRec i).enrolled = false → i = 0 → s.map.ns = 1 → s.bill.cursor = 0 → s.bill.boundary.kind ≠ .none →
       s.lineUp.epoch ≠ .held →
       ∃ t, exec .reconciliationStep s = .next t ∧ t.run.phase = .enter ∧ t.bill.sweeping = false ∧
         t.bill.boundary = { s.bill.boundary with kind := .none } ∧ t.bill.cursor = 1 ∧
         t.path.line .billing = s.path.line .billing ++ [.cursor, .boundary false] ∧ SameMemory s t) ∧
     (∀ r, (v.subRec i).enrolled = true → r = (s.reconcile (v.subRec i) i (s.bill.catchUp s.time.minute (v.billRec i))).1 →
       r ≠ v.billRec i →
       ∃ t, exec .reconciliationStep s = .next t ∧ Burst.bill i r.words ∈ t.path.line .billing ∧
         t.run.phase = .recon i ∧ SameMemory s t)) ∧
  (∀ (s : State) (i : Nat), s.run.phase = .recon i → s.corr.work = [] → s.bill.work = [] → s.bill.loaded = true →
     s.path.reads[Requester.billing.idx] = [] → s.path.port = .free →
     (s.bill.queue = [] ∨ s.bill.owes = true → s.readsDue .billing = s.reconReads i) ∧
     (∀ n, s.path.turns[Requester.billing.idx] = some (n, s.readTiers i) → s.readsDue .billing = s.reconReads i) ∧
     ∀ q rest, s.bill.queue = q :: rest → s.bill.owes = false → s.path.turns[Requester.billing.idx] = none →
       s.readsDue .billing = s.entryReads q) ∧
  (∀ (s : State) (x : SubRec) (i : Nat) (r : BillRec),
     let acc := r.accrue s.time.minute s.bill.cur s.runMinute
     (x.tiers = r.tiers →
       (x.wantOn = false →
         (r.state = .off → s.reconcile x i r = (r, [])) ∧
         (r.state = .awaiting ∨ r.state = .service → s.reconcile x i r = ({ acc with state := .off }, [])) ∧
         (r.state = .outage →
           s.reconcile x i r = ({ acc.resolve s.cfg.tc with state := .off }, s.overlapsOf x acc))) ∧
       (x.wantOn = true →
         (x.confirmed = .on →
           (r.state = .off ∨ r.state = .awaiting →
             (s.tapCovered i = false → s.reconcile x i r = ({ acc with state := .service }, [])) ∧
             (s.tapCovered i = true →
               s.reconcile x i r = ({ acc with state := .outage, began := s.runMinute }, []))) ∧
           (r.state = .service ∨ r.state = .outage → s.reconcile x i r = (r, []))) ∧
         (x.confirmed ≠ .on → r.state = .off → s.reconcile x i r = ({ acc with state := .awaiting }, [])) ∧
         (x.confirmed = .none →
           (r.state = .service → s.reconcile x i r = ({ acc with state := .awaiting }, [])) ∧
           (r.state = .outage →
             s.reconcile x i r = ({ acc.resolve s.cfg.tc with state := .awaiting }, s.overlapsOf x acc))) ∧
         (x.confirmed ≠ .on → r.state = .awaiting → s.reconcile x i r = (r, [])) ∧
         (x.confirmed = .off → r.state ≠ .off → s.reconcile x i r = (r, [])))) ∧
     (x.tiers ≠ r.tiers → let y := s.reconcile { x with tiers := r.tiers } i r
       s.reconcile x i r =
         ({ y.1.accrue s.time.minute s.bill.cur s.runMinute with tiers := x.tiers }, y.2)))

/-- At the entry to RUNNING of a cold start RESUMED is submitted with the downtime, the part is RUNNING with ACCEPTED,
the last-alive burst is asked for, the engines of the enabled feeders are READY, and with H above 0 the supervision
timer is started. A resume waits for the sequence it cut (DEDUCED, assumption 36), then takes the settings read, sets
the backlog flag, submits RESUMED and goes to RUNNING with every engine in its state, a paused enumeration going on from
the next IDENTIFY (R94): a call that was due lapses, and an outcome of before the halt that is not yet taken is noted,
which is the model's reading of that rule (DESIGN CHOICE, assumption 34). HALTED is entered at the moment at which every
engine has its transaction over, the Order Unit's work item is over with its hand-offs and no dispatch is being read,
the Notice Queue is empty and the Billing Unit's work item is over, and no switch is in progress, and not before. A
report or a sweep step whose reads have begun is a work item in progress (DESIGN CHOICE, assumption 7): its first read
has ended or holds the port. That an ask for the boundary counts as the beginning of a switch is the model's reading
(DEDUCED, assumption 38). -/
def Obligations.RunningAndHalted : Prop :=
  (∀ s : State, s.run.phase = .enter → s.run.part = .starting → s.log.intake.length < Config.intakeDepth →
     s.time.silent = false → s.run.fromHalted = false →
     ∃ t, exec .entryToRunning s = .next t ∧ t.run.part = .running ∧ t.run.result = .accepted ∧ t.run.phase = .none ∧
       t.log.intake = s.log.intake ++ [AlarmEntry.mk .resumed .info .none s.time.minute
           (word (s.runMinute - s.run.lastAlive))] ∧
       Burst.lastAlive ∈ t.path.line .runControl ∧
       (∀ f : Feeder, (t.eng f).state = if s.cfg.enable.getLsbD f.val then .ready else (s.eng f).state) ∧
       (0 < s.cfg.heartbeat → t.time.supervision = Timer.start (2 * s.cfg.heartbeat)) ∧ SameMemory s t) ∧
  (∀ s : State, s.run.part = .halting →
     let rest := (∀ f : Feeder, (s.eng f).txn = none) ∧ s.order.work = [] ∧ s.order.taken = none ∧ s.bill.queue = [] ∧
       s.bill.work = [] ∧ s.lineUp.ask = .none ∧ s.lineUp.switch = none ∧ s.reportBegun = false ∧ s.sweepBegun = false
     (s.reportBegun = true ↔ ∃ r more, s.order.reports = r :: more ∧ s.begun .orderUnit (s.reportReads r) = true) ∧
       (s.sweepBegun = true ↔ s.bill.sweeping = true ∧ s.begun .billing [s.readFlags s.bill.cursor] = true) ∧
       (∀ (r : Requester) (q : ReadReq) (plan : List ReadReq), s.begun r [] = false ∧
         (s.begun r (q :: plan) = true ↔ (∃ x more, s.path.reads[r.idx] = x :: more ∧ (x.addr, x.len) = q) ∨
           s.path.reads[r.idx] = [] ∧ ∃ a ws, s.path.port = .burst r (.read q.1 q.2) a ws false)) ∧
     (rest → exec .haltedEntry s = .next { s with run := { s.run with part := .halted } }) ∧
       (¬ rest → exec .haltedEntry s = .next s)) ∧
  (∀ (s : State) (c : Settings), s.run.phase = .enter → s.run.part = .starting → s.run.fromHalted = true →
     s.run.staged = some c →
     (s.scan.scanning = true → exec .entryToRunning s = .next s) ∧
     (s.scan.scanning = false → s.log.intake.length < Config.intakeDepth →
       ∃ t, exec .entryToRunning s = .next t ∧ t.run.part = .running ∧ t.run.result = .accepted ∧ t.run.phase = .none ∧
         t.cfg = c ∧ t.order.backlog = true ∧
         (∀ f : Feeder, t.eng f = { s.eng f with enum := (s.eng f).enum.map fun en =>
           { en with due := none, again := (s.eng f).outcome.isSome } }) ∧
         (∃ l, t.log.intake = s.log.intake ++ [AlarmEntry.mk .resumed .info .none s.time.minute
           (word (s.runMinute - s.run.lastAlive))] ++ l) ∧
         Burst.lastAlive ∈ t.path.line .runControl ∧
         (0 < c.heartbeat → t.time.supervision = Timer.start (2 * c.heartbeat)) ∧ SameMemory s t))

/-! ### Subscribers and orders (chapter 1) -/

/-- An order arrival of kind 0 is dropped; one of a queued index adds nothing; one of an index in flight sets the
reorder flag; one of an index whose record is being read for its dispatch, or whose dispatched order waits in a
hand-off, marks that dispatch for reordering (DEDUCED, assumption 45: such an index counts as in flight); any other goes
to the tail of the Order Queue, a walk in progress ending when the queue reaches 32, or, the queue holding 32, sets the
backlog flag and is not added. A read that the Order Unit presents keeps its place before that of the new index (R176,
`State.keepTurn`). -/
def Obligations.OrderArrivals : Prop :=
  ∀ (i : Nat) (w : Word) (s : State), s.path.map.isSome = true → i < s.map.ns → s.first (.order i) w →
    (bits w 0 8 = 0 → exec (.orderArrival i w) s = .next s.popped) ∧
    (bits w 0 8 ≠ 0 →
      (i ∈ s.order.queue → exec (.orderArrival i w) s = .next s.popped) ∧
      (i ∉ s.order.queue → (∃ x ∈ s.order.inflight, x.sub = i) →
        exec (.orderArrival i w) s = .next { s.popped with order := { s.order with
          inflight := s.order.inflight.map fun x => if x.sub = i then { x with reorder := true } else x } }) ∧
      (i ∉ s.order.queue → (∀ x ∈ s.order.inflight, x.sub ≠ i) → s.dispatching i = true →
        exec (.orderArrival i w) s = .next { s.popped with order := { s.order with
          taken := s.order.taken.map fun x => if x.sub = i then { x with reorder := true } else x
          work := s.order.work.map (Task.reordered i) } }) ∧
      (s.dispatching i = true ↔ (∃ x, s.order.taken = some x ∧ x.sub = i) ∨ ∃ o, Task.applyOrder o ∈ s.order.work ∧ o.sub = i) ∧
      (i ∉ s.order.queue → (∀ x ∈ s.order.inflight, x.sub ≠ i) → s.dispatching i = false →
        (s.order.queue.length < 32 →
          exec (.orderArrival i w) s = .next { s.popped.keepTurn .orderUnit with order := { s.order with
            queue := s.order.queue ++ [i]
            walk := if s.order.queue.length + 1 = 32 then none else s.order.walk } }) ∧
        (32 ≤ s.order.queue.length → ∃ t, exec (.orderArrival i w) s = .next t ∧ t.order.backlog = true ∧
          t.order.queue = s.order.queue ∧ t.order.inflight = s.order.inflight ∧ SameMemory s t)))

/-- A walk starts while the queue holds fewer than 8, appends a record that is pending and neither queued nor in flight,
goes from index to index, ends when the queue reaches 32 with the flag standing, begins again from index 0 at Ns where
it has appended an index or the queue was found full, and a walk that ends with none appended and the queue never full
clears the backlog flag. A step is taken at the end of its read burst (assumption 7). An index whose dispatch is in
progress counts as in flight (`State.knows`; DEDUCED, assumption 45). -/
def Obligations.BacklogWalks : Prop :=
  ∀ s : State, s.run.part = .running → s.order.backlog = true →
    s.hasRead .orderUnit [s.readOrder s.walkNext] = true →
    (s.order.walk = none → s.order.queue.length < 8 → 1 < s.map.ns →
      (∃ t, exec .backlogWalkStep s = .next t ∧ t.order.backlog = true ∧
        t.order.queue = (if (s.ownRec 0).pending = true ∧ s.knows 0 = false then s.order.queue ++ [0] else s.order.queue) ∧
        t.order.walk = some { next := 1, appended := (s.ownRec 0).pending && !s.knows 0, full := false } ∧
        t.order.inflight = s.order.inflight ∧ SameMemory s t)) ∧
    (∀ k : Walk, s.order.walk = some k → s.order.queue.length = 31 → (s.ownRec k.next).pending = true →
      s.knows k.next = false →
      ∃ t, exec .backlogWalkStep s = .next t ∧ t.order.backlog = true ∧ t.order.walk = none ∧
        t.order.queue = s.order.queue ++ [k.next] ∧ SameMemory s t) ∧
    (∀ i, s.knows i = true ↔ i ∈ s.order.queue ∨ (∃ x ∈ s.order.inflight, x.sub = i) ∨ s.dispatching i = true) ∧
    (∀ k : Walk, s.order.walk = some k → s.order.queue.length < 31 →
      let add := (s.ownRec k.next).pending = true ∧ s.knows k.next = false
      ∃ t, exec .backlogWalkStep s = .next t ∧ SameMemory s t ∧
        (k.next + 1 < s.map.ns → t.order = { s.order with
          queue := if add then s.order.queue ++ [k.next] else s.order.queue
          walk := some { next := k.next + 1, appended := k.appended || decide add, full := k.full } }) ∧
        (s.map.ns ≤ k.next + 1 → k.appended = true ∨ k.full = true ∨ add → t.order = { s.order with
          queue := if add then s.order.queue ++ [k.next] else s.order.queue
          walk := some { next := 0, appended := false, full := false } })) ∧
    (∀ k : Walk, s.order.walk = some k → s.order.queue.length < 32 → s.map.ns ≤ k.next + 1 →
      k.appended = false → k.full = false → (s.ownRec k.next).pending = false →
      ∃ t, exec .backlogWalkStep s = .next t ∧ t.order.backlog = false ∧ t.order.walk = none ∧
        t.order.queue = s.order.queue ∧ SameMemory s t)

/-- A record no longer pending ends its dispatch with no write; that it is the BAD ORDER command that takes such a
record is the model's reading of the command table (DEDUCED, assumption 14). A kind outside 1 to 9 is refused BAD-ORDER.
NOT-ENROLLED comes before the kind's own refusals; a refused order completes at once with its code in one burst, and
neither the Tap Directory, the Notice Queue nor any engine is touched. Where an order arrival of the index came
meanwhile the index is put back as that of a reordered completion is (R9; DEDUCED, assumption 45). -/
def Obligations.RefusedOrders : Prop :=
  (∀ (s : State) (x : Dispatch), s.order.taken = some x → s.dispatchReady x.sub = true →
     let r := s.dispatched x.sub
     let gone := OrderUnit.backAgain { s.order with taken := none } x.sub x.reorder
     (r.pending = false → ∃ t, exec .badOrder s = .next t ∧ t.order = gone ∧
       t.path.lines = s.path.lines ∧ t.dir = s.dir ∧ t.bill = s.bill ∧ SameMemory s t) ∧
     (r.pending = true → r.okind < 1 ∨ 9 < r.okind →
       ∃ t, exec .badOrder s = .next t ∧ t.order = gone ∧
         t.path.line .orderUnit = s.path.line .orderUnit ++ [.sub x.sub (r.complete r.oserial .badOrder).partWords false] ∧
         t.dir = s.dir ∧ t.bill = s.bill ∧ SameMemory s t)) ∧
  (∀ (s : State) (kind : OrderKind) (i : Nat) (reorder : Bool) (res : OrderResult), s.dueOrder kind i reorder →
     let r := s.dispatched i
     (kind ≠ .enrol ∧ r.enrolled = false ∧ res = .notEnrolled) ∨
       (kind = .enrol ∨ r.enrolled = true) ∧ (s.view .orderUnit).judge kind i r = .refused res →
     ∃ t, exec (orderCommand kind) s = .next t ∧
       t.order = OrderUnit.backAgain { s.order with taken := none } i reorder ∧
       t.path.line .orderUnit = s.path.line .orderUnit ++ [.sub i (r.complete r.oserial res).partWords false] ∧
       t.dir = s.dir ∧ t.bill = s.bill ∧ t.engines = s.engines ∧ SameMemory s t)

/-- What each kind of order is refused for: ENROL of an enrolled record; CONNECT and MOVE without a tap or to a port
another subscriber claims; DISCONNECT and BUY without wanted service, MOVE and AUDIT without a claim; a MOVE to the same
port; a BUY of event id 0 or of an event not in the line-up, of an ENDED one, of one already bought, with no free slot,
and with the Purchase Index full, in that order; a CANCEL of nothing or of an OPEN purchase; and a REMOVE of a
subscriber in service, unbilled, or with a purchase, in that order. RETIER is refused for nothing of its own. -/
def Obligations.OrderRefusals : Prop :=
  ∀ (s : State) (i : Nat) (r : SubRec),
    (r.enrolled = true → s.judge .enrol i r = .refused .alreadyEnrolled) ∧
    (r.claimHeld = false → s.entryOfSerial r.serial = none → s.judge .connect i r = .refused .noSuchTap) ∧
    (∀ e j, r.claimHeld = false → s.entryOfSerial r.serial = some e → (s.tapPort e r.port).claim = some j → j ≠ i →
      s.judge .connect i r = .refused .portInUse) ∧
    (r.wantOn = false → s.judge .disconnect i r = .refused .notConnected) ∧
    (r.claimHeld = false → s.judge .move i r = .refused .notConnected) ∧
    (r.claimHeld = true → s.entryOfSerial r.serial = none → s.judge .move i r = .refused .noSuchTap) ∧
    (∀ e, r.claimHeld = true → s.entryOfSerial r.serial = some e → s.claimOf i = some (e, r.port) →
      s.judge .move i r = .refused .samePort) ∧
    (r.wantOn = false → s.judge .buy i r = .refused .notConnected) ∧
    (∀ e j, r.claimHeld = true → s.entryOfSerial r.serial = some e → s.claimOf i ≠ some (e, r.port) →
      (s.tapPort e r.port).claim = some j → j ≠ i → s.judge .move i r = .refused .portInUse) ∧
    (r.wantOn = true → r.oarg = 0 ∨ s.active.slotOfEvent r.oarg = none → s.judge .buy i r = .refused .noSuchEvent) ∧
    (∀ k : SlotId, r.wantOn = true → r.oarg ≠ 0 → s.active.slotOfEvent r.oarg = some k →
      (s.active.ev[k] = .ended → s.judge .buy i r = .refused .eventEnded) ∧
      (s.active.ev[k] ≠ .ended → r.slotOf r.oarg ≠ none → s.judge .buy i r = .refused .duplicate) ∧
      (s.active.ev[k] ≠ .ended → r.slotOf r.oarg = none → (∀ j : Fin 4, r.slots[j].used = true) →
        s.judge .buy i r = .refused .purchaseLimit) ∧
      (s.active.ev[k] ≠ .ended → r.slotOf r.oarg = none → (∃ j : Fin 4, r.slots[j].used = false) →
        256 ≤ s.order.index.length → s.judge .buy i r = .refused .indexFull)) ∧
    (r.slotOf r.oarg = none → s.judge .cancel i r = .refused .notBooked) ∧
    (∀ k : Fin 4, r.slotOf r.oarg = some k → r.slots[k].state = .opened → s.judge .cancel i r = .refused .alreadyOpen) ∧
    (r.claimHeld = false → s.judge .audit i r = .refused .notConnected) ∧
    (r.wantOn = true ∨ (s.billRec i).state ≠ .off → s.judge .remove i r = .refused .notOff) ∧
    (r.wantOn = false → (s.billRec i).state = .off →
      (s.billRec i).a ≠ 0 ∨ (s.billRec i).o ≠ 0 ∨ (s.billRec i).k ≠ 0 ∨ (s.billRec i).charged ≠ 0 ∨
        (s.billRec i).refunded ≠ 0 → s.judge .remove i r = .refused .unbilled) ∧
    (∀ k : Fin 4, r.wantOn = false → (s.billRec i).state = .off → (s.billRec i).a = 0 → (s.billRec i).o = 0 →
      (s.billRec i).k = 0 → (s.billRec i).charged = 0 → (s.billRec i).refunded = 0 → r.slots[k].used = true →
      s.judge .remove i r = .refused .purchasesOpen) ∧
    s.judge .retier i r = .accepted [.retier r.tiers] none

/-- ENROL hands ENROL INIT, writes the record afresh with its completion in one burst and is DONE. A DISCONNECT of a
subscriber that holds a claim sets the port's wanted state off and hands STOP SERVICE; with the port off as last applied
it is DONE at once in one burst, otherwise the port is marked, the record is written with wanted service OFF and the
order goes in flight. A RETIER without a claim hands RETIER and is DONE; one with a claim computes the wanted state
again and is DONE where wanted service is OFF or the wanted state is already applied, and goes in flight otherwise, with
no record burst since no part-owned word changes (R7; DEDUCED, assumption 18). One of these that needs a tap that is
LOST, unplaced, or placed on a feeder that is OFF completes at once DEFERRED in one burst, its failure counted, with the
port's wanted state changed and so left dirty (R8); so does one whose feeder is BLOCKED, which has its port marked
(R68). An accepted REMOVE gives up a claim, sets its port's wanted state off and is DONE. Each command completes under
these conditions, with the record's words read at the end of the dispatch's last read burst. No byte of memory changes.
-/
def Obligations.OrdersDoneAtOnce : Prop :=
  ∀ (s : State) (i : Nat), s.bill.queue.length < Config.noticeDepth →
    let r := s.dispatched i
    (s.dueOrder .enrol i → r.enrolled = false →
      ∃ t, exec .enrol s = .next t ∧ t.order = { s.order with taken := none } ∧
        t.bill = { s.bill with queue := s.bill.queue ++ [.notice i (.enrolInit r.tiers) s.time.minute] } ∧
        t.path.line .orderUnit = s.path.line .orderUnit ++ [.sub i (r.afresh.complete r.oserial .done).partWords false] ∧ t.dir = s.dir ∧
        SameMemory s t) ∧
    (∀ e p, s.dueOrder .disconnect i → r.enrolled = true → r.wantOn = true → s.claimOf i = some (e, p) →
      ((s.tapPort e p).applied = some PortState.off →
        ∃ t, exec .disconnect s = .next t ∧
          t.order = { s.order with taken := none, index := s.setBands i s.order.index } ∧
          t.bill = { s.bill with queue := s.bill.queue ++ [.notice i .stopService s.time.minute] } ∧
          t.path.line .orderUnit = s.path.line .orderUnit ++
            [.sub i ({ r with wantOn := false }.complete r.oserial .done).partWords false] ∧
          t.tapPort e p = { s.tapPort e p with wanted := PortState.off } ∧ (∀ d, d ≠ e → t.entry d = s.entry d) ∧
          SameMemory s t) ∧
      (∀ pl, (s.tapPort e p).applied ≠ some PortState.off → (s.entry e).state ≠ .lost → (s.entry e).place = some pl →
        (s.eng pl.feeder).state ≠ .off → (s.eng pl.feeder).state ≠ .blocked →
        ∃ t, exec .disconnect s = .next t ∧
          t.order = { s.order with
            taken := none, index := s.setBands i s.order.index, nextSeq := s.order.nextSeq + 1
            inflight := s.order.inflight ++ [InFlight.mk i r.oserial .disconnect e p false false s.order.nextSeq] } ∧
          t.bill = { s.bill with queue := s.bill.queue ++ [.notice i .stopService s.time.minute] } ∧
          t.path.line .orderUnit = s.path.line .orderUnit ++ [.sub i { r with wantOn := false }.partWords false] ∧
          t.tapPort e p = { s.tapPort e p with wanted := PortState.off, reapply := true } ∧
          (∀ d, d ≠ e → t.entry d = s.entry d) ∧ SameMemory s t) ∧
      (∀ blocked, (s.tapPort e p).applied ≠ some PortState.off → s.tapOut e blocked →
        ∃ t, exec .disconnect s = .next t ∧
          t.order = { s.order with taken := none, index := s.setBands i s.order.index } ∧
          t.bill = { s.bill with queue := s.bill.queue ++ [.notice i .stopService s.time.minute] } ∧
          t.path.line .orderUnit = s.path.line .orderUnit ++
            [.sub i { r with wantOn := false }.deferred.partWords false] ∧
          t.tapPort e p = { s.tapPort e p with
            wanted := PortState.off, reapply := (s.tapPort e p).reapply || blocked } ∧
          (∀ d, d ≠ e → t.entry d = s.entry d) ∧ SameMemory s t)) ∧
    (s.dueOrder .retier i → r.enrolled = true → s.claimOf i = none →
      ∃ t, exec .retier s = .next t ∧ t.order = { s.order with taken := none } ∧
        t.bill = { s.bill with queue := s.bill.queue ++ [.notice i (.retier r.tiers) s.time.minute] } ∧
        t.path.line .orderUnit = s.path.line .orderUnit ++ [.sub i (r.complete r.oserial .done).partWords false] ∧
        t.dir = s.dir ∧ SameMemory s t) ∧
    (∀ e p, s.dueOrder .retier i → r.enrolled = true → s.claimOf i = some (e, p) →
      let w := s.wantedOf i r.wantOn r.tiers (s.setBands i s.order.index)
      (r.wantOn = false ∨ (s.tapPort e p).applied = some w →
        ∃ t, exec .retier s = .next t ∧
          t.order = { s.order with taken := none, index := s.setBands i s.order.index } ∧
          t.bill = { s.bill with queue := s.bill.queue ++ [.notice i (.retier r.tiers) s.time.minute] } ∧
          t.path.line .orderUnit = s.path.line .orderUnit ++ [.sub i (r.complete r.oserial .done).partWords false] ∧
          t.tapPort e p = { s.tapPort e p with wanted := w } ∧ (∀ d, d ≠ e → t.entry d = s.entry d) ∧
          SameMemory s t) ∧
      (∀ pl, r.wantOn = true → (s.tapPort e p).applied ≠ some w → (s.entry e).state ≠ .lost →
        (s.entry e).place = some pl → (s.eng pl.feeder).state ≠ .off → (s.eng pl.feeder).state ≠ .blocked →
        ∃ t, exec .retier s = .next t ∧
          t.order = { s.order with
            taken := none, index := s.setBands i s.order.index, nextSeq := s.order.nextSeq + 1
            inflight := s.order.inflight ++ [InFlight.mk i r.oserial .retier e p false false s.order.nextSeq] } ∧
          t.bill = { s.bill with queue := s.bill.queue ++ [.notice i (.retier r.tiers) s.time.minute] } ∧
          t.path.lines = s.path.lines ∧ t.tapPort e p = { s.tapPort e p with wanted := w, reapply := true } ∧
          (∀ d, d ≠ e → t.entry d = s.entry d) ∧ SameMemory s t) ∧
      (∀ blocked, r.wantOn = true → (s.tapPort e p).applied ≠ some w → s.tapOut e blocked →
        ∃ t, exec .retier s = .next t ∧
          t.order = { s.order with taken := none, index := s.setBands i s.order.index } ∧
          t.bill = { s.bill with queue := s.bill.queue ++ [.notice i (.retier r.tiers) s.time.minute] } ∧
          t.path.line .orderUnit = s.path.line .orderUnit ++ [.sub i r.deferred.partWords false] ∧
          t.tapPort e p = { s.tapPort e p with wanted := w, reapply := (s.tapPort e p).reapply || blocked } ∧
          (∀ d, d ≠ e → t.entry d = s.entry d) ∧ SameMemory s t)) ∧
    (let b := (s.view .orderUnit).billRec i
     s.dueOrder .remove i → r.enrolled = true → r.wantOn = false → b.state = .off → b.a = 0 → b.o = 0 → b.k = 0 →
     b.charged = 0 → b.refunded = 0 →
     (∀ k : Fin 4, r.slots[k].used = false) →
     ∃ t, exec .remove s = .next t ∧ t.order = { s.order with taken := none } ∧ t.bill = s.bill ∧
       t.path.line .orderUnit = s.path.line .orderUnit ++
         [.sub i ({ (s.ownRec i).unclaimed with enrolled := false }.complete r.oserial .done).partWords false] ∧
       (s.claimOf i = none → t.dir = s.dir) ∧
       (∀ e p, s.claimOf i = some (e, p) →
         t.tapPort e p = { s.tapPort e p with claim := none, wanted := PortState.off } ∧
           ∀ d, d ≠ e → t.entry d = s.entry d) ∧ SameMemory s t)

/-- A CONNECT of a tap whose port nobody has claimed makes the claim, hands AWAIT SERVICE, sets the wanted state, and
writes claim held, claimed port and serial, wanted service ON and confirmed NONE in one burst: with the wanted state
applied the order is DONE with it (DEDUCED, assumption 15), and otherwise, where the tap can be reached, the port is
marked and the order enters the In-flight Table. A CONNECT of a subscriber with a claim makes no other: with wanted
service OFF it hands AWAIT SERVICE, sets it ON and is DONE at once where the wanted state is applied; with it ON it
hands nothing, writes nothing and marks the port; it goes in flight where the tap can be reached (that no burst is
written where no word of the record changes is DEDUCED, assumption 18). A MOVE gives up the old port, its wanted state
off, claims the new one, whose wanted state is computed, and hands MOVE; the claim and confirmed NONE are written with
its completion, or, when it goes in flight, in one burst unless no word changes; with the wanted state applied it is
DONE at once (DEDUCED, assumption 15). A CONNECT or a MOVE that needs a tap that is LOST, unplaced, or placed on a
feeder that is OFF completes at once DEFERRED in one burst with these words, its failure counted and the port left dirty
(R8), and one whose feeder is BLOCKED does so with its port marked (R68). The wanted state is off with no band for
wanted service OFF; for ON it is on, a CLOSED band's bit clear, a TIER band's that of its tier in the tier set, and an
EVENT band's set exactly where the one event of the line-up RUNNING in the band has a BOOKED or OPEN Purchase Index
entry of the subscriber; the entries keep their number and order, their bands are taken afresh from the line-up in
force, and an event it no longer holds keeps its band. -/
def Obligations.ClaimsMadeAndMoved : Prop :=
  (∀ (s : State) (i : Nat) (e : EntryId), s.bill.queue.length < Config.noticeDepth →
     let r := s.dispatched i
     r.enrolled = true → s.entryOfSerial r.serial = some e → (s.tapPort e r.port).claim = none →
     (s.dueOrder .connect i → r.claimHeld = false → r.wantOn = false → s.claimOf i = none →
       let w : PortState := { on := true, mask := s.passMask i r.tiers (s.setBands i s.order.index) }
       let r1 := { r with claimHeld := true, claimPort := r.port, claimSerial := r.serial, wantOn := true
                          confirmed := .none }
       let made (t : State) (x : TapPort) (b : SubRec) : Prop :=
         t.tapPort e r.port = { x with claim := some i, wanted := w } ∧ (∀ d, d ≠ e → t.entry d = s.entry d) ∧
         t.path.line .orderUnit = s.path.line .orderUnit ++ [.sub i b.partWords false] ∧
         t.bill = { s.bill with queue := s.bill.queue ++ [.notice i .awaitService s.time.minute] } ∧ SameMemory s t
       let left : OrderUnit := { s.order with taken := none, index := s.setBands i s.order.index }
       ((s.tapPort e r.port).applied ≠ some w → s.tapIn e →
         ∃ t, exec .connect s = .next t ∧ made t { s.tapPort e r.port with reapply := true } r1 ∧
           t.order = { left with
             nextSeq := s.order.nextSeq + 1
             inflight := s.order.inflight ++
               [InFlight.mk i r.oserial .connect e r.port false false s.order.nextSeq] }) ∧
       ((s.tapPort e r.port).applied = some w →
         ∃ t, exec .connect s = .next t ∧ made t (s.tapPort e r.port) (r1.complete r.oserial .done) ∧ t.order = left) ∧
       (∀ blocked, (s.tapPort e r.port).applied ≠ some w → s.tapOut e blocked →
         ∃ t, exec .connect s = .next t ∧
           made t { s.tapPort e r.port with reapply := (s.tapPort e r.port).reapply || blocked } r1.deferred ∧
           t.order = left)) ∧
     (∀ e0 p0, s.dueOrder .move i → r.claimHeld = true → s.claimOf i = some (e0, p0) → (e0, p0) ≠ (e, r.port) →
       ∃ t, exec .move s = .next t ∧ t.order.queue = s.order.queue ∧ t.order.taken = none ∧ (t.tapPort e r.port).claim = some i ∧
         ((∀ d x, (s.tapPort d x).claim = some i → (d, x) = (e0, p0)) →
           let w := s.wantedOf i r.wantOn r.tiers (s.setBands i s.order.index)
           let r1 := { r with claimHeld := true, claimPort := r.port, claimSerial := r.serial, confirmed := .none }
           (t.tapPort e r.port).wanted = w ∧
           ((s.tapPort e r.port).applied = some w → t.order.inflight = s.order.inflight ∧
             t.path.line .orderUnit = s.path.line .orderUnit ++
               [.sub i (r1.complete r.oserial .done).partWords false]) ∧
           (∀ blocked, (s.tapPort e r.port).applied ≠ some w → s.tapOut e blocked →
             (t.tapPort e r.port).reapply = ((s.tapPort e r.port).reapply || blocked) ∧
             t.order.inflight = s.order.inflight ∧
             t.path.line .orderUnit = s.path.line .orderUnit ++ [.sub i r1.deferred.partWords false]) ∧
           (∀ pl, (s.tapPort e r.port).applied ≠ some w → (s.entry e).state ≠ .lost → (s.entry e).place = some pl →
             (s.eng pl.feeder).state ≠ .off → (s.eng pl.feeder).state ≠ .blocked →
             (t.tapPort e r.port).reapply = true ∧
             t.order.inflight = s.order.inflight ++
               [InFlight.mk i r.oserial .move e r.port false false s.order.nextSeq] ∧
             t.path.line .orderUnit = s.path.line .orderUnit ++
               (if r1.partWords = r.partWords then [] else [.sub i r1.partWords false]))) ∧
         (t.tapPort e0 p0).claim = none ∧ (t.tapPort e0 p0).wanted = PortState.off ∧
         t.bill = { s.bill with queue := s.bill.queue ++ [.notice i .move s.time.minute] } ∧ SameMemory s t)) ∧
  (∀ (s : State) (i : Nat) (e : EntryId) (p : Port), s.bill.queue.length < Config.noticeDepth →
     s.dueOrder .connect i →
     let r := s.dispatched i
     r.enrolled = true → r.claimHeld = true → s.claimOf i = some (e, p) →
     let r1 := if r.wantOn then r else { r with wantOn := true, confirmed := .none }
     let w := s.wantedOf i true r.tiers (s.setBands i s.order.index)
     let notices := if r.wantOn then [] else [QEntry.notice i .awaitService s.time.minute]
     (r.wantOn = false → (s.tapPort e p).applied = some w →
       ∃ t, exec .connect s = .next t ∧
         t.order = { s.order with taken := none, index := s.setBands i s.order.index } ∧
         t.bill = { s.bill with queue := s.bill.queue ++ notices } ∧
         t.path.line .orderUnit = s.path.line .orderUnit ++ [.sub i (r1.complete r.oserial .done).partWords false] ∧
         t.tapPort e p = { s.tapPort e p with wanted := w } ∧ (∀ d, d ≠ e → t.entry d = s.entry d) ∧ SameMemory s t) ∧
     (∀ pl, r.wantOn = true ∨ (s.tapPort e p).applied ≠ some w → (s.entry e).state ≠ .lost →
       (s.entry e).place = some pl → (s.eng pl.feeder).state ≠ .off → (s.eng pl.feeder).state ≠ .blocked →
       ∃ t, exec .connect s = .next t ∧
         t.order = { s.order with
           taken := none, index := s.setBands i s.order.index, nextSeq := s.order.nextSeq + 1
           inflight := s.order.inflight ++ [InFlight.mk i r.oserial .connect e p false false s.order.nextSeq] } ∧
         t.bill = { s.bill with queue := s.bill.queue ++ notices } ∧
         t.path.line .orderUnit = s.path.line .orderUnit ++
           (if r.wantOn then [] else [.sub i r1.partWords false]) ∧
         t.tapPort e p = { s.tapPort e p with wanted := w, reapply := true } ∧
         (∀ d, d ≠ e → t.entry d = s.entry d) ∧ SameMemory s t) ∧
     (∀ blocked, r.wantOn = true ∨ (s.tapPort e p).applied ≠ some w → s.tapOut e blocked →
       ∃ t, exec .connect s = .next t ∧
         t.order = { s.order with taken := none, index := s.setBands i s.order.index } ∧
         t.bill = { s.bill with queue := s.bill.queue ++ notices } ∧
         t.path.line .orderUnit = s.path.line .orderUnit ++ [.sub i r1.deferred.partWords false] ∧
         t.tapPort e p = { s.tapPort e p with
           wanted := w, reapply := (s.tapPort e p).reapply || r.wantOn || blocked } ∧
         (∀ d, d ≠ e → t.entry d = s.entry d) ∧ SameMemory s t)) ∧
  (∀ (s : State) (sub : Nat) (wantOn : Bool) (tiers : BitVec 16) (index : List IndexEntry),
     (wantOn = false → s.wantedOf sub wantOn tiers index = { on := false, mask := 0 }) ∧
     (wantOn = true → (s.wantedOf sub wantOn tiers index).on = true ∧
       ∀ b : Fin 8, let bit := (s.wantedOf sub wantOn tiers index).mask.getLsbD b.val
         (s.active.plan[b].kind = .closed → bit = false) ∧
         (s.active.plan[b].kind = .tier → bit = tiers.getLsbD s.active.plan[b].tier) ∧
         (s.active.plan[b].kind = .event → (bit = true ↔ ∃ id, s.active.runningIn b.val = some id ∧
           ∃ x ∈ index, x.sub = sub ∧ x.event = id ∧ x.state ≠ .settling))) ∧
     (∀ (b : Nat) (k : SlotId), s.active.slots[k].isEvent = true → s.active.slots[k].band = b → s.active.ev[k] = .running →
       (∀ j : SlotId, j ≠ k → ¬ (s.active.slots[j].isEvent = true ∧ s.active.slots[j].band = b ∧
         s.active.ev[j] = .running)) →
       s.active.runningIn b = some s.active.slots[k].event) ∧
     (s.setBands sub index).length = index.length ∧
     (∀ (n : Nat) (x y : IndexEntry), (s.setBands sub index)[n]? = some x → index[n]? = some y →
       x.sub = y.sub ∧ x.event = y.event ∧ x.state = y.state ∧
       (y.sub ≠ sub ∨ s.active.slotOfEvent y.event = none → x.band = y.band) ∧
       ∀ k : SlotId, y.sub = sub → s.active.slotOfEvent y.event = some k → x.band = s.active.slots[k].band))

/-- Of a subscriber that holds a claim, an accepted BUY takes the lowest free slot with the event's price, BOOKED, and
adds its Purchase Index entry: with the event SCHEDULED and the port's wanted state applied it is DONE at once in one
burst, and with the event RUNNING and the port not as wanted the port is marked and the order goes in flight, or, the
tap LOST, unplaced, or on a feeder that is OFF or BLOCKED, is DEFERRED at once with its failure counted, the purchase
kept (R8, R68). An accepted CANCEL frees the slot, removes the BOOKED entry, computes the wanted state again and is DONE
in one burst. Neither touches the Billing Unit. That a CANCEL removes the BOOKED entry alone, where an ended purchase of
the same event is still to be settled, is the model's choice (assumption 47). -/
def Obligations.PurchasesBookedAndCancelled : Prop :=
  ∀ (s : State) (i : Nat) (e : EntryId) (p : Port),
    let r := s.dispatched i
    r.enrolled = true → s.claimOf i = some (e, p) →
    (∀ (k : SlotId) (j : Fin 4), s.dueOrder .buy i → r.wantOn = true → r.oarg ≠ 0 →
      s.active.slotOfEvent r.oarg = some k → r.slotOf r.oarg = none → r.freeSlot = some j →
      s.order.index.length < Config.purchaseIndexDepth →
      let bought : IndexEntry := { sub := i, event := r.oarg, band := s.active.slots[k].band, state := .booked }
      let booked := r.setSlot j (Purchase.mk r.oarg s.active.slots[k].price .booked false 0)
      (s.active.ev[k] = .scheduled → (s.tapPort e p).applied = some (s.tapPort e p).wanted →
        ∃ t, exec .buy s = .next t ∧ t.bill = s.bill ∧ t.dir = s.dir ∧
          t.order = { s.order with taken := none, index := s.order.index ++ [bought] } ∧
          t.path.line .orderUnit = s.path.line .orderUnit ++ [.sub i (booked.complete r.oserial .done).partWords false] ∧
          SameMemory s t) ∧
      (∀ pl, s.active.ev[k] = .running →
        (s.tapPort e p).applied ≠ some (s.wantedOf i true r.tiers (s.setBands i (s.order.index ++ [bought]))) →
        (s.entry e).state ≠ .lost → (s.entry e).place = some pl → (s.eng pl.feeder).state ≠ .off →
        (s.eng pl.feeder).state ≠ .blocked →
        ∃ t, exec .buy s = .next t ∧ t.bill = s.bill ∧
          t.tapPort e p = { s.tapPort e p with
            reapply := true, wanted := s.wantedOf i true r.tiers (s.setBands i (s.order.index ++ [bought])) } ∧
          t.order = { s.order with
            taken := none, index := s.setBands i (s.order.index ++ [bought]), nextSeq := s.order.nextSeq + 1
            inflight := s.order.inflight ++ [InFlight.mk i r.oserial .buy e p false false s.order.nextSeq] } ∧
          t.path.line .orderUnit = s.path.line .orderUnit ++ [.sub i booked.partWords false] ∧ SameMemory s t) ∧
      (∀ blocked, s.active.ev[k] = .running →
        let index := s.setBands i (s.order.index ++ [bought])
        let w := s.wantedOf i true r.tiers index
        (s.tapPort e p).applied ≠ some w → s.tapOut e blocked →
        ∃ t, exec .buy s = .next t ∧ t.bill = s.bill ∧ t.order = { s.order with taken := none, index := index } ∧
          t.tapPort e p = { s.tapPort e p with wanted := w, reapply := (s.tapPort e p).reapply || blocked } ∧
          t.path.line .orderUnit = s.path.line .orderUnit ++ [.sub i booked.deferred.partWords false] ∧
          SameMemory s t)) ∧
    (∀ k : Fin 4, s.dueOrder .cancel i → r.slotOf r.oarg = some k → r.slots[k].state = .booked →
      let index := s.setBands i
        (s.order.index.filter fun x => !(x.sub == i && x.event == r.oarg && x.state == .booked))
      ∃ t, exec .cancel s = .next t ∧ t.bill = s.bill ∧ t.order = { s.order with taken := none, index := index } ∧
        t.tapPort e p = { s.tapPort e p with wanted := s.wantedOf i r.wantOn r.tiers index } ∧
        (∀ d, d ≠ e → t.entry d = s.entry d) ∧
        t.path.line .orderUnit = s.path.line .orderUnit ++
          [.sub i ((r.setSlot k Purchase.free).complete r.oserial .done).partWords false] ∧ SameMemory s t)

/-- An AUDIT of a tap that is LOST, unplaced, or placed on a feeder that is OFF or BLOCKED completes at once
UNREACHABLE, the failure count raised, saturating at 255; one of a tap that can be reached enters the In-flight Table,
and the Tap Directory is not touched. Where an order arrival of its index came while its record was read, the AUDIT
completed at once has its index put back, and the one in flight has its reorder flag (R9; DEDUCED, assumption 45). -/
def Obligations.Audits : Prop :=
  ∀ (s : State) (i : Nat) (reorder : Bool) (e : EntryId) (p : Port), s.dueOrder .audit i reorder →
    let r := s.dispatched i
    r.enrolled = true → r.claimHeld = true → s.claimOf i = some (e, p) → (∀ x ∈ s.order.inflight, x.sub ≠ i) →
    (∀ blocked, s.tapOut e blocked → ∃ t, exec .audit s = .next t ∧
      t.order = OrderUnit.backAgain { s.order with taken := none } i reorder ∧ t.dir = s.dir ∧
      t.path.line .orderUnit = s.path.line .orderUnit ++
        [.sub i ({ r with failures := min 255 (r.failures + 1) }.complete r.oserial .unreachable).partWords false] ∧
      SameMemory s t) ∧
    (s.tapIn e → ∃ t, exec .audit s = .next t ∧ t.dir = s.dir ∧ t.order = { s.order with
        taken := none, nextSeq := s.order.nextSeq + 1
        inflight := s.order.inflight ++ [InFlight.mk i r.oserial .audit e p false reorder s.order.nextSeq] } ∧ SameMemory s t)

/-- A SET PORT start arms the order in flight for the port that entered before the call was built; a FAILED outcome
completes an armed one DEFERRED, raising the failure count, and leaves an unarmed one. A lost-tap or blocked report
completes an unarmed order in flight on the tap at once, DEFERRED, or UNREACHABLE for an AUDIT, and leaves an armed one.
A READ start arms an AUDIT in the same way; the READ's answer completes it AUDIT-MATCH where the port's answered state
is its wanted state and AUDIT-MISMATCH where it is not, the audited state written and the failure count cleared; a
FAILED READ completes it UNREACHABLE, raising the failure count. Whatever completes it, an order whose reorder flag is
set puts its index at the tail of the Order Queue, or sets the backlog flag at 32 (`OrderUnit.flown`). A completion is
made at the end of the read burst of words 4–15 of the record it writes back (assumption 7). -/
def Obligations.ReportsOfTransactions : Prop :=
  (∀ (s : State) (x : InFlight) (rest : List OrderReport), s.quiet → s.order.inflight = [x] → x.kind ≠ .audit →
     (∀ before, s.order.reports = .start .setPort x.e x.p before :: rest →
       exec .transactionReport s = .next { s.keepTurn .orderUnit with order := { s.order with
         reports := rest, inflight := [if x.seq < before then { x with armed := true } else x] } }) ∧
     (s.order.reports = .outcome .setPort x.e x.p .failed :: rest → x.armed = true →
       s.hasRead .orderUnit [s.readOwned x.sub] = true →
       ∃ t, exec .transactionReport s = .next t ∧ t.order = s.order.flown x rest ∧
         t.path.line .orderUnit = s.path.line .orderUnit ++ [.sub x.sub
           ({ s.ownRec x.sub with failures := min 255 ((s.ownRec x.sub).failures + 1) }.complete x.serial
             .deferred).partWords false] ∧ t.dir = s.dir ∧ SameMemory s t) ∧
     (s.order.reports = .outcome .setPort x.e x.p .failed :: rest → x.armed = false →
       ∃ t, exec .transactionReport s = .next t ∧ t.order = { s.order with reports := rest } ∧ SameMemory s t)) ∧
  (∀ (s : State) (x : InFlight) (c : Instr) (rest : List OrderReport), s.quiet → s.order.inflight = [x] →
     (c = .lostTapReport ∧ s.order.reports = .lostTap x.e :: rest ∨
       ∃ f, c = .blockedReport ∧ s.order.reports = .blocked f :: rest ∧ (s.entry x.e).on f = true) →
     (x.armed = false → s.hasRead .orderUnit [s.readOwned x.sub] = true →
       ∃ t, exec c s = .next t ∧ t.order = s.order.flown x rest ∧
         t.path.line .orderUnit = s.path.line .orderUnit ++ [.sub x.sub
           ({ s.ownRec x.sub with failures := min 255 ((s.ownRec x.sub).failures + 1) }.complete x.serial
             (if x.kind = OrderKind.audit then .unreachable else .deferred)).partWords false] ∧ SameMemory s t) ∧
     (x.armed = true → ∃ t, exec c s = .next t ∧ t.order = { s.order with reports := rest } ∧ SameMemory s t)) ∧
  (∀ (s : State) (x : InFlight) (rest : List OrderReport), s.quiet → s.order.inflight = [x] → x.kind = .audit →
     (∀ p before, s.order.reports = .start .read x.e p before :: rest →
       exec .transactionReport s = .next { s.keepTurn .orderUnit with order := { s.order with
         reports := rest, inflight := [if x.seq < before then { x with armed := true } else x] } }) ∧
     (x.armed = true → s.hasRead .orderUnit [s.readOwned x.sub] = true →
       (∀ p ports, s.order.reports = .outcome .read x.e p (.readOk ports) :: rest →
         ∃ t, exec .transactionReport s = .next t ∧ t.order = s.order.flown x rest ∧
           t.path.line .orderUnit = s.path.line .orderUnit ++ [.sub x.sub
             ({ s.ownRec x.sub with failures := 0, auditOn := ports[x.p].on, auditMask := ports[x.p].mask }.complete
               x.serial (if ports[x.p] = (s.tapPort x.e x.p).wanted then .auditMatch else .auditMismatch)).partWords
             false] ∧ t.dir = s.dir ∧ SameMemory s t) ∧
       (∀ p, s.order.reports = .outcome .read x.e p .failed :: rest →
         ∃ t, exec .transactionReport s = .next t ∧ t.order = s.order.flown x rest ∧
           t.path.line .orderUnit = s.path.line .orderUnit ++ [.sub x.sub
             ({ s.ownRec x.sub with failures := min 255 ((s.ownRec x.sub).failures + 1) }.complete x.serial
               .unreachable).partWords false] ∧ t.dir = s.dir ∧ SameMemory s t)))

/-- A confirmation on a claimed port of a subscriber with no purchases writes the confirmed state and minute in one
burst and, the port on, wanted service ON and not yet confirmed ON, hands START SERVICE at the minute of the answer. A
BOOKED purchase of an event RUNNING, whose band the answer has on, becomes OPEN and charged, in its slot and in the
Purchase Index, and PPV CHARGE with its price follows START SERVICE; with the port off or the band off it stays BOOKED
and nothing is charged. The armed order in flight on the port is DONE with the same burst, its failure count cleared,
and its index put back where it is marked for reordering. The step is made at the end of the read burst of words 4–15 of
the record (assumption 7). -/
def Obligations.Confirmations : Prop :=
  (∀ (s : State) (e : EntryId) (p : Port) (sub minute : Nat) (answer : PortState) (rest : List OrderReport),
     s.quiet → s.order.inflight = [] → s.order.reports = .outcome .setPort e p (.setOk answer minute) :: rest →
     (s.tapPort e p).claim = some sub → s.hasRead .orderUnit [s.readOwned sub] = true →
     (∀ k : Fin 4, (s.ownRec sub).slots[k].used = false) →
     s.bill.queue.length < Config.noticeDepth →
     ∃ t, exec .confirmation s = .next t ∧ t.order.reports = rest ∧ t.dir = s.dir ∧ SameMemory s t ∧
       t.path.line .orderUnit = s.path.line .orderUnit ++ [.sub sub
         { s.ownRec sub with confirmed := if answer.on then .on else .off, lastConfirm := minute }.partWords false] ∧
       t.bill.queue = s.bill.queue ++
         (if answer.on = true ∧ (s.ownRec sub).wantOn = true ∧ (s.ownRec sub).confirmed ≠ .on
          then [.notice sub .startService minute] else [])) ∧
  (∀ (s : State) (e : EntryId) (p : Port) (sub minute : Nat) (answer : PortState) (rest : List OrderReport),
     s.quiet → s.order.reports = .outcome .setPort e p (.setOk answer minute) :: rest →
     (s.tapPort e p).claim = some sub → s.hasRead .orderUnit [s.readOwned sub] = true →
     let r := s.ownRec sub
     let start := if answer.on = true ∧ r.wantOn = true ∧ r.confirmed ≠ .on
       then [QEntry.notice sub .startService minute] else []
     (∀ (k : Fin 4) (x : IndexEntry), s.order.inflight = [] → s.bill.queue.length + 2 ≤ Config.noticeDepth →
       (∀ j : Fin 4, j ≠ k → r.slots[j].used = false) → r.slots[k].used = true → r.slots[k].state = .booked →
       s.active.eventState r.slots[k].event = .running → s.order.index = [x] → x.sub = sub →
       x.event = r.slots[k].event → x.state = .booked →
       let r1 := { r with confirmed := if answer.on then .on else .off, lastConfirm := minute }
       (answer.on = true → answer.mask.getLsbD x.band = true →
         ∃ t, exec .confirmation s = .next t ∧ t.order = { s.order with
             reports := rest, index := [{ x with state := .opened }] } ∧ t.dir = s.dir ∧
           t.path.line .orderUnit = s.path.line .orderUnit ++ [.sub sub
             (r1.setSlot k { r.slots[k] with state := .opened, charged := true }).partWords false] ∧
           t.bill.queue = s.bill.queue ++ start ++ [.notice sub (.ppvCharge r.slots[k].price) minute] ∧
           SameMemory s t) ∧
       (answer.on = false ∨ answer.mask.getLsbD x.band = false →
         ∃ t, exec .confirmation s = .next t ∧ t.order = { s.order with reports := rest } ∧
           t.path.line .orderUnit = s.path.line .orderUnit ++ [.sub sub r1.partWords false] ∧
           t.bill.queue = s.bill.queue ++ start ∧ SameMemory s t)) ∧
     (∀ x : InFlight, s.order.inflight = [x] → x.armed = true → x.kind ≠ .audit → x.e = e → x.p = p →
       x.sub = sub → s.bill.queue.length < Config.noticeDepth → (∀ k : Fin 4, r.slots[k].used = false) →
       ∃ t, exec .confirmation s = .next t ∧ t.order = s.order.flown x rest ∧
         t.path.line .orderUnit = s.path.line .orderUnit ++ [.sub sub
           ({ r with failures := 0, confirmed := if answer.on then .on else .off, lastConfirm := minute }.complete
             x.serial .done).partWords false] ∧
         t.bill.queue = s.bill.queue ++ start ∧ SameMemory s t))

/-- A start report has the buyer's wanted state computed again; an end or a drop frees a BOOKED purchase, and of an OPEN
one hands PPV SETTLE at the report's minute, with the drop mark for a drop, and marks the entry SETTLING; then the
buyer's wanted state is computed again. The slot is freed, its entry removed and the record written in one burst at the
end of a read burst of words 4–15 of the record (assumption 7); the computation is made at the end of a read burst of
words 2–4 (R44) and sets the port's wanted state alone. The walk goes entry by entry, each with its notices and its
record burst (assumption 48, where two rules differ), and frees an entry by its subscriber, event and state (assumption
47). -/
def Obligations.EventWalks : Prop :=
  (∀ (s : State) (x : IndexEntry) (minute : Nat) (rest : List OrderReport), s.quiet → s.order.index = [x] →
    s.bill.queue.length < Config.noticeDepth →
    let left : List Task := if (s.claimOf x.sub).isSome then [.recompute x.sub] else []
    (s.order.reports = .eventStart x.event minute :: rest →
      exec .eventStartReport s = .next { s.keepTurn .orderUnit with order := { s.order with reports := rest, work := left } }) ∧
    (∀ (c : Instr) (drop : Bool), (c = .eventEndReport ∧ drop = false ∧ s.order.reports = .eventEnd x.event minute :: rest ∨
        c = .eventDropReport ∧ drop = true ∧ s.order.reports = .eventDrop x.event minute :: rest) →
      (x.state = .booked → exec c s = .next { s.keepTurn .orderUnit with order := { s.order with
        reports := rest, work := [.freeBooked x.sub x.event, .recompute x.sub] } }) ∧
      (x.state = .opened → ∃ t, exec c s = .next t ∧
        t.order = { s.order with reports := rest, index := [{ x with state := .settling }], work := left } ∧
        t.bill.queue = s.bill.queue ++ [.notice x.sub (.ppvSettle x.event drop) minute] ∧ t.dir = s.dir ∧
        t.path.lines = s.path.lines ∧ SameMemory s t))) ∧
  (∀ (s : State) (sub event a : Nat) (k : Fin 4), s.order.work = [.freeBooked sub event, .recompute sub] →
    s.path.port = .burst .orderUnit (.read (s.map.sub + 16 * sub + 4) 12) a [] false →
    s.path.reads[Requester.orderUnit.idx] = [] → (s.ownRec sub).bookedSlotOf event = some k →
    ∃ t, exec .burstComplete s = .next t ∧ t.path.port = .free ∧
      t.order = { s.order with
        work := if (s.claimOf sub).isSome then [.recompute sub] else []
        index := s.order.index.filter fun x => !(x.sub == sub && x.event == event && x.state == .booked) } ∧
      t.path.line .orderUnit = s.path.line .orderUnit ++
        [.sub sub ((s.ownRec sub).setSlot k Purchase.free).partWords false] ∧
      t.dir = s.dir ∧ t.bill = s.bill ∧ SameMemory s t) ∧
  (∀ (s : State) (sub a : Nat) (e : EntryId) (p : Port), s.order.work = [.recompute sub] →
    s.claimOf sub = some (e, p) →
    s.path.port = .burst .orderUnit (.read (s.map.sub + 16 * sub + 2) 3) a [] false →
    s.path.reads[Requester.orderUnit.idx] = [] →
    ∃ t, exec .burstComplete s = .next t ∧ t.path.port = .free ∧
      t.order = { s.order with work := [], index := s.setBands sub s.order.index } ∧
      (t.tapPort e p).wanted =
        s.wantedOf sub (s.ownRec sub).wantOn (s.ownRec sub).tiers (s.setBands sub s.order.index) ∧
      (∀ d, d ≠ e → t.entry d = s.entry d) ∧ t.path.lines = s.path.lines ∧ t.bill = s.bill ∧ SameMemory s t)

/-- An overlap report adds its minutes to the purchase's slot in one burst, saturating, or is answered at once without
one; a settle answer frees an OPEN slot and removes the SETTLING entry (one of each, assumption 47); a refresh request
of a subscriber with a claim computes the wanted state from the record as read, and one of a subscriber without a claim
does nothing. Each is made at the end of the read burst of the words it needs, 4–15 or 2–4 (R44; assumption 7); of two
slots with the event id an overlap report takes the lowest (assumption 47). Once the Notice Queue has room a waiting
notice enters it at the tail and the block's work goes on. -/
def Obligations.BillingArrivals : Prop :=
  (∀ (s : State) (sub event n : Nat) (rest : List BillArrival),
     (∀ k : Fin 4, s.order.billing = .overlap sub event n :: rest → s.hasRead .orderUnit [s.readOwned sub] = true →
       (s.ownRec sub).slotOf event = some k →
       ∃ t, exec .overlapReport s = .next t ∧ t.order = { s.order with billing := rest } ∧
         t.path.line .orderUnit = s.path.line .orderUnit ++ [.sub sub ((s.ownRec sub).setSlot k
           { (s.ownRec sub).slots[k] with overlap := min 65535 ((s.ownRec sub).slots[k].overlap + n) }).partWords true] ∧
         t.bill = s.bill ∧ SameMemory s t) ∧
     (s.order.billing = .overlap sub event n :: rest → s.hasRead .orderUnit [s.readOwned sub] = true →
       (s.ownRec sub).slotOf event = none →
       exec .overlapReport s = .next { s.tookRead .orderUnit with order := { s.order with billing := rest }
                                                                  bill := { s.bill with answer := true } }) ∧
     (∀ k : Fin 4, s.order.billing = .settle sub event :: rest → s.hasRead .orderUnit [s.readOwned sub] = true →
       s.order.index = [{ sub := sub, event := event, band := n, state := .settling }] →
       (s.ownRec sub).openSlotOf event = some k →
       ∃ t, exec .settleAnswer s = .next t ∧ t.order = { s.order with billing := rest, index := [] } ∧
         t.path.line .orderUnit = s.path.line .orderUnit ++
           [.sub sub ((s.ownRec sub).setSlot k Purchase.free).partWords false] ∧ SameMemory s t) ∧
     (s.order.billing = .refresh sub :: rest → s.claimOf sub = none →
       exec .refreshRequest s = .next { s.keepTurn .orderUnit with order := { s.order with billing := rest } }) ∧
     (∀ e p, s.order.billing = .refresh sub :: rest → s.claimOf sub = some (e, p) →
       s.hasRead .orderUnit [s.readTiers sub] = true →
       ∃ t, exec .refreshRequest s = .next t ∧
         t.order = { s.order with billing := rest, index := s.setBands sub s.order.index } ∧
         (t.tapPort e p).wanted =
           s.wantedOf sub (s.ownRec sub).wantOn (s.ownRec sub).tiers (s.setBands sub s.order.index) ∧
         (∀ d, d ≠ e → t.entry d = s.entry d) ∧ t.path.lines = s.path.lines ∧ t.bill = s.bill ∧ SameMemory s t)) ∧
  (∀ (s : State) (n : QEntry), s.bill.queue.length < Config.noticeDepth →
     (s.order.work = [.notice n] → exec (.noticeHanded .orderUnit) s = .next
       { (s.keepTurn .orderUnit).keepTurn .billing with
       bill := { s.bill with queue := s.bill.queue ++ [n] }, order := { s.order with work := [] } }) ∧
     (s.bill.regWait = some n → exec (.noticeHanded .billing) s = .next { s.keepTurn .billing with
       bill := { s.bill with queue := s.bill.queue ++ [n], regWait := none } }))

/-! ### The channel line-up (chapter 2) -/

/-- The commit word is refused by the part state and by the state of the bank it names: NOT-RUNNING in IDLE and BUSY in
STARTING for COMMIT and WITHDRAW alike, NOT-PENDING-BANK for the ACTIVE bank. An accepted COMMIT puts the bank in
VALIDATING and asks for its header burst and the read of its first part; an accepted WITHDRAW makes the SEALED bank
EDITABLE with result WITHDRAWN, takes it out of the protected set and ends its epoch. A WITHDRAW is BUSY while a switch
is in progress, and an ask for the boundary counts as one (DEDUCED, assumption 23). -/
def Obligations.Commits : Prop :=
  ∀ (w : Word) (s : State), s.first .commit w →
    (s.run.part = .idle → actionCode w = 1 →
      exec (.commit w) s = .next { s.popped with lineUp := { s.lineUp with result := .notRunning } }) ∧
    (s.run.part = .starting → actionCode w = 1 →
      exec (.commit w) s = .next { s.popped with lineUp := { s.lineUp with result := .busy } }) ∧
    (s.run.part = .idle → actionCode w = 2 →
      exec (.withdraw w) s = .next { s.popped with lineUp := { s.lineUp with result := .notRunning } }) ∧
    (s.run.part = .starting → actionCode w = 2 →
      exec (.withdraw w) s = .next { s.popped with lineUp := { s.lineUp with result := .busy } }) ∧
    (s.run.part = .running ∨ s.run.part = .halting ∨ s.run.part = .halted →
      (∀ b : Bank, actionCode w = 1 → commitBank w = some b →
        (s.lineUp.bankState[b] = .active →
          exec (.commit w) s = .next { s.popped with lineUp := { s.lineUp with result := .notPendingBank } }) ∧
        (s.lineUp.bankState[b] = .sealed →
          exec (.commit w) s = .next { s.popped with lineUp := { s.lineUp with result := .alreadySealed } }) ∧
        (s.lineUp.bankState[b] = .validating →
          exec (.commit w) s = .next { s.popped with lineUp := { s.lineUp with result := .busy } }) ∧
        (s.lineUp.bankState[b] = .editable → ∃ t, exec (.commit w) s = .next t ∧ t.lineUp.result = .accepted ∧
          t.lineUp.bankState[b] = .validating ∧ t.lineUp.bankState[Bank.other b] = s.lineUp.bankState[Bank.other b] ∧
          (∃ v, t.lineUp.validation = some v ∧ v.bank = b ∧ v.part = 0 ∧ v.edited = false) ∧
          t.path.line .lineUp = s.path.line .lineUp ++ [.header b, .readBank b 0] ∧
          t.path.protActive = s.path.protActive ∧ t.path.protSealed = s.path.protSealed ∧ t.run = s.run ∧ SameMemory s t)) ∧
      (∀ b : Bank, actionCode w = 2 → commitBank w = some b →
        (s.lineUp.bankState[b] = .active →
          exec (.withdraw w) s = .next { s.popped with lineUp := { s.lineUp with result := .notPendingBank } }) ∧
        (s.lineUp.bankState[b] = .editable ∨ s.lineUp.bankState[b] = .validating →
          exec (.withdraw w) s = .next { s.popped with lineUp := { s.lineUp with result := .nothingSealed } }) ∧
        (s.lineUp.bankState[b] = .sealed → s.lineUp.switching = true →
          exec (.withdraw w) s = .next { s.popped with lineUp := { s.lineUp with result := .busy } }) ∧
        (s.lineUp.bankState[b] = .sealed → s.lineUp.switching = false → ∃ t, exec (.withdraw w) s = .next t ∧
          t.lineUp.result = .accepted ∧ t.lineUp.bankState[b] = .editable ∧ t.lineUp.epoch = .none ∧
          t.lineUp.results[b] = resultField .withdrawn none ∧ t.path.protSealed = none ∧ t.path.protActive = s.path.protActive ∧
          t.path.line .lineUp = s.path.line .lineUp ++ [.header b] ∧ SameMemory s t)) ∧
      (actionCode w = 0 ∨ 2 < actionCode w ∨ commitBank w = none →
        exec (.commitBadAction w) s = .next { s.popped with lineUp := { s.lineUp with result := .badAction } }))

/-- The end of the header's read takes the requested minute and asks for the band plan; a band plan with a kind above 2
fails CLASS-BAND with no slot; each part read is followed by the next. At a slot or a band plan that fails, or after the
last slot, a bank edited meanwhile is EDITABLE with EDITED, a failing slot or band plan makes one that is not edited
EDITABLE with its result and its slot, and a bank that passes is SEALED, its epoch SCHEDULED and the bank protected. The
checks of a slot in order: an unknown class is CLASS-BAND; a DARK slot passes; then BAD-CHANNEL outside 2 to 158,
DUPLICATE-CHANNEL, BAD-TUNE for 0, CLASS-BAND for a band of another kind, and for an EVENT slot BAD-EVENT-ID for 0,
EVENT-WINDOW for a window that is empty, reversed or longer than 720 minutes, EVENT-OVERLAP, DUPLICATE-EVENT, and
EVENT-CHANGED where an event RUNNING in the active copy has another start. -/
def Obligations.Validations : Prop :=
  ((∀ (s : State) (v : Validation) (a : Nat), s.quiet → s.lineUp.validation = some v →
     s.path.port = .burst .lineUp (.readBank v.bank v.part) a [] false →
     (v.part = 0 → ∃ t, exec .validationBurst s = .next t ∧
       t.lineUp.validation = some { v with part := 1, minute := (wordAt (s.bankPart v.bank 0) 1).toNat } ∧
       t.path.line .lineUp = s.path.line .lineUp ++ [.readBank v.bank 1] ∧ t.path.port = .free ∧
       t.lineUp.bankState = s.lineUp.bankState ∧ SameMemory s t) ∧
     (v.part = 1 → planGood (s.bankPart v.bank 1) = true → ∃ t, exec .validationBurst s = .next t ∧
       t.lineUp.validation = some { v with part := 2, plan := planOf (s.bankPart v.bank 1) } ∧
       t.path.line .lineUp = s.path.line .lineUp ++ [.readBank v.bank 2] ∧ SameMemory s t) ∧
     (v.part = 1 → planGood (s.bankPart v.bank 1) = false → ∃ t, exec .validationBurst s = .next t ∧
       t.lineUp.validation = none ∧ t.lineUp.bankState[v.bank] = .editable ∧
       t.lineUp.results[v.bank] = resultField (if v.edited then .edited else .classBand) none ∧
       t.lineUp.last = (if v.edited then .edited else .classBand, v.bank, none) ∧
       t.path.line .lineUp = s.path.line .lineUp ++ [.header v.bank] ∧ t.path.protSealed = s.path.protSealed ∧
       SameMemory s t) ∧
     (v.part = 2 ∨ v.part = 3 → ∃ t, exec .validationBurst s = .next t ∧
       t.lineUp.validation = some { v with part := v.part + 1 } ∧
       t.path.line .lineUp = s.path.line .lineUp ++ [.readBank v.bank (v.part + 1)] ∧ SameMemory s t) ∧
     (∀ x, 4 ≤ v.part → v.part < 75 → Slot.ofWords (s.bankPart v.bank v.part) = some x →
       slotFault v.plan v.slots s.eventChanged (some x) = none → ∃ t, exec .validationBurst s = .next t ∧
       t.lineUp.validation = some { v with part := v.part + 1, slots := v.slots ++ [x] } ∧
       t.path.line .lineUp = s.path.line .lineUp ++ [.readBank v.bank (v.part + 1)] ∧ SameMemory s t) ∧
     (∀ r, 4 ≤ v.part → v.part ≤ 75 →
       slotFault v.plan v.slots s.eventChanged (Slot.ofWords (s.bankPart v.bank v.part)) = some r →
       ∃ t, exec .validationBurst s = .next t ∧ t.lineUp.validation = none ∧ t.lineUp.bankState[v.bank] = .editable ∧
         (∀ k : SlotId, v.part = 4 + k.val →
           let res := if v.edited then (ValResult.edited, none) else (r, some k)
           t.lineUp.results[v.bank] = resultField res.1 res.2 ∧ t.lineUp.last = (res.1, v.bank, res.2)) ∧
         t.path.line .lineUp = s.path.line .lineUp ++ [.header v.bank] ∧ t.path.protSealed = s.path.protSealed ∧
         SameMemory s t) ∧
     (v.part = 75 → slotFault v.plan v.slots s.eventChanged (Slot.ofWords (s.bankPart v.bank 75)) = none →
       (v.edited = true → ∃ t, exec .validationBurst s = .next t ∧ t.lineUp.validation = none ∧
         t.lineUp.bankState[v.bank] = .editable ∧ t.lineUp.results[v.bank] = resultField .edited none ∧ SameMemory s t) ∧
       (v.edited = false → s.time.minute < v.minute → ∃ t, exec .validationBurst s = .next t ∧
         t.lineUp.validation = none ∧ t.lineUp.bankState[v.bank] = .sealed ∧
         t.lineUp.results[v.bank] = resultField .passed none ∧ t.lineUp.epoch = .scheduled ∧ t.lineUp.epochReq = v.minute ∧
         t.path.protSealed = some v.bank ∧ t.path.line .lineUp = s.path.line .lineUp ++ [.header v.bank] ∧
         (v.startup = true → t.run.phase = .states false false) ∧ SameMemory s t)))) ∧
  ((∀ (plan : Vector BandPlan 8) (lower : List Slot) (changed : Slot → Bool) (x : Slot),
     let fault := slotFault plan lower changed (some x)
     let dup := ∃ y ∈ lower, y.cls ≠ .dark ∧ y.channel = x.channel
     let kind := plan[Fin.ofNat 8 x.band].kind
     let wrongBand := (x.cls = .regular ∧ kind ≠ .tier) ∨ (x.cls = .event ∧ kind ≠ .event)
     let badWindow := x.stop ≤ x.start ∨ x.start + 720 < x.stop
     let overlap := ∃ y ∈ lower, y.cls = .event ∧ y.band = x.band ∧ x.start < y.stop ∧ y.start < x.stop
     let dupEvent := ∃ y ∈ lower, y.cls = .event ∧ y.event = x.event
     slotFault plan lower changed none = some .classBand ∧ (x.cls = .dark → fault = none) ∧
     (x.cls ≠ .dark → x.channel < 2 ∨ 158 < x.channel → fault = some .badChannel) ∧
     (x.cls ≠ .dark → 2 ≤ x.channel → x.channel ≤ 158 →
       (dup → fault = some .duplicateChannel) ∧
       (¬ dup → x.tune = 0 → fault = some .badTune) ∧
       (¬ dup → x.tune ≠ 0 → wrongBand → fault = some .classBand) ∧
       (¬ dup → x.tune ≠ 0 → ¬ wrongBand →
         (x.cls = .regular → fault = none) ∧
         (x.cls = .event →
           (x.event = 0 → fault = some .badEventId) ∧
           (x.event ≠ 0 → badWindow → fault = some .eventWindow) ∧
           (x.event ≠ 0 → ¬ badWindow → overlap → fault = some .eventOverlap) ∧
           (x.event ≠ 0 → ¬ badWindow → ¬ overlap → dupEvent → fault = some .duplicateEvent) ∧
           (x.event ≠ 0 → ¬ badWindow → ¬ overlap → ¬ dupEvent →
             fault = if changed x then some .eventChanged else none))))) ∧
   (∀ ws : List Word, planGood ws = true ↔ ∀ b, b < 8 → bits (wordAt ws b) 0 4 ≤ 2) ∧
   ∀ (s : State) (x : Slot), s.eventChanged x = true ↔ ∃ k : SlotId, s.active.ev[k] = .running ∧
     s.active.slots[k].event = x.event ∧ s.active.slots[k].start ≠ x.start)

/-- With the boundary answered, the sealed bank is read into the staging copy with the event states at the switch
minute, and the previous rates and then the anchor words are asked to be written; each record of the bank is as its read
burst found it, and the copy is made at the end of the last (the model's choice, assumptions 7 and 23). The burst of the
previous rates holds the rate table in force, and that of the anchor words the new bank, the number of the EPOCH
boundary, which is the epoch number raised by one (R148), and the switch minute. The end of the anchor burst makes the
staged copy and its bank the active ones and the old bank EDITABLE, and leaves the new bank alone protected; then, with
room, the drop reports in the outgoing slot order and then the start and end reports in the new slot order are handed,
the epoch registration enters the Notice Queue, both headers and word 5 of every slot are asked to be written, buyers
are counted and the switch report is handed. An event SCHEDULED or RUNNING is carried where the new copy has its id and
it was SCHEDULED or keeps its start; otherwise it is dropped with a drop report. A purchase of a carried event keeps its
entry. -/
def Obligations.Switches : Prop :=
  ((∀ (s : State) (m : Nat) (a : Bank), s.lineUp.ask = .answered m → s.lineUp.active = some a → s.lineUp.switch = none →
     s.hasRead .lineUp (s.bankReads (Bank.other a)) = true →
     ∃ t, exec .epochSwitch s = .next t ∧ t.lineUp.ask = .none ∧ t.lineUp.copy = s.lineUp.copy ∧
       t.lineUp.active = some a ∧
       t.lineUp.switch = some
         { bank := Bank.other a, minute := m, staging := (s.view .lineUp).readCopy (Bank.other a) m, made := false } ∧
       t.path.line .lineUp = s.path.line .lineUp ++ [.prevRates, .switchAnchor] ∧ t.bill = s.bill ∧ t.order = s.order ∧
       SameMemory s t) ∧
   (∀ (s : State) (w : Switch) (rest : List Burst), s.path.port = .free → s.path.cycle = none →
     s.nextRequester = some .lineUp → s.lineUp.switch = some w → (∀ q, s.readTurn .lineUp ≠ some (0, q)) →
     (s.path.line .lineUp = .prevRates :: rest →
       ∃ t, exec .memoryPortGrant s = .next t ∧ t.path.line .lineUp = rest ∧
         t.path.port = .burst .lineUp .prevRates Config.prevRatesAddr (s.active.rates.toList.map word) false) ∧
     (s.path.line .lineUp = .switchAnchor :: rest →
       ∃ t, exec .memoryPortGrant s = .next t ∧ t.path.line .lineUp = rest ∧
         t.path.port = .burst .lineUp .switchAnchor Config.activeBankAddr
           [word w.bank.val, word s.bill.boundary.number, word w.minute] false)) ∧
   (∀ (s : State) (w : Switch) (n : Nat) (ws : List Word), s.quiet → s.lineUp.switch = some w →
     s.path.port = .burst .lineUp .switchAnchor n ws false →
     ∃ t, exec .burstComplete s = .next t ∧ t.lineUp.copy = some w.staging ∧ t.lineUp.active = some w.bank ∧
       t.lineUp.epoch = .none ∧ t.lineUp.bankState[w.bank] = .active ∧
       t.lineUp.bankState[Bank.other w.bank] = .editable ∧ t.path.protActive = some w.bank ∧ t.path.protSealed = none ∧
       t.mem = memWriteWords s.mem n ws)) ∧
  ((∀ (s : State) (w : Switch) (n : Nat) (ws : List Word), s.quiet → s.lineUp.switch = some w →
     s.path.port = .burst .lineUp .switchAnchor n ws false → s.bill.queue.length < Config.noticeDepth →
     s.order.reports.length + (switchReports s.active w.staging w.minute).length ≤ Config.orderReportDepth →
     ∃ t, exec .burstComplete s = .next t ∧
       t.order.reports.map Task.orderReport =
         s.order.reports.map Task.orderReport ++ switchReports s.active w.staging w.minute ∧
       t.order.index = s.order.index ∧
       t.bill.queue = s.bill.queue ++ [.epochReg w.minute s.bill.boundary.number] ∧
       Burst.header w.bank ∈ t.path.line .lineUp ∧ Burst.header (Bank.other w.bank) ∈ t.path.line .lineUp ∧
       (∀ k : SlotId, Burst.word5 k ∈ t.path.line .lineUp ∧
         t.lineUp.buyers[k] = (if w.staging.slots[k].isEvent then
           (s.order.index.filter fun x => x.event == w.staging.slots[k].event).length else 0)) ∧
       t.lineUp.outgoing = some { outgoing := s.active, carried :=
         ((openEvents s.active).filter (carries s.active w.staging)).map fun k => s.active.slots[k].event } ∧
       t.lineUp.work = [.switchReportOut, .alarm .epochSwitched .info .none (word s.bill.boundary.number) none, .switchDone]) ∧
   (∀ (old new : Copy) (minute : Nat) (k : SlotId), old.slots[k].isEvent = true →
     (old.ev[k] = .scheduled ∨ old.ev[k] = .running) →
     (new.slotOfEvent old.slots[k].event = none → carries old new k = false) ∧
     (∀ j, new.slotOfEvent old.slots[k].event = some j →
       (carries old new k = true ↔ old.ev[k] = .scheduled ∨ new.slots[j].start = old.slots[k].start)) ∧
     (carries old new k = false →
       Task.orderReport (.eventDrop old.slots[k].event minute) ∈ switchReports old new minute) ∧
     (∀ (j : SlotId) (r : OrderReport), carries old new k = true → new.slots[j].isEvent = true → new.slots[j].event = old.slots[k].event →
       (∀ i, i ≠ k → ¬ (old.slots[i].isEvent = true ∧ old.slots[i].event = old.slots[k].event)) →
       changeReport old.ev[k] new.ev[j] old.slots[k].event minute = some r →
       Task.orderReport r ∈ switchReports old new minute)) ∧
   (∀ (old new : Copy) (minute : Nat), ∃ (drops : List SlotId) (changes : List (SlotId × OrderReport)),
     switchReports old new minute =
       drops.map (fun k => Task.orderReport (.eventDrop old.slots[k].event minute)) ++
         changes.map (fun c => Task.orderReport c.2) ∧
     drops.Pairwise (· < ·) ∧ (changes.map Prod.fst).Pairwise (· < ·) ∧
     (∀ k ∈ drops, old.slots[k].isEvent = true ∧ (old.ev[k] = .scheduled ∨ old.ev[k] = .running) ∧
       carries old new k = false) ∧
     (∀ c ∈ changes, ∃ k : SlotId, old.slots[k].isEvent = true ∧ carries old new k = true ∧
       new.slots[c.1].isEvent = true ∧ new.slots[c.1].event = old.slots[k].event ∧
       changeReport old.ev[k] new.ev[c.1] old.slots[k].event minute = some c.2)))

/-! ### The tap line (chapter 3) -/

/-- A character is 10 line levels: start at space, eight bits with the least significant first, stop at mark; a received
character takes its bits from levels 1 to 8 and is good where level 9 is at mark. A start bit is recognised where the
line was at mark and is at space at the change and half a bit later. A call is an opening flag of 12 bit times at space
and 2 at mark and then its characters one after another: its address character, which holds the address and the number
of its 1 bits modulo 4, its command character with the payload length, its payload and the CRC of the characters before
it, so that the CRC of the whole call, its own CRC character included, is 0. The CRC starts at 0 and takes each
character most significant bit first through the polynomial x⁸ + x² + x + 1. As for the taps the part relies on: an
addressed tap answers READ with its serial and port states and SET PORT at its own position, with a good CRC, and no
other call; an unaddressed one answers IDENTIFY, and an ASSIGN with its own serial, by which it takes the position and
opens its gate; FORGET is answered by none and makes a tap unaddressed; a call with a bad CRC or address check, an
unknown command, a wrong payload length or a payload out of range is not answered and changes nothing; a call reaches
the taps up to the first whose gate is closed; and a tap that lost its supply is unaddressed with its ports off. -/
def Obligations.CallsCarryTheirCrc : Prop :=
  (∀ (addr : Nat) (cmd : TapCmd) (payload : List Byte),
     callChars addr cmd payload =
       addrChar addr :: BitVec.ofNat 8 (cmd.code + 16 * payload.length) :: payload ++
         [crc8 (addrChar addr :: BitVec.ofNat 8 (cmd.code + 16 * payload.length) :: payload)] ∧
       crc8 (callChars addr cmd payload) = 0) ∧
  ((∀ c : Byte, (charLevels c).length = 10 ∧ (charLevels c)[0]? = some false ∧ (charLevels c)[9]? = some true ∧
     (∀ i : Fin 8, (charLevels c)[i.val + 1]? = some (c.getLsbD i.val)) ∧ receiveChar (charLevels c) = (c, true)) ∧
   (∀ levels : List Bool, levels[9]? = some false → (receiveChar levels).2 = false) ∧
   (∀ chars : List Byte, (callLevels chars).length = 14 + 10 * chars.length ∧
     (callLevels chars).take 14 = List.replicate 12 false ++ List.replicate 2 true ∧
     ∀ (i : Nat) (c : Byte), chars[i]? = some c → ((callLevels chars).drop (14 + 10 * i)).take 10 = charLevels c) ∧
   (∀ x : Txn, x.levels = callLevels x.chars) ∧
   ∀ before change middle : Bool,
     startBitRecognised before change middle = true ↔ before = true ∧ change = false ∧ middle = false) ∧
  ((∀ c : Byte, crcBit c = if c.getLsbD 7 then (c <<< 1) ^^^ 0x07 else c <<< 1) ∧
   (∀ crc c : Byte, crcChar crc c = (List.range 8).foldl (fun x _ => crcBit x) (crc ^^^ c)) ∧
   crc8 [] = 0 ∧ (∀ (cs : List Byte) (c : Byte), crc8 (cs ++ [c]) = crcChar (crc8 cs) c) ∧
   ∀ a : Nat, a < 64 → (addrChar a).toNat % 64 = a ∧
     (addrChar a).toNat / 64 = (bitOf (a.testBit 0) + bitOf (a.testBit 1) + bitOf (a.testBit 2) + bitOf (a.testBit 3) +
       bitOf (a.testBit 4) + bitOf (a.testBit 5)) % 4) ∧
  ((∀ (t : Tap) (n : Nat), t.pos = some n → 1 ≤ n → n ≤ 62 → t.gateOpen = true ∧
      (∃ rx, t.hear (callChars n .read []) = (t, some rx) ∧ answerCrcGood n rx = true ∧ rx.length = 11 ∧
        statusFlag rx 0 = t.tamper ∧ statusFlag rx 1 = t.low ∧ statusFlag rx 2 = true ∧
        serialOfChars (rx.drop 1).dropLast = t.serial ∧ readPorts (rx.drop 1).dropLast = t.ports) ∧
      (∀ (p : Port) (w : PortState), let u := { t with ports := t.ports.set p w }
        t.hear (callChars n .setPort (setPortPayload p w)) = (u, some (u.answer n [u.onFlags, w.mask])) ∧
        answerCrcGood n (u.answer n [u.onFlags, w.mask]) = true ∧
        ∀ q : Port, u.onFlags.getLsbD q.val = u.ports[q].on) ∧
      (∀ (cmd : TapCmd) (addr : Nat) (payload : List Byte), cmd = .read ∨ cmd = .setPort → addr < 64 → addr ≠ n →
        t.hear (callChars addr cmd payload) = (t, none)) ∧
      (∀ (cmd : TapCmd) (addr : Nat) (payload : List Byte), cmd = .identify ∨ cmd = .assign →
        t.hear (callChars addr cmd payload) = (t, none)) ∧
      t.hear (callChars 63 .forget []) = ({ t with pos := none }, none)) ∧
   (∀ t : Tap, t.pos = none → t.gateOpen = false ∧
      (∃ rx, t.hear (callChars 0 .identify []) = (t, some rx) ∧ answerCrcGood 0 rx = true ∧
        gateGood .identify rx = true ∧ serialOfChars (rx.drop 1).dropLast = t.serial) ∧
      (∀ (n : Nat) (sn : Word), 1 ≤ n → n ≤ 62 →
        (sn = t.serial → ∃ rx, t.hear (callChars 0 .assign (assignPayload n sn)) = ({ t with pos := some n }, some rx) ∧
          answerCrcGood 0 rx = true ∧ gateGood .assign rx = true ∧ (rx.drop 1).dropLast = [BitVec.ofNat 8 n]) ∧
        (sn ≠ t.serial → t.hear (callChars 0 .assign (assignPayload n sn)) = (t, none))) ∧
      (∀ (cmd : TapCmd) (addr : Nat) (payload : List Byte), cmd = .read ∨ cmd = .setPort ∨ cmd = .forget →
        t.hear (callChars addr cmd payload) = (t, none))) ∧
   (∀ (t : Tap) (chars : List Byte),
      crc8 chars.dropLast ≠ chars.getLastD 0 ∨
        (∃ a, chars[0]? = some a ∧ a ≠ addrChar (a.toNat % 64)) ∨
        (∃ c, chars[1]? = some c ∧ (c ∉ [0x01, 0x32, 0x03, 0x54, 0x05] ∨ chars.length ≠ c.toNat / 16 + 3)) ∨
        (chars[1]? = some 0x32 ∧ 3 < (charAt chars 2).toNat) ∨
        (chars[1]? = some 0x54 ∧ ((charAt chars 2).toNat = 0 ∨ 62 < (charAt chars 2).toNat)) →
      t.hear chars = (t, none)) ∧
   ((∀ (chars : List Byte) (before beyond : List Tap) (t : Tap), (∀ x ∈ before, x.gateOpen = true) → t.gateOpen = false →
      hearAll chars (before ++ t :: beyond) =
        (before.map (fun x => (x.hear chars).1) ++ (t.hear chars).1 :: beyond,
         (before ++ [t]).flatMap fun x => (x.hear chars).2.toList)) ∧
    (∀ (chars : List Byte) (taps : List Tap), (∀ x ∈ taps, x.gateOpen = true) →
      hearAll chars taps = (taps.map (fun x => (x.hear chars).1), taps.flatMap fun x => (x.hear chars).2.toList)) ∧
    ∀ t : Tap, t.lostSupply = { t with pos := none, ports := Vector.replicate 4 PortState.off }))

/-- In-flight orders come before dirty ports, those before roll-call work, and the probe is last. Of the orders in
flight the oldest that is neither armed nor to be armed by a start report that waits, with its tap placed on the feeder;
of the dirty ports of PRESENT and SILENT taps the first by position and port, UNKNOWN differing from every state; of the
roll call a verification READ, the lowest position first, and then the due paced READ. A SET PORT is built from the
wanted state as it stands and clears the port's mark, a READ has no payload and changes no entry, and both hand their
start report; a paced READ is no longer due, and a cycle whose last entry it was ends, before the pacing timer is
started with the roll call's period; a probe is one attempt of IDENTIFY and clears the probe-owed flag. The first
attempt calls at once at mark and waits for mark at space. -/
def Obligations.TransactionStarts : Prop :=
  (∀ (s : State) (f : Feeder),
    (∀ c, s.inFlightWork f = some c → s.workChoice f = some c) ∧
    (∀ c, s.inFlightWork f = none → s.dirtyWork f = some c → s.workChoice f = some c) ∧
    (∀ c, s.inFlightWork f = none → s.dirtyWork f = none → s.rollWork f = some c → s.workChoice f = some c) ∧
    (s.inFlightWork f = none → s.dirtyWork f = none → s.rollWork f = none → (s.roll f).probeOwed = true →
      s.workChoice f = some .probe)) ∧
  (∀ (s : State) (f : Feeder),
    (∀ x : InFlight, s.armedOrQueued x = true ↔ x.armed = true ∨ ∃ cmd e p before,
      OrderReport.start cmd e p before ∈ s.order.reports ∧ x.seq < before ∧ e = x.e ∧
        (x.kind = .audit ∧ cmd = .read ∨ x.kind ≠ .audit ∧ cmd = .setPort ∧ p = x.p)) ∧
    ((∀ x ∈ s.order.inflight, s.armedOrQueued x = true ∨ (s.entry x.e).on f = false) → s.inFlightWork f = none) ∧
    (∀ (before after : List InFlight) (x : InFlight), s.order.inflight = before ++ x :: after →
      (∀ y ∈ before, s.armedOrQueued y = true ∨ (s.entry y.e).on f = false) → s.armedOrQueued x = false →
      (s.entry x.e).on f = true →
      s.inFlightWork f = some (if x.kind = .audit then .read x.e false else .setPort x.e x.p)) ∧
    (∀ c, s.dirtyWork f = some c → ∃ (e : EntryId) (p : Port) (n : Nat), c = .setPort e p ∧
      (s.entry e).place = some { feeder := f, pos := n } ∧
      ((s.entry e).state = .present ∨ (s.entry e).state = .silent) ∧ (s.tapPort e p).dirty = true ∧
      (∀ q : Port, q < p → (s.tapPort e q).dirty = false) ∧
      ∀ d m, (s.entry d).place = some { feeder := f, pos := m } → m < n →
        (s.entry d).state = .present ∨ (s.entry d).state = .silent → ∀ q : Port, (s.tapPort d q).dirty = false) ∧
    (s.dirtyWork f = none → ∀ e, (s.entry e).on f = true → (s.entry e).state = .present ∨ (s.entry e).state = .silent →
      ∀ p : Port, (s.tapPort e p).dirty = false) ∧
    (∀ x : TapPort, x.dirty = true ↔ x.reapply = true ∨ x.applied = none ∨ x.applied ≠ some x.wanted) ∧
    ((∀ e, (s.entry e).on f = true → (s.entry e).verify = false) →
      s.rollWork f = (s.roll f).due.map fun x => .read x.2 true) ∧
    ((∃ e, (s.entry e).on f = true ∧ (s.entry e).verify = true) → ∃ (e : EntryId) (n : Nat),
      s.rollWork f = some (.read e false) ∧ (s.entry e).place = some { feeder := f, pos := n } ∧
      (s.entry e).verify = true ∧
      ∀ d m, (s.entry d).place = some { feeder := f, pos := m } → m < n → (s.entry d).verify = false)) ∧
  (∀ (s : State) (f : Feeder) (mark : Bool), s.mayChoose f = true →
    (∀ e p, s.workChoice f = some (.setPort e p) → s.order.reports.length < Config.orderReportDepth →
      ∃ t x, exec (.transactionStart f mark) s = .next t ∧ (t.eng f).state = .talking ∧ (t.eng f).txn = some x ∧
        x.cmd = .setPort ∧ x.entry = e ∧ x.port = p ∧ x.sent = (s.tapPort e p).wanted ∧ x.addr = s.posOf e ∧
        x.chars = callChars (s.posOf e) .setPort (setPortPayload p (s.tapPort e p).wanted) ∧ x.attempt = 1 ∧
        x.limit = s.cfg.attempts ∧ x.phase = (if mark then .calling else .waitMark) ∧ (t.tapPort e p).reapply = false ∧
        t.order.reports = s.order.reports ++ [.start .setPort e p s.order.nextSeq] ∧
        (∀ g, g ≠ f → t.eng g = s.eng g) ∧ SameMemory s t) ∧
    (∀ e paced, s.workChoice f = some (.read e paced) → s.order.reports.length < Config.orderReportDepth →
      ∃ t x, exec (.transactionStart f mark) s = .next t ∧ (t.eng f).state = .talking ∧ (t.eng f).txn = some x ∧
        x.cmd = .read ∧ x.entry = e ∧ x.probe = false ∧ x.addr = s.posOf e ∧ x.chars = callChars (s.posOf e) .read [] ∧
        x.attempt = 1 ∧ x.limit = s.cfg.attempts ∧ x.phase = (if mark then .calling else .waitMark) ∧
        t.order.reports = s.order.reports ++ [.start .read e 0 s.order.nextSeq] ∧ t.dir.pool = s.dir.pool ∧
        (paced = false → t.dir = s.dir ∧ t.time = s.time) ∧
        (paced = true → (t.roll f).due = none ∧ t.time.pacing[f] = Timer.start (t.roll f).period ∧
          ((s.roll f).cursor < (s.roll f).list.length → t.roll f = { s.roll f with due := none }) ∧
          ((s.roll f).list.length ≤ (s.roll f).cursor → (t.roll f).probeOwed = true ∧ (t.roll f).cursor = 0 ∧
            (t.roll f).count = ((s.roll f).count + 1) % 4)) ∧
        (∀ g, g ≠ f → t.eng g = s.eng g) ∧ SameMemory s t) ∧
    (s.workChoice f = some .probe →
      ∃ t x, exec (.transactionStart f mark) s = .next t ∧ (t.eng f).state = .talking ∧ (t.eng f).txn = some x ∧
        x.cmd = .identify ∧ x.probe = true ∧ x.addr = 0 ∧ x.limit = 1 ∧ (t.roll f).probeOwed = false ∧
        t.order = s.order ∧ SameMemory s t))

/-- An attempt fails by a collision, an early start bit, no start bit in the window, a stop bit at space, a gap between
characters, a start bit in the answer tail, or a wrong CRC or gate flag. Before the last attempt the gap begins and no
outcome is handed; after the last one a FAILED outcome of the kind is handed, and a TALKING engine stays TALKING through
its gap, while an ENUMERATING one has no transaction any more and stays ENUMERATING in its gap. -/
def Obligations.AttemptsFail : Prop :=
  ∀ (s : State) (f : Feeder) (x : Txn) (c : Instr) (kind : FailKind), (s.eng f).txn = some x → x.ended = false →
    (c = .collision f ∧ x.phase = .calling ∧ kind = .collision) ∨
      (∃ n, c = .answerStartBit f n ∧ n ≤ 1 ∧ x.phase = .awaiting ∧ kind = .early) ∨
      (c = .answerWindowExpiry f ∧ x.phase = .awaiting ∧ x.cmd ≠ .forget ∧ kind = .noAnswer) ∨
      (∃ b, c = .answerCharacter f b false ∧ x.phase = .receiving ∧ kind = .badAnswer) ∨
      (c = .answerCharacterTimeout f ∧ x.phase = .receiving ∧ x.rx ≠ [] ∧ kind = .badAnswer) ∨
      (c = .answerTailStartBit f ∧ x.phase = .tail ∧ kind = .badAnswer) ∨
      (c = .answerTailEnd f ∧ x.phase = .tail ∧ (answerCrcGood x.addr x.rx && gateGood x.cmd x.rx) = false ∧
        kind = .badAnswer) →
    ∃ t y, exec c s = .next t ∧ SameMemory s t ∧ t.order = s.order ∧ t.dir = s.dir ∧ (∀ g, g ≠ f → t.eng g = s.eng g) ∧
      (x.attempt < x.limit → (t.eng f).txn = some y ∧ y.phase = .gap ∧ y.ended = false ∧ y.attempt = x.attempt ∧
        y.lastFail = some kind ∧ (t.eng f).outcome = (s.eng f).outcome ∧ (t.eng f).state = (s.eng f).state) ∧
      (x.limit ≤ x.attempt → (s.eng f).state = .talking → (t.eng f).txn = some y ∧ y.phase = .gap ∧ y.ended = true ∧
        (t.eng f).state = .talking ∧ ∃ o, (t.eng f).outcome = some o ∧ o.res = .failed kind ∧ o.cmd = x.cmd ∧
          o.entry = x.entry ∧ o.port = x.port ∧ o.attempts = x.attempt) ∧
      (x.limit ≤ x.attempt → (s.eng f).state = .enumerating → (t.eng f).txn = none ∧ (t.eng f).quiet = true ∧
        (t.eng f).state = .enumerating ∧ ∃ o, (t.eng f).outcome = some o ∧ o.res = .failed kind ∧ o.cmd = x.cmd ∧
          o.addr = x.addr ∧ o.attempts = x.attempt)

/-- The call sent, the answer is awaited; a start bit after more than one bit time and within the window begins the
answer with its latency; each good character is kept, the last expected one beginning the answer tail; a good answer at
the tail's end hands an OK outcome and the engine is READY, or, after a probe, stays TALKING and keeps the transaction
record, ended, until the probe's outcome is taken (R57, R63); the window's end is the OK of a FORGET; after the gap the
next attempt begins, and after that of the last attempt a TALKING engine is READY with no transaction and an ENUMERATING
one may go on; and the line at mark lets a waiting attempt call. -/
def Obligations.AttemptsGoOn : Prop :=
  (∀ (s : State) (f : Feeder) (mark : Bool),
    (∀ x : Txn, (s.eng f).txn = some x → x.ended = true → x.phase = .gap →
      exec (.attemptGapEnd f mark) s = .next (s.setEng f { s.eng f with
        txn := none, state := if (s.eng f).state = .talking then .ready else (s.eng f).state })) ∧
    ((s.eng f).txn = none → exec (.attemptGapEnd f mark) s = .next (s.setEng f { s.eng f with quiet := false }))) ∧
  ∀ (s : State) (f : Feeder) (x : Txn), (s.eng f).txn = some x → x.ended = false →
    (x.phase = .calling → exec (.callSent f) s = .next (s.setEng f { s.eng f with
      txn := some { x with phase := .awaiting, rx := [] }, watch := 0, monitor := 0 })) ∧
    (∀ n, x.phase = .awaiting → 1 < n → n ≤ s.cfg.window → x.cmd ≠ .forget →
      exec (.answerStartBit f n) s = .next (s.setEng f { s.eng f with
        txn := some { x with phase := .receiving, latency := min 255 n, rx := [] }, mark := false })) ∧
    (∀ c, x.phase = .receiving → exec (.answerCharacter f c true) s = .next (s.setEng f { s.eng f with
      txn := some { x with rx := x.rx ++ [c],
                           phase := if x.rx.length + 1 = 2 + x.cmd.answerLen then .tail else .receiving }
      mark := true, watch := 0 })) ∧
    (x.phase = .tail → (answerCrcGood x.addr x.rx && gateGood x.cmd x.rx) = true → x.probe = false →
      (s.eng f).state = .talking →
      exec (.answerTailEnd f) s = .next (s.setEng f { s.eng f with
        txn := none, state := .ready
        outcome := some (x.outcome (.ok x.latency (statusFlag x.rx 0) (statusFlag x.rx 1) (statusFlag x.rx 2)
          (x.rx.drop 1).dropLast)) })) ∧
    (x.phase = .tail → (answerCrcGood x.addr x.rx && gateGood x.cmd x.rx) = true → x.probe = true →
      (s.eng f).state = .talking →
      exec (.answerTailEnd f) s = .next (s.setEng f { s.eng f with
        txn := some { x with ended := true }
        outcome := some (x.outcome (.ok x.latency (statusFlag x.rx 0) (statusFlag x.rx 1) (statusFlag x.rx 2)
          (x.rx.drop 1).dropLast)) })) ∧
    (x.phase = .awaiting → x.cmd = .forget → ∃ t o, exec (.answerWindowExpiry f) s = .next t ∧
      (x.probe = false → (t.eng f).txn = none) ∧ (t.eng f).outcome = some o ∧ o.cmd = .forget ∧ (∀ k, o.res ≠ .failed k) ∧ SameMemory s t) ∧
    (∀ mark, x.phase = .gap → exec (.attemptGapEnd f mark) s = .next (s.setEng f
      ((s.eng f).begin { x with attempt := x.attempt + 1, rx := [] } mark))) ∧
    (x.phase = .waitMark → exec (.receiveLineToMark f) s = .next (s.setEng f { s.eng f with
      mark := true, watch := 0, txn := some { x with phase := .calling } }))

/-- A line stuck at space, or the engine's own output that has not rested, blocks a READY, TALKING or ENUMERATING
feeder: the transaction ends, an order's READ or SET PORT as FAILED, an enumeration with ENUMERATION DONE ended BLOCKED
and its end report, a request not taken with ENUMERATION DONE of no taps alone and no report to the correlator (R87;
DEDUCED, assumption 29); the check timer of 30 s starts, the blocked report is handed, and the alarm is FEEDER BLOCKED,
or TRANSMITTER FAULT with the code of the call. The directory's hand-offs come first and then the engine's own, its
report and its alarm (assumption 27); where the Order Unit's report queue is full these wait with the engine, and a
FEEDER CLEAR comes behind what the engine still has to hand. An expiry of the timer begins a check, a space ends it, and
64 bit times at mark clear the feeder: READY, the timer stopped, every tap placed on it to be verified, FEEDER CLEAR
with the minutes blocked. A count of taps above 255 is a free value (assumption 56). -/
def Obligations.LineFaults : Prop :=
  (∀ (s : State) (f : Feeder), (s.eng f).checking = true → (s.eng f).state = .blocked → (s.eng f).work ≠ [] →
    ∃ t, exec (.feederClear f) s = .next t ∧ (t.eng f).state = .ready ∧ t.log = s.log ∧
      (t.eng f).work = (s.eng f).work ++ [.alarm .feederClear .info (.feeder f)
        (word (min 65535 (s.time.minute - (s.eng f).blockedSince))) none] ∧ SameMemory s t) ∧
  ∀ (s : State) (f : Feeder), s.quiet → s.run.part = .running → s.log.intake.length < Config.intakeDepth →
    (∀ c k v, c = .lineStuck f ∧ (s.eng f).driving = false ∧ k = .feederBlocked ∧ v = 0 ∨
        c = .transmitterFault f ∧ (s.eng f).driving = true ∧ k = .transmitterFault ∧ v = word (s.eng f).callCode →
      (s.eng f).outcome = none → s.order.reports.length + 2 ≤ Config.orderReportDepth →
      s.log.intake.length + 2 ≤ Config.intakeDepth →
      let alarm := AlarmEntry.mk k .critical (.feeder f) s.time.minute v
      let done (n : Nat) := AlarmEntry.mk .enumerationDone .minor (.feeder f) s.time.minute
        (word (countField n + 2 ^ 8 * Ending.blocked.code))
      let ended : List OrderReport := match (s.eng f).txn with
        | some x => if x.ended = false ∧ x.probe = false ∧ (x.cmd = .read ∨ x.cmd = .setPort)
          then [.outcome x.cmd x.entry x.port .failed] else []
        | none => []
      let isBlocked (t : State) : Prop := (t.eng f).state = .blocked ∧ (t.eng f).txn = none ∧ (t.eng f).enum = none ∧
        (t.eng f).request = none ∧ (t.eng f).blockedSince = s.time.minute ∧ t.time.blockedCheck[f] = Timer.start 60 ∧
        t.order.reports = s.order.reports ++ ended ++ [.blocked f] ∧ (∀ g, g ≠ f → t.eng g = s.eng g) ∧ SameMemory s t
      ((s.eng f).state = .ready ∨ (s.eng f).state = .talking → (s.eng f).enum = none →
        ∃ t, exec c s = .next t ∧ isBlocked t ∧ t.dir = s.dir ∧ t.corr = s.corr ∧
          t.log.intake = s.log.intake ++ (if (s.eng f).request.isSome then [done 0] else []) ++ [alarm]) ∧
      (∀ en, (s.eng f).state = .enumerating → (s.eng f).enum = some en → (s.eng f).request = none →
        en.mode = .extend ∨ s.pendingFor f = [] → s.corr.reports.length < Config.corrReportDepth →
        ∃ t, exec c s = .next t ∧ isBlocked t ∧ t.corr.reports = s.corr.reports ++ [.enumEnd f] ∧
          (∀ e, (t.entry e).misses = (s.entry e).misses ∧ (t.entry e).state = (s.entry e).state ∧
            (t.entry e).place = (s.entry e).place) ∧
          t.log.intake = s.log.intake ++ [done en.count, alarm])) ∧
    ((s.eng f).state = .ready → (s.eng f).txn = none → (s.eng f).outcome = none → (s.eng f).enum = none →
      (s.eng f).request = none → s.order.reports.length = Config.orderReportDepth →
      ∃ t, exec (.lineStuck f) s = .next t ∧ (t.eng f).state = .blocked ∧ t.dir = s.dir ∧ t.log = s.log ∧
        t.order = s.order ∧ (t.eng f).work =
          [.orderReport (.blocked f), .alarm .feederBlocked .critical (.feeder f) 0 none] ∧ SameMemory s t) ∧
    (0 < s.time.blockedCheck[f].due → (s.eng f).state = .blocked →
      ∃ t, exec (.blockedLineCheckExpiry f) s = .next t ∧ t.eng f = { s.eng f with checking := true } ∧
        t.time.blockedCheck[f].due = s.time.blockedCheck[f].due - 1 ∧ SameMemory s t) ∧
    ((s.eng f).checking = true → exec (.blockedLineCheckSpace f) s = .next (s.setEng f
      { s.eng f with checking := false, mark := false })) ∧
    ((s.eng f).checking = true → (s.eng f).state = .blocked →
      ∃ t, exec (.feederClear f) s = .next t ∧ (t.eng f).state = .ready ∧ (t.eng f).checking = false ∧
        t.time.blockedCheck[f].running = false ∧
        (∀ e : EntryId, (t.entry e).verify = ((s.entry e).verify || (s.entry e).on f)) ∧
        t.log.intake = s.log.intake ++ [AlarmEntry.mk .feederClear .info (.feeder f) s.time.minute
          (word (min 65535 (s.time.minute - (s.eng f).blockedSince)))] ∧ SameMemory s t)

/-! ### The Tap Directory (chapter 4) -/

/-- A current OK READ with the entry's own serial makes it PRESENT with no misses, takes its latency, flags, answer
minute and port states, and clears its need of verification; a current OK SET PORT takes the answered state of its port
and the answered on/off of the others, their masks kept. With room in the queues they log the latency shift, the changed
flags, TAP BACK of a LOST entry, whose return report goes to the correlator, and one TAP STATE MISMATCH with a flag for
each port that differed from what was known, or was sent. A current FAILED one of a kind other than LINE-BLOCKED adds a
miss, saturating at 15, the first miss dating the silence: below the threshold the entry is SILENT, at it LOST with the
lost-tap report, the lost report and TAP LOST, and a LOST one stays LOST with none; a READ answered with another serial
is taken so too, with TAP STATE MISMATCH of that serial. A LINE-BLOCKED and a stale one change no entry, log nothing and
are handed on as FAILED. No other entry changes. A silence dated after the minute of the return is a free value
(assumption 46). That an outcome of a probe is none of these is an invariant: its command is IDENTIFY. -/
def Obligations.TapOutcomes : Prop :=
  (∀ (s : State) (f : Feeder) (o : Outcome) (lat : Nat) (tamper low gate : Bool) (payload : List Byte),
     s.dir.work = [] → (s.eng f).outcome = some o → o.probe = false → o.res = .ok lat tamper low gate payload →
     s.isCurrent f o = true → s.order.reports.length < Config.orderReportDepth →
     let x := s.entry o.entry
     let logged (k : AlarmKind) (sv : Severity) (v : Word) := AlarmEntry.mk k sv (.place f o.addr) s.time.minute v
     let flags : List AlarmEntry :=
       (if x.latency ≠ 0 ∧ (x.latency + 8 < lat ∨ lat + 8 < x.latency) then [logged .tapLatencyShift .minor (word lat)]
        else []) ++
       (if x.tamper = tamper then [] else [if tamper then logged .tapTamper .major 1 else logged .tapTamper .info 0]) ++
       (if x.low = low then [] else [if low then logged .tapLowSupply .major 1 else logged .tapLowSupply .info 0]) ++
       (if x.state = .lost then [logged .tapBack .info (spanWord s.time.minute x.silentSince)] else [])
     let mismatch (d : Port → Bool) : List AlarmEntry :=
       if d 0 || d 1 || d 2 || d 3 then [logged .tapStateMismatch .minor
         (word (bitOf (d 0) + 2 * bitOf (d 1) + 4 * bitOf (d 2) + 8 * bitOf (d 3)))] else []
     let taken (t : State) (d : Port → Bool) : Prop := t.eng f = { s.eng f with outcome := none } ∧
       (∀ g, g ≠ f → t.eng g = s.eng g) ∧ (∀ e, e ≠ o.entry → t.entry e = s.entry e) ∧ SameMemory s t ∧
       (s.run.part ≠ .idle → s.log.intake = [] → s.corr.reports.length < Config.corrReportDepth →
         t.log.intake = flags ++ mismatch d ∧ t.corr.reports = s.corr.reports ++
           (if x.state = .lost then [.back o.entry f o.addr s.time.minute] else []))
     (o.cmd = .read → serialOfChars payload = x.serial →
       ∃ t, exec (.readOutcomeOk f) s = .next t ∧
         taken t (fun p => x.ports[p].applied.isSome && x.ports[p].applied != some (readPorts payload)[p]) ∧
         t.entry o.entry = { x with
           state := .present, misses := 0, silentSince := 0, lastAnswer := s.time.minute, latency := lat, tamper := tamper
           low := low, verify := false, ports := (t.entry o.entry).ports } ∧
         (∀ p : Port, t.tapPort o.entry p = { s.tapPort o.entry p with applied := some (readPorts payload)[p] }) ∧
         t.order.reports = s.order.reports ++ [.outcome .read o.entry o.port (.readOk (readPorts payload))]) ∧
     (o.cmd = .setPort →
       let on (p : Port) : Bool := (charAt payload 0).getLsbD p.val
       let answer : PortState := { on := on o.port, mask := charAt payload 1 }
       ∃ t, exec (.setPortOutcomeOk f) s = .next t ∧
         taken t (fun p => if p = o.port then answer != o.sent
           else (x.ports[p].applied.map fun a => a.on != on p).getD false) ∧
         t.entry o.entry = { x with
           state := .present, misses := 0, silentSince := 0, lastAnswer := s.time.minute, latency := lat, tamper := tamper
           low := low, ports := (t.entry o.entry).ports } ∧
         (∀ p : Port, t.tapPort o.entry p = { s.tapPort o.entry p with
           applied := some (if p = o.port then answer
             else { on := on p, mask := ((s.tapPort o.entry p).applied.map (·.mask)).getD 0 }) }) ∧
         t.order.reports = s.order.reports ++ [.outcome .setPort o.entry o.port (.setOk answer s.time.minute)])) ∧
  (∀ (s : State) (f : Feeder) (o : Outcome), s.dir.work = [] → (s.eng f).outcome = some o → o.probe = false →
     o.toTap = true → s.order.reports.length + 1 < Config.orderReportDepth →
     let x := s.entry o.entry
     let m := min 15 (x.misses + 1)
     let since := if x.misses = 0 then s.time.minute else x.silentSince
     let goes := x.state ≠ .lost ∧ s.cfg.missThr ≤ m
     let frame (t : State) : Prop := t.eng f = { s.eng f with outcome := none } ∧ (∀ g, g ≠ f → t.eng g = s.eng g) ∧
       (∀ e, e ≠ o.entry → t.entry e = s.entry e) ∧ SameMemory s t
     let missed (t : State) (more : List AlarmEntry) : Prop := frame t ∧
       t.entry o.entry = { x with
         misses := m, silentSince := since, verify := x.verify && o.cmd != .read
         state := if x.state = .lost then .lost else if m < s.cfg.missThr then .silent else .lost } ∧
       t.order.reports = s.order.reports ++ [.outcome o.cmd o.entry o.port .failed] ++
         (if goes then [.lostTap o.entry] else []) ∧
       (s.run.part ≠ .idle → s.log.intake = [] → s.corr.reports.length < Config.corrReportDepth →
         t.corr.reports = s.corr.reports ++ (if goes then [.lost o.entry f o.addr since] else []) ∧
         t.log.intake = (if goes then [AlarmEntry.mk .tapLost .major (.place f o.addr) s.time.minute (word since)]
           else []) ++ more)
     (∀ k, k ≠ .lineBlocked → o.res = .failed k → s.isCurrent f o = true →
       ∃ t, exec (.outcomeFailed f) s = .next t ∧ missed t []) ∧
     (∀ lat tamper low gate payload, o.cmd = .read → o.res = .ok lat tamper low gate payload →
       serialOfChars payload ≠ x.serial → s.isCurrent f o = true →
       ∃ t, exec (.readOutcomeOk f) s = .next t ∧ missed t
         [AlarmEntry.mk .tapStateMismatch .minor (.place f o.addr) s.time.minute (serialOfChars payload)]) ∧
     (∀ c, (c = .outcomeFailed f ∧ o.res = .failed .lineBlocked ∧ s.isCurrent f o = true ∨
         c = .staleOutcome f ∧ s.isCurrent f o = false) →
       ∃ t, exec c s = .next t ∧ frame t ∧ t.entry o.entry = x ∧ t.corr = s.corr ∧ t.log = s.log ∧
         t.order = { s.order with reports := s.order.reports ++ [.outcome o.cmd o.entry o.port .failed] }))

/-- An expiry of the pacing timer makes the next entry of the list due and stops the timer or, the list at its end, ends
the cycle: the probe is owed, the cycle count goes up by one modulo 4 and the next list is formed. A probe without an
answer changes no entry; one that a tap with room answers begins an EXTEND enumeration with its ASSIGN. -/
def Obligations.RollCalls : Prop :=
  (∀ (s : State) (f : Feeder), 0 < s.time.pacing[f].due →
    (∀ x n, s.nextOfList f ((s.roll f).list.drop (s.roll f).cursor) (s.roll f).cursor = some (x, n) →
      ∃ t, exec (.pacingTimerExpiry f) s = .next t ∧ (t.roll f).due = some x ∧ (t.roll f).cursor = n ∧
        (t.roll f).count = (s.roll f).count ∧ t.time.pacing[f].running = false ∧ (∀ e, t.entry e = s.entry e) ∧
        SameMemory s t) ∧
    (s.nextOfList f ((s.roll f).list.drop (s.roll f).cursor) (s.roll f).cursor = none →
      ∃ t, exec (.pacingTimerExpiry f) s = .next t ∧ (t.roll f).due = none ∧ (t.roll f).probeOwed = true ∧
        (t.roll f).count = ((s.roll f).count + 1) % 4 ∧ (t.roll f).cursor = 0 ∧
        (t.roll f).list = s.cycleList f (((s.roll f).count + 1) % 4) ∧ (∀ e, t.entry e = s.entry e) ∧ SameMemory s t)) ∧
  (∀ (s : State) (f : Feeder) (mark : Bool) (o : Outcome) (k : FailKind), s.dir.work = [] →
    (s.eng f).outcome = some o → o.probe = true → o.res = .failed k →
    ∃ t, exec (.probeOutcome f mark) s = .next t ∧ (t.eng f).outcome = none ∧
      ((s.eng f).txn = none → (s.eng f).state = .talking → (t.eng f).state = .ready) ∧ t.dir = s.dir ∧
      t.order = s.order ∧ SameMemory s t) ∧
  (∀ (s : State) (f : Feeder) (mark : Bool) (o : Outcome) (lat : Nat) (a b c : Bool) (payload : List Byte), s.quiet →
    s.run.part = .running → s.corr.reports.length < Config.corrReportDepth → (s.eng f).outcome = some o →
    o.probe = true → o.res = .ok lat a b c payload → (s.chooseEntry (serialOfChars payload)).isSome = true →
    s.choosePos f (Enum.start .extend) (serialOfChars payload) ≤ 62 →
    ∃ t x, exec (.probeOutcome f mark) s = .next t ∧ (t.eng f).state = .enumerating ∧ (t.eng f).txn = some x ∧
      x.cmd = .assign ∧ t.corr.reports = s.corr.reports ++ [.enumStart f] ∧ SameMemory s t)

/-- The enumerate word is refused outside RUNNING, for a mode that is none or an empty set, for a feeder that cannot
take a request and, for FRESH, for a feeder with an open outage; an accepted one is held by each feeder of the set and
by no other. -/
def Obligations.EnumerateWords : Prop :=
  ∀ (w : Word) (s : State), s.first .enumerate w →
    (s.run.part = .idle ∨ s.run.part = .halting ∨ s.run.part = .halted → enumModeField w = 1 →
      exec (.enumerateFresh w) s = .next { s.popped with dir := { s.dir with result := .notRunning } }) ∧
    (s.run.part = .starting → enumModeField w = 2 →
      exec (.enumerateExtend w) s = .next { s.popped with dir := { s.dir with result := .busy } }) ∧
    (s.run.part = .running →
      (enumModeField w ≠ 1 ∧ enumModeField w ≠ 2 ∨ enumFeeders w = [] →
        exec (.enumerateBadAction w) s = .next { s.popped with dir := { s.dir with result := .badAction } }) ∧
      (∀ f, f ∈ enumFeeders w → s.enumRefused f = true → enumModeField w = 2 →
        exec (.enumerateExtend w) s = .next { s.popped with dir := { s.dir with result := .feeder } }) ∧
      (∀ f, f ∈ enumFeeders w → (∀ g ∈ enumFeeders w, s.enumRefused g = false) → s.openOutageOn f = true →
        enumModeField w = 1 →
        exec (.enumerateFresh w) s = .next { s.popped with dir := { s.dir with result := .outageOpen } }) ∧
      (∀ (c : Instr) (m : EnumMode),
        (c = .enumerateFresh w ∧ m = .fresh ∧ enumModeField w = 1 ∧ (∀ g ∈ enumFeeders w, s.openOutageOn g = false) ∨
          c = .enumerateExtend w ∧ m = .extend ∧ enumModeField w = 2) →
        enumFeeders w ≠ [] → (∀ g ∈ enumFeeders w, s.enumRefused g = false) →
        ∃ t, exec c s = .next t ∧ t.dir = { s.dir with result := .accepted } ∧
          (∀ g ∈ enumFeeders w, t.eng g = { s.eng g with request := some m }) ∧
          (∀ g, g ∉ enumFeeders w → t.eng g = s.eng g) ∧ t.run = s.run ∧ SameMemory s t))

/-- A held request is taken in READY with the start report and the first call, FORGET or IDENTIFY. After FORGET every
tap placed on the feeder is unplaced and pending, with a lost-tap and a vacate report each, by position; a FORGET
without an answer ends FORGET-FAILED. An IDENTIFY of a new serial with room, or of one with an entry, leads to ASSIGN,
the choice kept; its latency goes to the entry of the serial (R64; DEDUCED, assumption 32). One answered before a halt
and taken after the resume leads to the next IDENTIFY (R94; DESIGN CHOICE, assumption 34). The entry for a serial is its
own, else the lowest FREE one, else, of the LOST ones that are unplaced, unclaimed and not pending, that with the
smallest last answer minute, the lowest among equals. The position is the next one of a FRESH; of an EXTEND the entry's
own where it is placed on the feeder, else one above the highest occupied, or 1. The ends: COMPLETE at an IDENTIFY
without an answer, IDENTIFY-FAILED at another failure, NOT-ADMITTED, with TAP NOT ADMITTED, where no entry can be had,
at the IDENTIFY or, the choice lost, at the ASSIGN, FEEDER-FULL, with FEEDER FULL, above position 62, ASSIGN-FAILED at
an ASSIGN that fails or echoes another position. There a FRESH makes every entry still pending LOST, with TAP LOST where
it was not, has every entry placed on the feeder verified and forms the roll call's list afresh; an EXTEND that placed a
tap has the feeder's LOST ones verified. An ASSIGN that echoes its position places the chosen entry, or another where
that was taken: a new tap, the entry cleared, with TAP NEW; one placed elsewhere with TAP MOVED, its old place vacated;
a pending one as it was. A port claimed since keeps an entry from being reused (assumption 58). The order of the vacated
entries' reports, by position, and of the TAP LOST entries, by entry number, is the model's choice (DESIGN CHOICE,
assumption 57). A count above 255 is a free value (assumption 56). -/
def Obligations.EnumerationSteps : Prop :=
  ((∀ (s : State) (f : Feeder) (en : Enum) (serial : Word),
     (en.mode = .fresh → s.choosePos f en serial = en.next) ∧
     (en.mode = .extend →
       (∀ e n, s.entryOfSerial serial = some e → (s.entry e).place = some { feeder := f, pos := n } →
         s.choosePos f en serial = n) ∧
       ((∀ e, s.entryOfSerial serial = some e → (s.entry e).on f = false) →
         (∀ e n, (s.entry e).place = some { feeder := f, pos := n } → n < s.choosePos f en serial) ∧
         ((∀ e, (s.entry e).on f = false) → s.choosePos f en serial = 1) ∧
         ((∃ e, (s.entry e).on f = true) →
           ∃ e n, (s.entry e).place = some { feeder := f, pos := n } ∧ s.choosePos f en serial = n + 1)))) ∧
   (∀ (s : State) (serial : Word),
     let spare (e : EntryId) : Prop := (s.entry e).state = .lost ∧ (s.entry e).place = none ∧ (s.entry e).pending = none ∧
       ∀ p : Port, (s.tapPort e p).claim = none
     (∀ e, s.entryOfSerial serial = some e → s.chooseEntry serial = some (e, .held)) ∧
     (s.entryOfSerial serial = none →
       (∀ e, (s.entry e).state = .free → (∀ d, d < e → (s.entry d).state ≠ .free) →
         s.chooseEntry serial = some (e, .free)) ∧
       ((∀ e, (s.entry e).state ≠ .free) →
         ((∀ e, ¬ spare e) → s.chooseEntry serial = none) ∧
         ∀ e, spare e → (∀ d, spare d → d ≠ e →
             (s.entry e).lastAnswer < (s.entry d).lastAnswer ∨
               (s.entry e).lastAnswer = (s.entry d).lastAnswer ∧ e < d) →
           s.chooseEntry serial = some (e, .reused))))) ∧
  ∀ (s : State) (f : Feeder) (mark : Bool), s.quiet → s.run.part = .running →
    s.corr.reports.length < Config.corrReportDepth → s.order.reports = [] → s.log.intake = [] →
    (∀ m, (s.eng f).state = .ready → (s.eng f).txn = none → (s.eng f).outcome = none → (s.eng f).quiet = false →
      (s.eng f).request = some m → s.openOutageOn f = false →
      ∃ t x en, exec (.enumerationRequestTaken f mark) s = .next t ∧ (t.eng f).state = .enumerating ∧
        (t.eng f).request = none ∧ (t.eng f).enum = some en ∧ en.mode = m ∧ en.next = 1 ∧ en.count = 0 ∧
        (t.eng f).txn = some x ∧ x.cmd = (if m = .fresh then .forget else .identify) ∧
        x.phase = (if mark then .calling else .waitMark) ∧
        t.corr.reports = s.corr.reports ++ [.enumStart f] ∧ SameMemory s t) ∧
    (∀ (o : Outcome) (en : Enum), (s.eng f).state = .enumerating → (s.eng f).outcome = some o → o.probe = false →
      (s.eng f).enum = some en →
      (∀ lat a b c pl, o.cmd = .forget → o.res = .ok lat a b c pl → (s.row f).length ≤ Config.orderReportDepth →
        s.corr.reports.length + (s.row f).length ≤ Config.corrReportDepth →
        ∃ t x, exec (.forgetOutcome f mark) s = .next t ∧ (t.eng f).txn = some x ∧ x.cmd = .identify ∧
          (∀ e, (s.entry e).on f = true →
            t.entry e = { s.entry e with place := none, pending := (s.entry e).place }) ∧
          (∀ e, (s.entry e).on f = false → t.entry e = s.entry e) ∧
          t.order.reports = (s.row f).map (fun y => OrderReport.lostTap y.2) ∧
          t.corr.reports = s.corr.reports ++ (s.row f).map (fun y =>
            CorrReport.vacate y.2 f y.1 s.time.minute ((s.entry y.2).state == .lost)) ∧ SameMemory s t) ∧
      (∀ k, o.cmd = .forget → o.res = .failed k → s.pendingFor f = [] →
        ∃ t, exec (.forgetOutcome f mark) s = .next t ∧ (t.eng f).state = .ready ∧ (t.eng f).enum = none ∧
          t.log.intake = [AlarmEntry.mk .enumerationDone .minor (.feeder f) s.time.minute
            (word (countField en.count + 2 ^ 8 * Ending.forgetFailed.code))] ∧
          (∀ e, (t.entry e).place = (s.entry e).place ∧ (t.entry e).state = (s.entry e).state) ∧ SameMemory s t) ∧
      (∀ lat a b c pl, o.cmd = .identify → o.res = .ok lat a b c pl → s.entryOfSerial (serialOfChars pl) = none →
        en.again = false → (s.chooseEntry (serialOfChars pl)).isSome = true → s.choosePos f en (serialOfChars pl) ≤ 62 →
        ∃ t x, exec (.enumIdentifyOutcome f mark) s = .next t ∧ (t.eng f).txn = some x ∧ x.cmd = .assign ∧
          x.chars = callChars 0 .assign (assignPayload (s.choosePos f en (serialOfChars pl)) (serialOfChars pl)) ∧
          (∃ y, (t.eng f).enum = some y ∧ y.choice = s.chooseEntry (serialOfChars pl) ∧ y.count = en.count ∧
            y.pos = s.choosePos f en (serialOfChars pl) ∧ y.serial = serialOfChars pl) ∧
          (∀ e, t.entry e = s.entry e) ∧ SameMemory s t) ∧
      (∀ lat a b c pl e, o.cmd = .identify → o.res = .ok lat a b c pl → s.entryOfSerial (serialOfChars pl) = some e →
        en.again = false → s.choosePos f en (serialOfChars pl) ≤ 62 →
        ∃ t x, exec (.enumIdentifyOutcome f mark) s = .next t ∧ (t.eng f).txn = some x ∧ x.cmd = .assign ∧
          x.chars = callChars 0 .assign (assignPayload (s.choosePos f en (serialOfChars pl)) (serialOfChars pl)) ∧
          (∃ y, (t.eng f).enum = some y ∧ y.choice = some (e, .held) ∧ y.count = en.count) ∧
          t.entry e = { s.entry e with latency := lat } ∧ (∀ d, d ≠ e → t.entry d = s.entry d) ∧ SameMemory s t) ∧
      (∀ lat a b c pl, o.cmd = .identify → o.res = .ok lat a b c pl → en.again = true →
        (s.chooseEntry (serialOfChars pl)).isSome = true → s.choosePos f en (serialOfChars pl) ≤ 62 →
        ∃ t x, exec (.enumIdentifyOutcome f mark) s = .next t ∧ (t.eng f).txn = some x ∧ x.cmd = .identify ∧
          (∃ y, (t.eng f).enum = some y ∧ y.again = false ∧ y.count = en.count ∧ y.next = en.next ∧ y.mode = en.mode) ∧
          (∀ e, (t.entry e).place = (s.entry e).place) ∧ SameMemory s t) ∧
      (∀ (c : Instr) (ending : Ending) (first : List AlarmEntry) (x : EntryId → Entry),
        c = .enumIdentifyOutcome f mark ∧ o.cmd = .identify ∧
            (o.res = .failed .noAnswer ∧ ending = .complete ∧ first = [] ∧ x = s.entry ∨
             (∃ k, k ≠ .noAnswer ∧ o.res = .failed k) ∧ ending = .identifyFailed ∧ first = [] ∧ x = s.entry ∨
             (∃ lat a b d pl, o.res = .ok lat a b d pl ∧ s.chooseEntry (serialOfChars pl) = none ∧
               ending = .notAdmitted ∧ x = s.entry ∧ first = [AlarmEntry.mk .tapNotAdmitted .critical (.feeder f)
                 s.time.minute (serialOfChars pl)]) ∨
             ∃ lat a b d pl, o.res = .ok lat a b d pl ∧ (s.chooseEntry (serialOfChars pl)).isSome = true ∧
               62 < s.choosePos f en (serialOfChars pl) ∧ ending = .feederFull ∧
               x = (fun e => if s.entryOfSerial (serialOfChars pl) = some e then { s.entry e with latency := lat }
                 else s.entry e) ∧
               first = [AlarmEntry.mk .feederFull .critical (.feeder f) s.time.minute (serialOfChars pl)]) ∨
          c = .assignOutcome f mark ∧ o.cmd = .assign ∧ x = s.entry ∧
            (((∃ k, o.res = .failed k) ∨ ∃ lat a b d pl, o.res = .ok lat a b d pl ∧ (charAt pl 0).toNat ≠ en.pos) ∧
               ending = .assignFailed ∧ first = [] ∨
             (∃ lat a b d pl, o.res = .ok lat a b d pl ∧ (charAt pl 0).toNat = en.pos) ∧
               (∀ y, en.choice = some y → s.choiceStands en.serial y = false) ∧ s.chooseEntry en.serial = none ∧
               ending = .notAdmitted ∧ first = [AlarmEntry.mk .tapNotAdmitted .critical (.feeder f) s.time.minute
                 en.serial]) →
        let done := AlarmEntry.mk .enumerationDone (if ending = .complete then .info else .minor) (.feeder f) s.time.minute
          (word (countField en.count + 2 ^ 8 * ending.code))
        let ended (t : State) : Prop := (t.eng f).state = .ready ∧ (t.eng f).enum = none ∧
          t.corr.reports = s.corr.reports ++ [.enumEnd f] ∧ t.order.reports = [] ∧ SameMemory s t
        (en.mode = .extend → ∃ t, exec c s = .next t ∧ ended t ∧ t.log.intake = first ++ [done] ∧
          (∀ e, t.entry e = { x e with verify := (s.entry e).verify ||
            (decide (0 < en.count) && (s.entry e).on f && (s.entry e).state == .lost) }) ∧ t.roll f = s.roll f) ∧
        (en.mode = .fresh → first.length + (s.pendingFor f).length < Config.intakeDepth →
          ∃ t, exec c s = .next t ∧ ended t ∧
            (∀ e, e ∈ s.pendingFor f → t.entry e = { x e with
              state := .lost, pending := none, verify := (s.entry e).verify || (s.entry e).on f
              silentSince := if (s.entry e).state ≠ .lost ∧ (s.entry e).silentSince = 0 then s.time.minute
                else (s.entry e).silentSince }) ∧
            (∀ e, e ∉ s.pendingFor f → t.entry e = { x e with verify := (s.entry e).verify || (s.entry e).on f }) ∧
            (t.roll f).cursor = 0 ∧ (t.roll f).count = (s.roll f).count ∧
            (t.roll f).list = t.cycleList f (s.roll f).count ∧
            t.log.intake = first ++ ((s.pendingFor f).filterMap fun e => if (s.entry e).state = .lost then none else
                some (AlarmEntry.mk .tapLost .major (.place f (((s.entry e).pending.map (·.pos)).getD 0)) s.time.minute
                  (word (t.entry e).silentSince))) ++ [done])) ∧
      (∀ e, e ∈ s.pendingFor f ↔ ∃ pl, (s.entry e).pending = some pl ∧ pl.feeder = f) ∧
      (∀ lat a b c pl e, o.cmd = .assign → o.res = .ok lat a b c pl → (charAt pl 0).toNat = en.pos →
        s.entryOfSerial en.serial = none →
        (en.choice = some (e, .free) ∧ (s.entry e).state = .free ∨
          en.choice = some (e, .reused) ∧ (s.entry e).reusable = true ∨
          (∀ y, en.choice = some y → s.choiceStands en.serial y = false) ∧ ∃ pick,
            s.chooseEntry en.serial = some (e, pick)) →
        ∃ t x, exec (.assignOutcome f mark) s = .next t ∧ (t.eng f).txn = some x ∧ x.cmd = .identify ∧
          t.entry e = { Entry.free with
            state := .present, serial := en.serial, place := some { feeder := f, pos := en.pos }
            lastAnswer := s.time.minute, latency := lat, tamper := a, low := b
            ports := if en.mode = .extend then
              Entry.free.ports.map fun p => { p with applied := some PortState.off, reapply := true }
              else Entry.free.ports } ∧
          (∃ y, (t.eng f).enum = some y ∧ y.count = en.count + 1 ∧ y.next = en.next + 1) ∧
          AlarmEntry.mk .tapNew .info (.place f en.pos) s.time.minute en.serial ∈ t.log.intake ∧
          (∀ g, g ≠ e → t.entry g = s.entry g) ∧ SameMemory s t) ∧
      (∀ lat a b c pl e, o.cmd = .assign → o.res = .ok lat a b c pl → (charAt pl 0).toNat = en.pos →
        en.choice = some (e, .held) → (s.entry e).serial = en.serial →
        (s.entry e).state = .present ∨ (s.entry e).state = .silent →
        (s.entry e).place = none → (s.entry e).pending.map (·.feeder) = some f →
        ∃ t x, exec (.assignOutcome f mark) s = .next t ∧ (t.eng f).txn = some x ∧ x.cmd = .identify ∧
          t.entry e = { s.entry e with
            state := .present, misses := 0, silentSince := 0, lastAnswer := s.time.minute, latency := lat, tamper := a
            low := b, place := some { feeder := f, pos := en.pos }, pending := none
            ports := if en.mode = .extend then
              (s.entry e).ports.map fun p => { p with applied := some PortState.off, reapply := true }
              else (s.entry e).ports } ∧
          (∃ y, (t.eng f).enum = some y ∧ y.count = en.count + 1) ∧ t.order.reports = [] ∧
          t.corr.reports = s.corr.reports ∧ (∀ g, g ≠ e → t.entry g = s.entry g) ∧ SameMemory s t) ∧
      (∀ lat a b c pl e old, o.cmd = .assign → o.res = .ok lat a b c pl → (charAt pl 0).toNat = en.pos →
        en.choice = some (e, .held) → (s.entry e).serial = en.serial → (s.entry e).state = .present →
        (s.entry e).place = some old → old.feeder ≠ f →
        ∃ t x, exec (.assignOutcome f mark) s = .next t ∧ (t.eng f).txn = some x ∧ x.cmd = .identify ∧
          (t.entry e).place = some { feeder := f, pos := en.pos } ∧ (t.entry e).state = .present ∧
          t.order.reports = [.lostTap e] ∧
          t.corr.reports = s.corr.reports ++ [.vacate e old.feeder old.pos s.time.minute false] ∧
          AlarmEntry.mk .tapMoved .minor (.place f en.pos) s.time.minute (placeValue (some old)) ∈ t.log.intake ∧
          (∀ g, g ≠ e → t.entry g = s.entry g) ∧ SameMemory s t))

/-! ### Outages and the alarm log (chapter 5) -/

/-- The marks of an enumeration and the low-supply counts change as reported. A run that no outage covers is declared at
the threshold, with the next id and its own span, its start the earliest silence of the run, OUTAGE BEGIN notices to the
claims of its taps and OUTAGE OPEN, and not below it; with 16 outages open it is not declared, and OUTAGE LIST FULL is
submitted once. A run that covers one outage grows it, and one that covers two merges them into the one that starts
earlier, with notices to the taps joined and OUTAGE MERGED. A covered tap that returns or is vacated ends its
subscribers' outage with OUTAGE END at the report's minute; the last one closes the outage with OUTAGE CLOSED and its
duration, one at an end shrinks it, and one between others splits it in two with OUTAGE SPLIT when it returns and leaves
it when it is vacated, or, with 16 outages open, keeps its lower part and gives up the upper one with OUTAGE END for its
taps and OUTAGE LIST FULL. The threshold is Nmin, and 1 while a supply is low: a count of low supplies that leaves 0 has
each run of the feeder that no outage covers examined at it, and the end of an enumeration has every run of the feeder
examined. When an outage closes, the walk declares a run that has waited for a record, and the list-full flag is cleared
when none waits any more. Covered taps whose vacate reports are still queued count as the outage's (assumption 35), and
a span below 0 is a free value (assumption 46), which these clauses leave out. A vacate of a LOST entry that no outage
covers, no outage being open, changes nothing. -/
def Obligations.CorrelatorReports : Prop :=
  (∀ (s : State) (f : Feeder), (s.corr.lowSupply[f] = 0 → s.threshold f = s.cfg.nmin) ∧
     (0 < s.corr.lowSupply[f] → s.threshold f = 1)) ∧
  (∀ (s : State) (f : Feeder) (rest : List CorrReport), s.quiet →
     (s.corr.reports = .enumStart f :: rest → exec .enumerationStartReport s = .next { s with
       corr := { s.corr with reports := rest, enumerating := s.corr.enumerating.set f true } }) ∧
     (s.corr.reports = .enumEnd f :: rest → s.runs f = [] → exec .enumerationEndReport s = .next { s with
       corr := { s.corr with reports := rest, enumerating := s.corr.enumerating.set f false } }) ∧
     (s.corr.reports = .supplyLow f :: rest → s.corr.lowSupply[f] ≠ 0 ∨ s.runs f = [] →
       exec .supplyLowReport s = .next { s with
         corr := { s.corr with reports := rest, lowSupply := s.corr.lowSupply.set f (min 8 (s.corr.lowSupply[f] + 1)) } }) ∧
     (s.corr.reports = .supplyClear f :: rest → exec .supplyClearReport s = .next { s with
       corr := { s.corr with reports := rest, lowSupply := s.corr.lowSupply.set f (s.corr.lowSupply[f] - 1) } }) ∧
     (∀ e pos since run, s.corr.reports = .lost e f pos since :: rest → (s.entry e).state = .lost →
       (s.entry e).place = some { feeder := f, pos := pos } → s.corr.enumerating[f] = false →
       s.runAt f pos = some run → s.corr.outages = [] →
       (s.threshold f ≤ run.length → ∃ t o, exec .lostReport s = .next t ∧ t.corr.outages = [o] ∧ o.id = s.corr.nextId ∧
         o.feeder = f ∧ o.first = Row.firstPos run ∧ o.last = Row.lastPos run ∧ o.declared = s.time.minute ∧
         t.corr.nextId = (if s.corr.nextId = 65535 then 1 else s.corr.nextId + 1) ∧ t.dir = s.dir ∧ SameMemory s t) ∧
       (run.length < s.threshold f →
         exec .lostReport s = .next { s with corr := { s.corr with reports := rest } })) ∧
     (∀ e pos minute o c, s.corr.outages = [o] → o.covers f pos = true → o.feeder = f → (∀ g, s.runs g = []) →
       State.partsOf { s with corr := { s.corr with reports := rest } } o pos = ([], []) →
       (c = .returnReport ∧ s.corr.reports = .back e f pos minute :: rest ∧ (s.entry e).state ≠ .lost ∧
           (s.entry e).place = some { feeder := f, pos := pos } ∨
         ∃ lost, c = .vacateReport ∧ s.corr.reports = .vacate e f pos minute lost :: rest) →
       ∃ t, exec c s = .next t ∧ t.corr.outages = [] ∧ t.corr.listFull = false ∧ t.corr.nextId = s.corr.nextId ∧
         t.dir = s.dir ∧ SameMemory s t) ∧
     (∀ e pos minute, s.corr.reports = .vacate e f pos minute true :: rest → s.corr.outages = [] →
       exec .vacateReport s = .next { s with corr := { s.corr with reports := rest } })) ∧
  (∀ (s : State) (f : Feeder) (rest : List CorrReport), s.quiet → s.run.part ≠ .idle →
     s.log.intake.length + 2 ≤ Config.intakeDepth →
     let u := { s with corr := { s.corr with reports := rest } }
     let handed (t : State) (ns : List Task) (as : List AlarmEntry) : Prop :=
       t.bill.queue.map Task.notice = s.bill.queue.map Task.notice ++ ns ∧ t.log.intake = s.log.intake ++ as ∧
         t.dir = s.dir ∧ SameMemory s t
     let room (ns : List Task) : Prop := s.bill.queue.length + ns.length ≤ Config.noticeDepth
     (∀ e pos since run, s.corr.reports = .lost e f pos since :: rest → (s.entry e).state = .lost →
       (s.entry e).place = some { feeder := f, pos := pos } → s.corr.enumerating[f] = false →
       s.runAt f pos = some run →
       (s.corr.outages = [] → s.threshold f ≤ run.length →
         room (s.rowNotices run (.outageBegin s.corr.nextId) s.time.minute) →
         ∃ t o, exec .lostReport s = .next t ∧ t.corr.outages = [o] ∧ (∀ x ∈ run, o.start ≤ (s.entry x.2).silentSince) ∧
           (∃ x ∈ run, o.start = (s.entry x.2).silentSince) ∧
           handed t (s.rowNotices run (.outageBegin s.corr.nextId) s.time.minute)
             [AlarmEntry.mk .outageOpen .critical (.outage s.corr.nextId) s.time.minute
               (word (f.val + 2 ^ 8 * Row.firstPos run + 2 ^ 16 * Row.lastPos run))]) ∧
       (16 ≤ s.corr.outages.length → s.corrWork.covering f run = [] → s.threshold f ≤ run.length →
         (s.corr.listFull = true → exec .lostReport s = .next u) ∧
         (s.corr.listFull = false → ∃ t, exec .lostReport s = .next t ∧ t.corr.outages = s.corr.outages ∧
           t.corr.listFull = true ∧ t.corr.nextId = s.corr.nextId ∧
           handed t [] [AlarmEntry.mk .outageListFull .critical (.place f (Row.firstPos run)) s.time.minute
             (word run.length)])) ∧
       (∀ o, s.corr.outages = [o] → s.corrWork.covering f run = [o] →
         let joined := s.rowNotices (run.filter fun x => !o.covers f x.1) (.outageBegin o.id) s.time.minute
         room joined → ∃ t, exec .lostReport s = .next t ∧
           t.corr.outages = [{ o with first := Row.firstPos run, last := Row.lastPos run,
                                      start := s.earliest (run.filter fun x => !o.covers f x.1) o.start }] ∧
           t.corr.nextId = s.corr.nextId ∧ handed t joined []) ∧
       (∀ a b, s.corr.outages = [a, b] → s.corrWork.covering f run = [a, b] → a.id < b.id → s.runs f = [run] →
         (∀ g, g ≠ f → s.runs g = []) → Row.firstPos run ≤ Row.lastPos run →
         let keep := if b.start < a.start then b else a
         let gone := if b.start < a.start then a else b
         let joined := s.rowNotices (run.filter fun x => !(a.covers f x.1 || b.covers f x.1)) (.outageBegin keep.id)
           s.time.minute
         room joined → ∃ t, exec .lostReport s = .next t ∧ t.corr.outages = [{ keep with
             first := Row.firstPos run, last := Row.lastPos run
             start := s.earliest (run.filter fun x => !keep.covers f x.1) keep.start }] ∧ t.corr.listFull = false ∧
           handed t joined [AlarmEntry.mk .outageMerged .info (.outage gone.id) s.time.minute (word keep.id)])) ∧
     (∀ e pos minute o (c : Instr), s.corr.outages = [o] → o.feeder = f → o.covers f pos = true →
       c = .returnReport ∧ s.corr.reports = .back e f pos minute :: rest ∧ (s.entry e).state ≠ .lost ∧
           (s.entry e).place = some { feeder := f, pos := pos } ∨
         (∃ lost, c = .vacateReport ∧ s.corr.reports = .vacate e f pos minute lost :: rest) →
       let ends := s.tapNotices e (.outageEnd o.id) minute
       room ends →
       (u.partsOf o pos = ([], []) → (∀ g, s.runs g = []) → o.start ≤ minute → ∃ t, exec c s = .next t ∧
         t.corr.outages = [] ∧
         handed t ends [AlarmEntry.mk .outageClosed .info (.outage o.id) s.time.minute (word (minute - o.start))]) ∧
       (∀ x xs, u.partsOf o pos = ([], x :: xs) → ∃ t, exec c s = .next t ∧
         t.corr.outages = [{ o with first := x.1 }] ∧ handed t ends []) ∧
       (∀ x xs, u.partsOf o pos = (x :: xs, []) → ∃ t, exec c s = .next t ∧
         t.corr.outages = [{ o with last := Row.lastPos (x :: xs) }] ∧ handed t ends []) ∧
       (∀ x xs y ys, u.partsOf o pos = (x :: xs, y :: ys) →
         (c = .vacateReport → ∃ t, exec c s = .next t ∧ t.corr = u.corr ∧ handed t ends []) ∧
         (c = .returnReport → o.id < s.corr.nextId → ∃ t, exec c s = .next t ∧
           t.corr.outages = [{ o with last := Row.lastPos (x :: xs) },
             { id := s.corr.nextId, feeder := f, first := Row.firstPos (y :: ys), last := o.last, start := o.start,
               declared := s.time.minute }] ∧
           handed t ends [AlarmEntry.mk .outageSplit .info (.outage o.id) s.time.minute (word s.corr.nextId)]))) ∧
     (∀ e pos minute o before after, s.corr.reports = .back e f pos minute :: rest → (s.entry e).state ≠ .lost →
       (s.entry e).place = some { feeder := f, pos := pos } → s.corr.outages = before ++ o :: after → o.feeder = f →
       o.covers f pos = true → (∀ x ∈ before, x.covers f pos = false) → (∀ x ∈ before ++ after, x.id ≠ o.id) →
       (∀ x xs y ys, u.partsOf o pos = (x :: xs, y :: ys) → s.corr.outages.length = 16 →
         let ends := s.tapNotices e (.outageEnd o.id) minute ++ s.rowNotices (y :: ys) (.outageEnd o.id) minute
         room ends → ∃ t, exec .returnReport s = .next t ∧ t.corr.listFull = true ∧ t.corr.nextId = s.corr.nextId ∧
           t.corr.outages = before ++ { o with last := Row.lastPos (x :: xs) } :: after ∧
           handed t ends (if s.corr.listFull then [] else [AlarmEntry.mk .outageListFull .critical
             (.place f (Row.firstPos (y :: ys))) s.time.minute (word (y :: ys).length)])) ∧
       (∀ g run, u.partsOf o pos = ([], []) → o.start ≤ minute → run ∈ s.runs g → s.corr.enumerating[g] = false →
         s.threshold g ≤ run.length → Row.firstPos run ≤ Row.lastPos run → s.corr.outages.length ≤ 16 →
         (∀ x ∈ before ++ after, x.id ≠ s.corr.nextId ∧ ∀ y ∈ run, x.covers g y.1 = false) →
         (∀ h r, r ∈ s.runs h → (h, r) ≠ (g, run) → ∃ x ∈ before ++ after, ∃ y ∈ r, x.covers h y.1 = true) →
         let notices := s.tapNotices e (.outageEnd o.id) minute ++
           s.rowNotices run (.outageBegin s.corr.nextId) s.time.minute
         room notices → ∃ t new, exec .returnReport s = .next t ∧ new.id = s.corr.nextId ∧ new.feeder = g ∧
           new.first = Row.firstPos run ∧ new.last = Row.lastPos run ∧ new.declared = s.time.minute ∧
           (∀ x, x ∈ t.corr.outages ↔ x = new ∨ x ∈ before ++ after) ∧ t.corr.listFull = false ∧
           handed t notices [AlarmEntry.mk .outageClosed .info (.outage o.id) s.time.minute (word (minute - o.start)),
             AlarmEntry.mk .outageOpen .critical (.outage s.corr.nextId) s.time.minute
               (word (g.val + 2 ^ 8 * Row.firstPos run + 2 ^ 16 * Row.lastPos run))])) ∧
     (∀ run (c : Instr) (v : Correlator) (least : Nat), s.runs f = [run] →
       c = .supplyLowReport ∧ s.corr.reports = .supplyLow f :: rest ∧ s.corr.lowSupply[f] = 0 ∧ least = 1 ∧
           s.corr.enumerating[f] = false ∧ v = { u.corr with lowSupply := s.corr.lowSupply.set f 1 } ∨
         c = .enumerationEndReport ∧ s.corr.reports = .enumEnd f :: rest ∧ least = s.threshold f ∧
           v = { u.corr with enumerating := s.corr.enumerating.set f false } →
       (s.corr.outages = [] → run.length < least → exec c s = .next { s with corr := v }) ∧
       (s.corr.outages = [] → least ≤ run.length →
         let begins := s.rowNotices run (.outageBegin s.corr.nextId) s.time.minute
         room begins → ∃ t o, exec c s = .next t ∧ o.id = s.corr.nextId ∧ o.feeder = f ∧ o.first = Row.firstPos run ∧
           o.last = Row.lastPos run ∧ o.declared = s.time.minute ∧ (∀ x ∈ run, o.start ≤ (s.entry x.2).silentSince) ∧
           (∃ x ∈ run, o.start = (s.entry x.2).silentSince) ∧
           t.corr = { v with outages := [o], nextId := if s.corr.nextId = 65535 then 1 else s.corr.nextId + 1 } ∧
           handed t begins [AlarmEntry.mk .outageOpen .critical (.outage s.corr.nextId) s.time.minute
             (word (f.val + 2 ^ 8 * Row.firstPos run + 2 ^ 16 * Row.lastPos run))]) ∧
       (∀ o, s.corr.outages = [o] → s.corrWork.covering f run = [o] →
         (c = .supplyLowReport → exec c s = .next { s with corr := v }) ∧
         (c = .enumerationEndReport →
           let joined := s.rowNotices (run.filter fun x => !o.covers f x.1) (.outageBegin o.id) s.time.minute
           room joined → ∃ t, exec c s = .next t ∧ handed t joined [] ∧
             t.corr = { v with outages := [{ o with first := Row.firstPos run, last := Row.lastPos run,
                                                    start := s.earliest (run.filter fun x => !o.covers f x.1) o.start }] }))) ∧
     (∀ (x : Outage) (g : Feeder) (pos : Nat), x.covers g pos = true ↔ x.feeder = g ∧ x.first ≤ pos ∧ pos ≤ x.last) ∧
     (∀ (row : Row) (kind : NoticeKind) (minute : Nat) (n : Task), n ∈ s.rowNotices row kind minute ↔
       ∃ x ∈ row, ∃ p sub, (s.tapPort x.2 p).claim = some sub ∧ n = .notice (.notice sub kind minute)))

/-- A waiting submission enters the intake with the minute at which it was first made (DEDUCED, assumption 12). The
oldest entry is taken for writing while the log has room and nothing was dropped; its burst takes the port at the base
of the log window plus 4 times the write slot, with kind, severity, subject type and the producer as the entry's own
index, subject, minute and value; its burst written, the producer, the write slot and the critical list move and the
anchor burst follows. With the log full the oldest entry is dropped and counted, and with room again the count is
written first. A consumer value between the consumer and the producer is accepted, any other refused INDEX-RANGE, one in
IDLE refused, and one before the log is loaded waits. The attention line is due with as many unconsumed entries as its
level or with a critical one unconsumed, the escalation with the oldest critical one older than the escalation time, and
the contact with an escalation or a silent controller; they follow at an entry written, at a consumer arrival and, the
escalation and the contact alone, at a minute event and a time set. -/
def Obligations.LogEntriesAndConsumer : Prop :=
  (∀ s : State,
     (∀ k sv sj v m, s.run.part ≠ .idle → s.corr.work = [.alarm k sv sj v (some m)] →
       s.log.intake.length < Config.intakeDepth →
       exec (.alarmSubmissionTaken .correlator) s = .next { s with
         log := { s.log with intake := s.log.intake ++ [AlarmEntry.mk k sv sj m v] }, corr := { s.corr with work := [] } }) ∧
     (∀ a rest, s.log.intake = a :: rest → s.log.loaded = true → s.log.writing = none →
       (s.log.unconsumed < s.map.s → s.log.dropped = 0 → ∃ t, exec .logWrite s = .next t ∧
         t.log = { s.log with intake := rest, writing := some a } ∧
         t.path.line .alarm = s.path.line .alarm ++ [.logEntry] ∧ SameMemory s t) ∧
       (s.map.s ≤ s.log.unconsumed → exec .logDrop s = .next { s with
         log := { s.log with intake := rest, dropped := min 65535 (s.log.dropped + 1) } })) ∧
     (s.log.loaded = true → s.log.writing = none → 0 < s.log.dropped → s.log.unconsumed < s.map.s →
       ∃ t, exec .logOverflowed s = .next t ∧ t.log.dropped = 0 ∧ t.log.intake = s.log.intake ∧
         t.log.writing = some (AlarmEntry.mk .logOverflowed .major .none s.time.minute (word s.log.dropped)) ∧
         t.path.line .alarm = s.path.line .alarm ++ [.logEntry] ∧ SameMemory s t) ∧
     (∀ a n ws, s.quiet → s.log.writing = some a → s.path.port = .burst .alarm .logEntry n ws false →
       ∃ t, exec .logEntryWritten s = .next t ∧ t.mem = memWriteWords s.mem n ws ∧ t.log.writing = none ∧
         t.log.producer = (s.log.producer + 1) % 65536 ∧
         t.log.slot = (if s.log.slot + 1 = s.map.s then 0 else s.log.slot + 1) ∧
         t.log.critical = s.log.critical ++ (if a.sev = .critical then [(s.log.producer, a.minute)] else []) ∧
         t.log.intake = s.log.intake ∧ t.path.line .alarm = s.path.line .alarm ++ [.logAnchor] ∧ t.path.port = .free) ∧
     (s.path.port = .free → s.path.cycle = none → s.nextRequester = some .alarm → (∀ q, s.readTurn .alarm ≠ some (0, q)) →
       (∀ a rest, s.path.line .alarm = .logEntry :: rest → s.log.writing = some a → s.log.producer < 65536 →
         ∃ t w, exec .memoryPortGrant s = .next t ∧ t.log = s.log ∧ SameMemory s t ∧
           t.path.port = .burst .alarm .logEntry (s.map.log + 4 * s.log.slot)
             [w, word a.subject.value, word a.minute, a.value] false ∧
           bits w 0 8 = a.kind.code ∧ bits w 8 2 = a.sev.code ∧ bits w 12 3 = a.subject.typeCode ∧
           bits w 16 16 = s.log.producer) ∧
       (∀ rest, s.path.line .alarm = .logAnchor :: rest → ∃ t, exec .memoryPortGrant s = .next t ∧ t.log = s.log ∧
         t.path.port = .burst .alarm .logAnchor Config.logAnchorAddr
           [word (s.log.producer + 2 ^ 16 * s.log.slot)] false))) ∧
  (∀ (w : Word) (s : State), s.first .logConsumer w →
     (s.run.part = .idle →
       exec (.logConsumer w) s = .next { s.popped with log := { s.log with result := .notRunning } }) ∧
     (s.run.part ≠ .idle → s.log.loaded = false → exec (.logConsumer w) s = .next { s.popped with
       log := { s.log with waiting := s.log.waiting ++ [bits w 0 16] } }) ∧
     (s.run.part ≠ .idle → s.log.loaded = true →
       ((bits w 0 16 + 65536 - s.log.consumer) % 65536 ≤ s.log.unconsumed →
         ∃ t, exec (.logConsumer w) s = .next t ∧ t.log.consumer = bits w 0 16 ∧ t.log.result = .accepted ∧
           t.log.producer = s.log.producer ∧ t.log.intake = s.log.intake ∧ t.bill = s.bill ∧ SameMemory s t) ∧
       (s.log.unconsumed < (bits w 0 16 + 65536 - s.log.consumer) % 65536 →
         ∃ t, exec (.logConsumer w) s = .next t ∧ t.log.consumer = s.log.consumer ∧ t.log.result = .indexRange ∧
           t.log.critical = s.log.critical ∧ SameMemory s t))) ∧
  ((∀ s : State,
     (s.attentionDue = true ↔ s.run.part ≠ .idle ∧ s.log.loaded = true ∧
       (s.cfg.attention ≤ (s.log.producer + 65536 - s.log.consumer) % 65536 ∨ s.log.critical ≠ [])) ∧
     (s.escalationDue = true ↔ ∃ i m rest, s.log.critical = (i, m) :: rest ∧ m + s.cfg.escalation < s.time.minute) ∧
     (s.contactDue = true ↔ s.run.part ≠ .idle ∧ (s.log.escalated = true ∨ s.time.silent = true))) ∧
   (∀ s : State,
     let follows (t : State) : Prop := t.log.attention = t.attentionDue ∧ t.log.escalated = t.escalationDue ∧
       t.log.contact = t.contactDue
     (∀ a n ws, s.quiet → s.log.writing = some a → s.path.port = .burst .alarm .logEntry n ws false →
       ∃ t, exec .logEntryWritten s = .next t ∧ follows t) ∧
     (∀ w, s.first .logConsumer w → s.run.part ≠ .idle → s.log.loaded = true →
       ∃ t, exec (.logConsumer w) s = .next t ∧ follows t) ∧
     (s.time.clockSet = true → s.time.half = 119 → s.time.minute ≠ Config.minuteTop →
       ∃ t, exec .minuteEvent s = .next t ∧ t.log.attention = s.log.attention ∧ t.log.escalated = t.escalationDue ∧
         t.log.contact = t.contactDue) ∧
     (∀ w, s.first .timeSet w → s.run.part ≠ .starting → s.run.part = .idle ∨ s.time.minute ≤ w.toNat →
       ∃ t, exec (.timeSet w) s = .next t ∧ t.log.escalated = t.escalationDue ∧ t.log.contact = t.contactDue)))

/-! ### Telemetry (chapter 6) -/

/-- Each scan word is refused in IDLE and in STARTING and, as a bad action, for a mode of none or an interval out of
range; an accepted one sets the mode in effect, calls for a sequence unless it is OFF, and starts the interval timer for
PERIODIC alone. That the late flag stays as it is at an accepted scan word is the model's reading (DEDUCED, assumption
36). -/
def Obligations.ScanWords : Prop :=
  ∀ (w : Word) (s : State), s.first .scan w →
    (∀ c : Instr, (c = .scanOff w ∧ actionCode w = 0 ∨ c = .scanOnce w ∧ actionCode w = 1 ∨
        c = .scanPeriodic w ∧ actionCode w = 2 ∨ c = .scanContinuous w ∧ actionCode w = 3 ∨
        c = .scanBadAction w ∧ scanModeGood (actionCode w) (intervalField w) = false) →
      (s.run.part = .idle → exec c s = .next { s.popped with scan := { s.scan with result := .notRunning } }) ∧
      (s.run.part = .starting → exec c s = .next { s.popped with scan := { s.scan with result := .busy } })) ∧
    (s.run.part = .running ∨ s.run.part = .halting ∨ s.run.part = .halted →
      (scanModeGood (actionCode w) (intervalField w) = false →
        exec (.scanBadAction w) s = .next { s.popped with scan := { s.scan with result := .badAction } }) ∧
      (∀ (c : Instr) (m : ScanMode),
        (c = .scanOff w ∧ m = .off ∧ actionCode w = 0 ∨ c = .scanOnce w ∧ m = .once ∧ actionCode w = 1 ∨
          c = .scanPeriodic w ∧ m = .periodic ∧ actionCode w = 2 ∧ 1 ≤ intervalField w ∧ intervalField w ≤ 3600 ∨
          c = .scanContinuous w ∧ m = .continuous ∧ actionCode w = 3) →
        ∃ t, exec c s = .next t ∧ t.scan.mode = m ∧ t.scan.result = .accepted ∧ t.scan.late = s.scan.late ∧
          (t.scan.startDue = true ↔ m ≠ .off) ∧ t.scan.scanning = s.scan.scanning ∧ t.scan.entries = s.scan.entries ∧
          t.time.scan = (if m = .periodic then Timer.start (2 * intervalField w) else Timer.stopped) ∧
          Burst.teleHeader ∈ t.path.line .scanner ∧ t.run = s.run ∧ SameMemory s t))

/-- An expiry calls for a sequence or, one in progress, sets the late flag. A sequence starts with its count raised and
its start minute and takes the first entry of the list; the settling over, the probe converts; the conversion's value is
judged and stored with the sample count raised, and a change of a probe entry's state gives PROBE LOW, PROBE HIGH or
PROBE NORMAL with the value and, between NORMAL and LOW of a SUPPLY entry with a link, the supply report to the
correlator, handed before the alarm (R118). A CARRIER sample is judged by its slot's state on its level less the
expected level, its slot record, its entry and the carrier words written, and a change logged, CARRIER LOW critical
where its event is RUNNING. The switch report clears every slot's record and state, the loss counts of the carried
events taken to their new slots and every other one 0; the retained list is one record for each EVENT slot of the
outgoing copy not carried; the cursor is none; a CARRIER sample on a slot of the outgoing copy is abandoned and the
sequence goes on with its next entry; a CONTINUOUS mode that runs no sequence starts one; the Telemetry Block's header
and slots and the carrier words are asked to be written, and the switch ends with EPOCH SWITCHED. That the outgoing copy
is held until this report, a CARRIER sample of its slots being judged against it, is the model's reading (DEDUCED,
assumption 28). -/
def Obligations.Sequences : Prop :=
  (∀ s : State,
     (0 < s.time.scan.due → s.scan.mode = .periodic → s.scan.scanning = false → exec .scanIntervalExpiry s = .next { s with
       time := { s.time with scan := { s.time.scan with due := s.time.scan.due - 1 } }
       scan := { s.scan with startDue := true } }) ∧
     (0 < s.time.scan.due → s.scan.mode = .periodic → s.scan.scanning = true → ∃ t, exec .scanIntervalExpiry s = .next t ∧
       t.scan = { s.scan with late := true } ∧ Burst.teleHeader ∈ t.path.line .scanner ∧ SameMemory s t) ∧
     (∀ en rest, s.run.part = .running → s.scan.startDue = true → s.scan.scanning = false → s.scan.work = [] →
       s.cfg.scanList = en :: rest → en.kind ≠ .carrier →
       ∃ t, exec .sequenceStart s = .next t ∧ t.scan.scanning = true ∧ t.scan.startDue = false ∧
         t.scan.seqCount = (s.scan.seqCount + 1) % 2 ^ 32 ∧ t.scan.startMin = s.time.minute ∧
         t.scan.sample = some { i := 0, entry := en, slot := none, converting := false, old := false } ∧
         t.scan.next = 1 ∧
         t.scan.tune = s.scan.tune ∧ Burst.teleHeader ∈ t.path.line .scanner ∧ SameMemory s t) ∧
     (∀ x, s.scan.sample = some x → exec .settleEnd s = .next { s with
       scan := { s.scan with sample := some { x with converting := true } } }) ∧
     (∀ x code, s.quiet → s.scan.sample = some x → x.converting = true → x.slot = none → s.scan.cut = false →
       ∃ t, exec (.conversionEnd code) s = .next t ∧
         t.scan.entries[x.i].value = (convert s.cfg.probes[Fin.ofNat 13 x.entry.probe] code.toNat).1 ∧
         t.scan.entries[x.i].sat = (convert s.cfg.probes[Fin.ofNat 13 x.entry.probe] code.toNat).2 ∧
         t.scan.entries[x.i].code = code.toNat ∧ t.scan.entries[x.i].minute = s.time.minute ∧
         t.scan.entries[x.i].count = min 65535 (s.scan.entries[x.i].count + 1) ∧
         t.scan.entries[x.i].eval = s.scan.entries[x.i].eval.judge x.entry
           (convert s.cfg.probes[Fin.ofNat 13 x.entry.probe] code.toNat).1 ∧ SameMemory s t ∧
         (s.run.part ≠ .idle → s.log.intake.length < Config.intakeDepth → s.corr.reports.length < Config.corrReportDepth →
           let old := s.scan.entries[x.i].eval.state
           let new := t.scan.entries[x.i].eval.state
           let logged (k : AlarmKind) (sv : Severity) : Prop := t.log.intake = s.log.intake ++
             [AlarmEntry.mk k sv (.probe x.entry.probe) s.time.minute (wordOfInt t.scan.entries[x.i].value)]
           let linked (r : Feeder → CorrReport) : List CorrReport :=
             if x.entry.kind = .supply then (x.entry.link.map r).toList else []
           (old = .normal → new = .low → logged .probeLow .major ∧
             t.corr.reports = s.corr.reports ++ linked .supplyLow) ∧
           (old = .normal → new = .high → logged .probeHigh .major ∧ t.corr.reports = s.corr.reports) ∧
           (old = .low → new = .normal → logged .probeNormal .info ∧
             t.corr.reports = s.corr.reports ++ linked .supplyClear) ∧
           (old = .high → new = .normal → logged .probeNormal .info ∧ t.corr.reports = s.corr.reports) ∧
           (old = new → t.log.intake = s.log.intake ∧ t.corr.reports = s.corr.reports))) ∧
     (∀ r v, s.lineUp.work = [.switchReportOut, .alarm .epochSwitched .info .none v none, .switchDone] →
       s.lineUp.outgoing = some r →
       ∃ t, exec .lineupSwitchReport s = .next t ∧ t.lineUp.outgoing = none ∧
         Burst.teleHeader ∈ t.path.line .scanner ∧ (∀ k : SlotId, Burst.teleSlot k ∈ t.path.line .scanner) ∧
         (∀ k : SlotId, Burst.carrier k ∈ t.path.line .scanner) ∧ SameMemory s t)) ∧
  (∀ (s : State) (r : SwitchReport) (v : Word),
     s.lineUp.work = [.switchReportOut, .alarm .epochSwitched .info .none v none, .switchDone] → s.lineUp.outgoing = some r →
     ∃ t, exec .lineupSwitchReport s = .next t ∧
       (∀ k : SlotId, t.scan.slots[k].eval = Eval.normal ∧ t.scan.slots[k].value = 0 ∧ t.scan.slots[k].sat = false ∧
         t.scan.slots[k].sampled = false ∧ t.scan.slots[k].minute = 0) ∧
       (∀ k j : SlotId, s.active.slots[k].isEvent = true → s.active.slots[k].event ∈ r.carried →
         r.outgoing.slotOfEvent s.active.slots[k].event = some j → t.scan.slots[k].loss = s.scan.slots[j].loss) ∧
       (∀ k : SlotId, s.active.slots[k].isEvent = false ∨ s.active.slots[k].event ∉ r.carried →
         t.scan.slots[k].loss = 0) ∧
       (∀ y : Retained, y ∈ t.scan.retained ↔ ∃ k : SlotId, r.outgoing.slots[k].isEvent = true ∧
         r.outgoing.slots[k].event ∉ r.carried ∧
         y = { event := r.outgoing.slots[k].event, start := r.outgoing.slots[k].start, stop := r.outgoing.slots[k].stop
               loss := s.scan.slots[k].loss }) ∧
       t.scan.entries = s.scan.entries ∧ SameMemory s t ∧
       ((∀ x, s.scan.sample = some x → x.slot = none ∨ x.old = false) →
         t.scan.carrier = none ∧ t.scan.sample = s.scan.sample ∧ t.scan.scanning = s.scan.scanning ∧
           (t.scan.startDue = true ↔ s.scan.startDue = true ∨ s.scan.mode = .continuous ∧ s.scan.scanning = false)) ∧
       (∀ x y, s.scan.sample = some x → x.slot = some y → x.old = true → s.scan.cut = false →
         (s.cfg.scanList.drop s.scan.next = [] →
           t.scan.sample = none ∧ t.scan.scanning = false ∧ t.scan.endMin = s.time.minute ∧ t.scan.carrier = none) ∧
         (∀ en rest, s.cfg.scanList.drop s.scan.next = en :: rest →
           (en.kind ≠ .carrier → t.scan.carrier = none ∧ t.scan.next = s.scan.next + 1 ∧ t.scan.sample =
             some { i := Fin.ofNat 8 s.scan.next, entry := en, slot := none, converting := false, old := false }) ∧
           (∀ k : SlotId, en.kind = .carrier → s.active.slots[k].isLit = true →
             (∀ j : SlotId, s.active.slots[j].isLit = true → k ≤ j) →
             t.scan.carrier = some k ∧ t.scan.tune = s.active.slots[k].tune ∧ t.scan.next = s.scan.next + 1 ∧
               t.scan.sample = some { i := Fin.ofNat 8 s.scan.next, entry := en, slot := some (k, s.active.slots[k])
                                      converting := false, old := false }))) ∧
       (s.run.part ≠ .idle → s.log.intake.length < Config.intakeDepth → t.lineUp.switch = none ∧ t.lineUp.work = [] ∧
         t.log.intake = s.log.intake ++ [AlarmEntry.mk .epochSwitched .info .none s.time.minute v])) ∧
  (∀ (s : State) (x : Sample) (k : SlotId) (slot : Slot) (code : BitVec 12), s.quiet → s.scan.sample = some x →
     x.converting = true → x.slot = some (k, slot) →
     let v := (convert s.cfg.probes[Fin.ofNat 13 x.entry.probe] code.toNat).1
     let ev := s.scan.slots[k].eval.judge x.entry (v - slot.level)
     let copy := if x.old = true then (s.lineUp.outgoing.map (·.outgoing)).getD s.active else s.active
     ∃ t, exec (.conversionEnd code) s = .next t ∧
       t.scan.slots[k].eval = ev ∧ t.scan.slots[k].value = v ∧ t.scan.slots[k].sampled = true ∧
       t.scan.slots[k].minute = s.time.minute ∧ t.scan.slots[k].loss = s.scan.slots[k].loss ∧
       (∀ j : SlotId, j ≠ k → t.scan.slots[j] = s.scan.slots[j]) ∧
       t.scan.entries[x.i].value = v ∧ t.scan.entries[x.i].shown = ev.state ∧
       t.scan.entries[x.i].eval = s.scan.entries[x.i].eval ∧
       t.scan.entries[x.i].count = min 65535 (s.scan.entries[x.i].count + 1) ∧ SameMemory s t ∧
       (ev.state = s.scan.slots[k].eval.state → t.log.intake = s.log.intake ∧
         Burst.teleEntry x.i ∈ t.path.line .scanner ∧ Burst.teleSlot k ∈ t.path.line .scanner ∧
         Burst.carrier k ∈ t.path.line .scanner) ∧
       (s.run.part ≠ .idle → s.log.intake.length < Config.intakeDepth →
         (s.scan.slots[k].eval.state = .normal → ev.state = .low → t.log.intake = s.log.intake ++
           [AlarmEntry.mk .carrierLow
             (if copy.slots[k].isEvent = true ∧ copy.ev[k] = .running then .critical else .major) (.slot k) s.time.minute
             (wordOfInt v)]) ∧
         (s.scan.slots[k].eval.state = .normal → ev.state = .high → t.log.intake = s.log.intake ++
           [AlarmEntry.mk .carrierHigh .major (.slot k) s.time.minute (wordOfInt v)]) ∧
         (s.scan.slots[k].eval.state ≠ .normal → ev.state = .normal → t.log.intake = s.log.intake ++
           [AlarmEntry.mk .carrierNormal .info (.slot k) s.time.minute (wordOfInt v)])))

/-- A code times the gain, divided by 4,096 and rounded, plus the offset, is clamped to 16 bits, with the flag when
clamping changed it. In NORMAL a sample below L-set raises the low count and clears the high count, and at N the state
is LOW; one above H-set raises the high count and clears the low count, and at N the state is HIGH; any other clears
both. In LOW a sample at or above L-clear, and in HIGH one at or below H-clear, raises the clear count, and at N the
state is NORMAL; any other clears it. A count goes back to 0 with the change it brings, and a change of state with
nothing counted before it needs N samples. Where L-set lies above H-set, a sample below the one and above the other is
taken as low (DESIGN CHOICE, assumption 68). -/
def Obligations.Conversions : Prop :=
  (∀ (p : ProbeScale) (code : Nat),
    (convert p code).1 = max (-32768) (min 32767 (p.offset + (((code * p.gain + 2048) / 4096 : Nat) : Int))) ∧
      ((convert p code).2 = true ↔
        (convert p code).1 ≠ p.offset + (((code * p.gain + 2048) / 4096 : Nat) : Int)) ∧
      -32768 ≤ (convert p code).1 ∧ (convert p code).1 ≤ 32767) ∧
  (∀ (en : ScanEntry) (x : Eval) (v : Int),
    (x.state = .normal → (x.judge en v).state = .low → v < en.lset ∧ en.n ≤ x.low + 1) ∧
    (x.state = .normal → en.lset ≤ v → v ≤ en.hset → (x.judge en v).state = .normal ∧ (x.judge en v).low = 0 ∧
      (x.judge en v).high = 0) ∧
    (x.state = .normal → v < en.lset →
      (x.low + 1 < en.n → x.judge en v = { x with low := x.low + 1, high := 0 }) ∧
      (en.n ≤ x.low + 1 → x.judge en v = { x with state := .low, low := 0, high := 0 })) ∧
    (x.state = .normal → en.lset ≤ v → en.hset < v →
      (x.high + 1 < en.n → x.judge en v = { x with high := x.high + 1, low := 0 }) ∧
      (en.n ≤ x.high + 1 → x.judge en v = { x with state := .high, low := 0, high := 0 })) ∧
    (x.state = .low →
      (en.lclr ≤ v → x.clear + 1 < en.n → x.judge en v = { x with clear := x.clear + 1 }) ∧
      (en.lclr ≤ v → en.n ≤ x.clear + 1 → x.judge en v = { x with state := .normal, clear := 0 }) ∧
      (v < en.lclr → x.judge en v = { x with clear := 0 })) ∧
    (x.state = .high →
      (v ≤ en.hclr → x.clear + 1 < en.n → x.judge en v = { x with clear := x.clear + 1 }) ∧
      (v ≤ en.hclr → en.n ≤ x.clear + 1 → x.judge en v = { x with state := .normal, clear := 0 }) ∧
      (en.hclr < v → x.judge en v = { x with clear := 0 })) ∧
    (x.state = .low → (x.judge en v).state ≠ .low → (x.judge en v).state = .normal ∧ en.lclr ≤ v ∧ en.n ≤ x.clear + 1) ∧
    (x.state = .high → (x.judge en v).state ≠ .high → (x.judge en v).state = .normal ∧ v ≤ en.hclr ∧ en.n ≤ x.clear + 1)) ∧
  (∀ (en : ScanEntry) (vs : List Int), vs.length ≤ en.n →
    let after := vs.foldl (fun x v => x.judge en v) Eval.normal
    (vs.length < en.n → after.state = .normal) ∧
    (0 < en.n → vs.length = en.n → en.lset ≤ en.hset → (∀ v ∈ vs, en.hset < v) → after.state = .high) ∧
    (0 < en.n → vs.length = en.n → (∀ v ∈ vs, v < en.lset) → after.state = .low))

/-! ### Billing (chapter 7) -/

/-- A close-out is refused outside RUNNING, while a boundary is outstanding, and for an empty period; an accepted one
makes the CLOSE boundary outstanding at the current minute, holds the CLOSE registration of the next period and asks for
the anchor burst, whose words are the period number raised by one, the close minute, the length of the period closed and
the boundary with cursor 0. The end of that burst puts the registration at the tail of the Notice Queue or, the queue
full, lets it wait. The registration handled, the new period, or the new epoch with its rates, is in force and the sweep
starts from record 0; that its first step comes before the next queue entry is the model's reading (DEDUCED, assumption
26). With one record, which is read for it, a sweep that passes it over ends with that step. At Ns the sweep ends: the
boundary is NONE, its minute and number and the cursor kept (DEDUCED, assumption 25), or, an epoch HELD, the EPOCH
boundary at the current minute with the ask answered, one burst writes it, and for a CLOSE boundary CLOSE-OUT DONE is
submitted with the number of the period closed. -/
def Obligations.CloseOutsAndRegistrations : Prop :=
  ((∀ (w : Word) (s : State), s.first .closeOut w →
     (s.run.part = .idle ∨ s.run.part = .halting ∨ s.run.part = .halted →
       exec (.closeOut w) s = .next { s.popped with bill := { s.bill with result := .notRunning } }) ∧
     (s.run.part = .starting → exec (.closeOut w) s = .next { s.popped with bill := { s.bill with result := .busy } }) ∧
     (s.run.part = .running →
       (s.bill.boundary.kind ≠ .none →
         exec (.closeOut w) s = .next { s.popped with bill := { s.bill with result := .sweepBusy } }) ∧
       (s.bill.boundary.kind = .none → s.time.minute ≤ s.bill.periodStart →
         exec (.closeOut w) s = .next { s.popped with bill := { s.bill with result := .emptyPeriod } }) ∧
       (s.bill.boundary.kind = .none → s.bill.periodStart < s.time.minute →
         let number := (s.bill.period + 1) % 65536
         ∃ t, exec (.closeOut w) s = .next t ∧ t.bill = { s.bill with
             boundary := { kind := .close, minute := s.time.minute, number := number }, cursor := 0, result := .accepted
             closing := some (.closeReg s.time.minute number) } ∧
           t.path.line .billing = s.path.line .billing ++ [.closeAnchor] ∧
           t.burstWords .closeAnchor = (Config.periodAddr,
             [word number, word s.time.minute, word (s.time.minute - s.bill.periodStart), word BoundaryKind.close.code,
              word s.time.minute, word number, word 0]) ∧ t.order = s.order ∧ t.lineUp = s.lineUp ∧ SameMemory s t))) ∧
   (∀ (s : State) (q : QEntry) (n : Nat) (ws : List Word), s.quiet → s.bill.closing = some q →
     s.path.port = .burst .billing .closeAnchor n ws false → ∃ t, exec .closeRegistrationQueued s = .next t ∧
       (s.bill.queue.length < Config.noticeDepth →
         t.bill = { s.bill with queue := s.bill.queue ++ [q], closing := none }) ∧
       (Config.noticeDepth ≤ s.bill.queue.length → t.bill = { s.bill with regWait := some q, closing := none }) ∧
       t.mem = memWriteWords s.mem n ws ∧ t.path.port = .free ∧ t.order = s.order ∧ t.lineUp = s.lineUp) ∧
   (∀ (s : State) (minute number : Nat) (rest : List QEntry), s.entryReady = true → s.map.ns ≠ 1 →
     (s.bill.queue = .closeReg minute number :: rest → exec .closeRegistration s = .next { s with bill := { s.bill with
       queue := rest, period := number, periodStart := minute, prevLen := minute - s.bill.periodStart, cursor := 0
       sweeping := true, owes := true } }) ∧
     (s.bill.queue = .epochReg minute number :: rest → exec .epochRegistration s = .next { s with bill := { s.bill with
       queue := rest, epoch := number, epochMin := minute, prev := s.bill.cur, cur := s.active.rates, cursor := 0
       sweeping := true, owes := true } })) ∧
   (∀ (s : State) (c : Instr) (minute number : Nat) (q : QEntry) (rest : List QEntry) (b : Billing), s.entryReady = true →
     s.map.ns = 1 → s.bill.queue = q :: rest → s.hasRead .billing (s.stepReads 0) = true →
     (c = .closeRegistration ∧ q = .closeReg minute number ∧ b = { s.bill with
         queue := rest, period := number, periodStart := minute, prevLen := minute - s.bill.periodStart, cursor := 0
         sweeping := true, owes := true } ∨
       c = .epochRegistration ∧ q = .epochReg minute number ∧ b = { s.bill with
         queue := rest, epoch := number, epochMin := minute, prev := s.bill.cur, cur := s.active.rates, cursor := 0
         sweeping := true, owes := true }) →
     let v := s.view .billing
     ((v.subRec 0).enrolled = true → b.behind (v.billRec 0) ≠ .current →
       exec c s = .next { s.tookRead .billing with bill := b }) ∧
     ((v.subRec 0).enrolled = false ∨ b.behind (v.billRec 0) = .current → s.run.part ≠ .idle →
       s.log.intake.length < Config.intakeDepth →
       ∃ t, exec c s = .next t ∧ SameMemory s t ∧
         t.path.line .billing = s.path.line .billing ++ [.cursor, .boundary false] ∧
         (s.lineUp.epoch ≠ .held → t.lineUp = s.lineUp ∧ t.bill = { b with
           cursor := 1, sweeping := false, owes := false, boundary := { s.bill.boundary with kind := .none } }) ∧
         (s.lineUp.epoch = .held → t.lineUp = { s.lineUp with ask := .answered s.time.minute } ∧ t.bill = { b with
           cursor := 0, sweeping := false, owes := false
           boundary := { kind := .epoch, minute := s.time.minute, number := (b.epoch + 1) % 2 ^ 32 } }) ∧
         t.log.intake = s.log.intake ++ (if s.bill.boundary.kind = .close then
           [AlarmEntry.mk .closeOutDone .info .none s.time.minute (word ((b.period + 65535) % 65536))] else [])))) ∧
  (∀ s : State, s.sweepReady = true → s.map.ns ≤ s.bill.cursor → ∃ t, exec .sweepStep s = .next t ∧
     t.bill.sweeping = false ∧ t.bill.owes = false ∧ t.bill.queue = s.bill.queue ∧ t.bill.period = s.bill.period ∧ t.bill.periodStart = s.bill.periodStart ∧
     t.path.line .billing = s.path.line .billing ++ [.boundary false] ∧ SameMemory s t ∧
     (s.lineUp.epoch ≠ .held → t.bill.boundary = { s.bill.boundary with kind := .none } ∧ t.bill.cursor = s.bill.cursor ∧
       t.lineUp = s.lineUp) ∧
     (s.lineUp.epoch = .held →
       t.bill.boundary = { kind := .epoch, minute := s.time.minute, number := (s.bill.epoch + 1) % 2 ^ 32 } ∧
       t.bill.cursor = 0 ∧ t.lineUp = { s.lineUp with ask := .answered s.time.minute }) ∧
     (s.bill.boundary.kind = .close → s.run.part ≠ .idle → s.log.intake.length < Config.intakeDepth →
       t.log.intake = s.log.intake ++
         [AlarmEntry.mk .closeOutDone .info .none s.time.minute (word ((s.bill.period + 65535) % 65536))]) ∧
     (s.bill.boundary.kind ≠ .close → t.log.intake = s.log.intake))

/-- AWAIT SERVICE takes a record in OFF to AWAITING, START SERVICE one in AWAITING to SERVICE, and OUTAGE BEGIN one in
SERVICE to OUTAGE with the since minute after the accrual as its began minute; in every other state the record is
accrued and changes nothing more. In SERVICE the minutes from the since minute on go to A, in OUTAGE to O. The record is
as its read burst found it (assumption 7). -/
def Obligations.ServiceNotices : Prop :=
  (∀ (s : State) (sub minute : Nat) (kind : NoticeKind) (rest : List QEntry), s.entryReady = true →
    s.bill.queue = .notice sub kind minute :: rest →
    s.hasRead .billing (s.entryReads (.notice sub kind minute)) = true →
    let r := (s.bill.catchUp s.time.minute ((s.view .billing).billRec sub)).accrue s.time.minute s.bill.cur minute
    let wrote (c : Instr) (x : BillRec) : Prop :=
      ∃ t, exec c s = .next t ∧ t.path.line .billing = s.path.line .billing ++ [.bill sub x.words] ∧ SameMemory s t
    (kind = .awaitService → (r.state = .off → wrote .awaitService { r with state := .awaiting }) ∧
      (r.state ≠ .off → wrote .awaitService r)) ∧
    (kind = .startService → (r.state = .awaiting → wrote .startService { r with state := .service }) ∧
      (r.state ≠ .awaiting → wrote .startService r)) ∧
    (∀ o, kind = .outageBegin o →
      (r.state = .service → wrote .outageBegin { r with state := .outage, began := r.since }) ∧
      (r.state ≠ .service → wrote .outageBegin r))) ∧
  (∀ (now t : Nat) (rates : Vector Nat 16) (r : BillRec), r.since ≤ now →
    (r.accrue now rates t).since = max r.since t ∧
    (r.state = .service → (r.accrue now rates t).a = min (2 ^ 48 - 1) (r.a + (t - r.since) * rateSum rates r.tiers) ∧
      (r.accrue now rates t).o = r.o) ∧
    (r.state = .outage → (r.accrue now rates t).o = min (2 ^ 48 - 1) (r.o + (t - r.since) * rateSum rates r.tiers) ∧
      (r.accrue now rates t).a = r.a))

/-- The record at the head is brought across the boundary in force, accrued to the notice's minute, changed by the
notice's own rule and asked to be written whole, and the entry stays at the head until its hand-offs are done: STOP
SERVICE, MOVE, RETIER, OUTAGE END, PPV CHARGE and PPV SETTLE. The burst written, the hand-offs follow: of a resolved
outage the overlap reports, each answered before the next, of a settle its answer, of a record brought across an epoch
the refresh request; then the entry goes. ENROL INIT writes the record afresh, neither brought across nor accrued. A
resolution reports, in slot order, the event id of each OPEN slot and the minutes that lie both in the outage and in the
event's window, where there are any; the window and the carrier-loss count come from the retained list first, then from
the EVENT slot of the active copy, else there is no window. PPV CHARGE and a refund add the price, saturating at 2³² − 1
with the flag. PPV SETTLE refunds the slot's price with the drop mark, where the answer has no window, and where twice
the larger of the overlap and the loss is at least the window's length, the overlap being the slot's and, of a record in
OUTAGE, that of the outage so far; without a slot it changes nothing. Of two used slots of one event id the
lowest-numbered gives the price and the overlap (DESIGN CHOICE, assumption 47), and an outage that begins after its end
has a free value for its duration (assumption 46). A notice is handled at the end of the last of its read bursts (DESIGN
CHOICE, assumption 7). -/
def Obligations.NoticesHandled : Prop :=
  (∀ (s : State) (sub minute : Nat) (kind : NoticeKind) (rest : List QEntry), s.entryReady = true →
     s.bill.queue = .notice sub kind minute :: rest →
     s.hasRead .billing (s.entryReads (.notice sub kind minute)) = true →
     let r := (s.bill.catchUp s.time.minute ((s.view .billing).billRec sub)).accrue s.time.minute s.bill.cur minute
     let outage := r.state = .outage
     let slots := (s.view .billing).subRec sub
     let overlaps := if outage then s.overlapsOf slots r else []
     let refresh : List Task :=
       if s.bill.behind ((s.view .billing).billRec sub) = .oneEpoch then [.refreshOut sub] else []
     let wrote (c : Instr) (x : BillRec) (os : List (Nat × Nat)) (rest : List Task) : Prop :=
       ∃ t, exec c s = .next t ∧ t.path.line .billing = s.path.line .billing ++ [.bill sub x.words] ∧
         t.bill.queue = s.bill.queue ∧ t.order = s.order ∧ t.dir = s.dir ∧ SameMemory s t ∧
         t.bill.work = .awaitWritten .billing :: os.flatMap (fun y => [.overlapOut sub y.1 y.2, .awaitAnswer]) ++ rest ++
           [.noticeDone]
     (∀ tiers, kind = .enrolInit tiers →
       wrote .enrolInit (s.bill.enrolInit s.time.minute minute tiers ((s.view .billing).billRec sub)) [] []) ∧
     (kind = .stopService → wrote .stopService
       (if outage then { r.resolve s.cfg.tc with state := .off } else { r with state := .off }) overlaps refresh) ∧
     (kind = .move → wrote .moveNotice (if outage then { r.resolve s.cfg.tc with state := .awaiting }
       else if r.state = .service then { r with state := .awaiting } else r) overlaps refresh) ∧
     (∀ tiers, kind = .retier tiers → wrote .retierNotice { r with tiers := tiers } [] refresh) ∧
     (∀ o, kind = .outageEnd o → wrote .outageEnd
       (if outage then { r.resolve s.cfg.tc with state := .service } else r) overlaps refresh) ∧
     (∀ price, kind = .ppvCharge price → wrote .ppvCharge (r.ppvCharge price) [] refresh) ∧
     (∀ event drop, kind = .ppvSettle event drop →
       (slots.slotOf event = none → wrote .ppvSettle r [] (.settleOut sub event :: refresh)) ∧
       (∀ k : Fin 4, slots.slotOf event = some k → wrote .ppvSettle
         (if refundDue drop (slots.slots[k].overlap +
              if outage then overlapOf r.began r.since (s.lossAnswer event).2 else 0) (s.lossAnswer event)
          then r.ppvRefund slots.slots[k].price else r) [] (.settleOut sub event :: refresh)))) ∧
  (∀ (s : State) (sub event n : Nat),
     (∀ t, t = (s.doTask (.overlapOut sub event n)).1 → t.bill.answer = false ∧
       t.order.billing = s.order.billing ++ [.overlap sub event n]) ∧
     (s.doTask (.settleOut sub event)).1.order.billing = s.order.billing ++ [.settle sub event] ∧
     (s.doTask (.refreshOut sub)).1.order.billing = s.order.billing ++ [.refresh sub] ∧
     (s.doTask .noticeDone).1.bill.queue = s.bill.queue.tail) ∧
  (∀ (s : State) (x : SubRec) (r : BillRec),
     let share (k : Fin 4) : Nat := overlapOf r.began r.since (s.lossAnswer x.slots[k].event).2
     ∃ ks : List (Fin 4), ks.Pairwise (· < ·) ∧ s.overlapsOf x r = ks.map (fun k => (x.slots[k].event, share k)) ∧
       ∀ k : Fin 4, k ∈ ks ↔ x.slots[k].used = true ∧ x.slots[k].state = .opened ∧ 0 < share k) ∧
  (∀ began since w0 w1 : Nat, overlapOf began since none = 0 ∧
     overlapOf began since (some (w0, w1)) =
       ((List.range since).filter fun m => decide (began ≤ m ∧ w0 ≤ m ∧ m < w1)).length) ∧
  (∀ (s : State) (id : Nat),
     (∀ before x after, s.scan.retained = before ++ x :: after → (∀ y ∈ before, y.event ≠ id) → x.event = id →
       s.lossAnswer id = (x.loss, some (x.start, x.stop))) ∧
     ((∀ y ∈ s.scan.retained, y.event ≠ id) →
       (∀ k : SlotId, s.active.slots[k].isEvent = true → s.active.slots[k].event = id →
         (∀ j : SlotId, j < k → ¬ (s.active.slots[j].isEvent = true ∧ s.active.slots[j].event = id)) →
         s.lossAnswer id = (s.scan.slots[k].loss, some (s.active.slots[k].start, s.active.slots[k].stop))) ∧
       ((∀ k : SlotId, ¬ (s.active.slots[k].isEvent = true ∧ s.active.slots[k].event = id)) →
         s.lossAnswer id = (0, none)))) ∧
  (∀ (drop : Bool) (u c w0 w1 : Nat), refundDue drop u (c, none) = true ∧
     (refundDue drop u (c, some (w0, w1)) = true ↔ drop = true ∨ w1 - w0 ≤ 2 * u ∨ w1 - w0 ≤ 2 * c)) ∧
  (∀ (price : Nat) (r : BillRec),
     r.ppvCharge price = { r with
       charged := min (2 ^ 32 - 1) (r.charged + price)
       saturated := r.saturated || decide (2 ^ 32 - 1 < r.charged + price) } ∧
     r.ppvRefund price = { r with
       refunded := min (2 ^ 32 - 1) (r.refunded + price)
       saturated := r.saturated || decide (2 ^ 32 - 1 < r.refunded + price) }) ∧
  (∀ (b : Billing) (now minute : Nat) (tiers : BitVec 16) (r : BillRec),
     let x := b.enrolInit now minute tiers r
     x.state = .off ∧ x.saturated = false ∧ x.a = 0 ∧ x.o = 0 ∧ x.k = 0 ∧ x.charged = 0 ∧ x.refunded = 0 ∧
       x.tiers = tiers ∧ x.epoch = b.epoch % 256 ∧ x.period = b.period ∧ x.began = 0 ∧ x.stCharge = 0 ∧
       x.stCredit = 0 ∧ x.stNet = 0 ∧ x.stMinutes = 0 ∧
       (r.since ≤ now → x.since = max minute r.since) ∧ (now < r.since → x.since = minute))

/-- A sweep step at a record that is not enrolled, or that is current, moves the cursor on and writes it; one that is
behind is asked to be written as it stands across the boundary before the cursor moves, with a refresh request behind
the burst for one that was an epoch behind. A record is current with both its numbers in force; with its period one
below and the epoch equal it is closed; with its epoch one below in the low 8 bits and the period equal it is accrued to
the epoch minute at the previous rates and takes the low 8 bits of the epoch number; any other one is stale, and takes
both numbers and the latest of its own since minute, the period start and the epoch minute. A sweep makes its steps in
RUNNING while the queue is empty, after an entry handled, and for a step begun, or presented before the entry was
handed; in HALTING it makes the step whose reads have begun (DESIGN CHOICE, assumption 7) and pauses, and in HALTED
none. The work item that waits for an overlap answer goes on when the answer has come; the entry handled, a step of the
sweep that is being made is owed, and a step of the reconciliation pass too, which is the model's choice (DESIGN CHOICE,
assumption 65). -/
def Obligations.SweepsAndAnswers : Prop :=
  (∀ s : State, s.sweepReady = true → s.hasRead .billing s.sweepReads = true → s.bill.cursor + 1 < s.map.ns →
    (((s.view .billing).subRec s.bill.cursor).enrolled = false ∨ s.bill.behind ((s.view .billing).billRec s.bill.cursor) = .current →
      ∃ t, exec .sweepStep s = .next t ∧ t.bill = { s.bill with cursor := s.bill.cursor + 1, owes := false } ∧
        t.path.line .billing = s.path.line .billing ++ [.cursor] ∧ SameMemory s t) ∧
    (((s.view .billing).subRec s.bill.cursor).enrolled = true → s.bill.behind ((s.view .billing).billRec s.bill.cursor) ≠ .current →
      ∃ t, exec .sweepStep s = .next t ∧ t.bill.cursor = s.bill.cursor ∧
        t.path.line .billing = s.path.line .billing ++
          [.bill s.bill.cursor (s.bill.catchUp s.time.minute ((s.view .billing).billRec s.bill.cursor)).words] ∧
        t.bill.work = .awaitWritten .billing ::
          (if s.bill.behind ((s.view .billing).billRec s.bill.cursor) = .oneEpoch then [.refreshOut s.bill.cursor] else []) ++
            [.sweepAdvance, .sweepEnd] ∧ t.order = s.order ∧ SameMemory s t)) ∧
  (∀ (b : Billing) (now : Nat) (r : BillRec),
     let low := b.epoch % 256
     let own := min r.since now
     (r.period = b.period → r.epoch = low → b.behind r = .current) ∧
     ((r.period + 1) % 65536 = b.period → r.epoch = low → b.behind r = .onePeriod) ∧
     ((r.epoch + 1) % 256 = low → r.period = b.period → b.behind r = .oneEpoch) ∧
     (¬ (r.period = b.period ∧ r.epoch = low) → ¬ ((r.period + 1) % 65536 = b.period ∧ r.epoch = low) →
       ¬ ((r.epoch + 1) % 256 = low ∧ r.period = b.period) → b.behind r = .stale) ∧
     (b.behind r = .current → b.catchUp now r = r) ∧
     (b.behind r = .oneEpoch → b.catchUp now r = { r.accrue now b.prev b.epochMin with epoch := low }) ∧
     (b.behind r = .stale → b.catchUp now r = { r with
       period := b.period, epoch := low, since := max (max own b.periodStart) b.epochMin })) ∧
  (∀ s : State, (s.billFree = true ↔ s.bill.loaded = true ∧ s.bill.work = []) ∧
     let step := s.readFlags s.bill.cursor
     (s.run.part = .running → (s.sweepReady = true ↔ s.billFree = true ∧ s.bill.sweeping = true ∧
       (s.bill.queue = [] ∨ s.bill.owes = true ∨ s.begun .billing [step] = true ∨
         ∃ n, s.path.turns[Requester.billing.idx] = some (n, step)))) ∧
     (s.run.part = .halting → (s.sweepReady = true ↔ s.billFree = true ∧ s.bill.sweeping = true ∧
       s.begun .billing [step] = true)) ∧
     (s.run.part = .halted → s.sweepReady = false)) ∧
  (∀ s : State, s.bill.answer = true → s.bill.work = [.awaitAnswer, .noticeDone] →
    exec .overlapAnswer s = .next { s with bill := { s.bill with
      answer := false, work := [], queue := s.bill.queue.tail
      owes := s.bill.sweeping || (match s.run.phase with | .recon _ => true | _ => false) } })

/-- A record accrues the rate sum of its tier set times the minutes, to the billable account in SERVICE and the pending
one in OUTAGE, saturating at 48 bits with the flag; its since minute never moves back. A resolved outage credits the
pending cent-minutes when it lasted at least Tc minutes and bills them otherwise, saturating with the flag. Of an outage
whose began minute lies above the since minute the duration is a free value (assumption 46): its pending cent-minutes
are credited or billed. -/
def Obligations.AccrualAndResolution : Prop :=
  (∀ (now t : Nat) (rates : Vector Nat 16) (r : BillRec), r.since ≤ now →
     (r.accrue now rates t).since = max r.since t ∧ (r.accrue now rates t).state = r.state ∧
     (r.state = .service → (r.accrue now rates t).a = min (2 ^ 48 - 1) (r.a + (t - r.since) * rateSum rates r.tiers) ∧
       (r.accrue now rates t).o = r.o ∧
       ((r.accrue now rates t).saturated = true ↔
         r.saturated = true ∨ 2 ^ 48 - 1 < r.a + (t - r.since) * rateSum rates r.tiers)) ∧
     (r.state = .outage → (r.accrue now rates t).o = min (2 ^ 48 - 1) (r.o + (t - r.since) * rateSum rates r.tiers) ∧
       (r.accrue now rates t).a = r.a) ∧
     (r.state = .off ∨ r.state = .awaiting → (r.accrue now rates t).a = r.a ∧ (r.accrue now rates t).o = r.o) ∧
     (r.accrue now rates t).k = r.k) ∧
  (∀ (tc : Nat) (r : BillRec),
     (r.resolve tc).o = 0 ∧ (r.resolve tc).began = 0 ∧ (r.resolve tc).since = r.since ∧
     let credited := (r.resolve tc).k = min (2 ^ 48 - 1) (r.k + r.o) ∧ (r.resolve tc).a = r.a ∧
       (r.resolve tc).saturated = (r.saturated || decide (2 ^ 48 - 1 < r.k + r.o))
     let billed := (r.resolve tc).a = min (2 ^ 48 - 1) (r.a + r.o) ∧ (r.resolve tc).k = r.k ∧
       (r.resolve tc).saturated = (r.saturated || decide (2 ^ 48 - 1 < r.a + r.o))
     (r.began ≤ r.since → tc ≤ r.since - r.began → credited) ∧
     (r.began ≤ r.since → r.since - r.began < tc → billed) ∧ (r.since < r.began → credited ∨ billed))

/-- The close of a record accrues it to the close minute and writes its statement: charge and credit are the accounts
divided by the period length and rounded half up, saturating, the PPV net is clamped, the minutes are the period length;
the counters are cleared, the pending account and the began minute are kept, and the period number becomes the one in
force. A period length of 0 gives amounts of 0 with the flag. A record one period behind is closed with the numbers in
force. -/
def Obligations.Statements : Prop :=
  (∀ (now m p period : Nat) (rates : Vector Nat 16) (r : BillRec),
    let acc := r.accrue now rates m
    let x := r.close now rates m p period
    let net : Int := (acc.charged : Int) - (acc.refunded : Int)
    (r.since ≤ now → m < r.since → r.a < 2 ^ 48 → r.o < 2 ^ 48 → acc = r) ∧
    (0 < p → x.stCharge = min (2 ^ 32 - 1) ((acc.a + p / 2) / p) ∧ x.stCredit = min (2 ^ 32 - 1) ((acc.k + p / 2) / p) ∧
      (x.saturated = true ↔ acc.saturated = true ∨ 2 ^ 32 - 1 < (acc.a + p / 2) / p ∨ 2 ^ 32 - 1 < (acc.k + p / 2) / p ∨
        net < -2147483648 ∨ 2147483647 < net) ∧
      (x.saturated = false → x.stCharge * p ≤ acc.a + p / 2 ∧ acc.a + p / 2 < (x.stCharge + 1) * p)) ∧
    (p = 0 → x.stCharge = 0 ∧ x.stCredit = 0 ∧ x.saturated = true) ∧
    x.stNet = max (-2147483648) (min 2147483647 net) ∧ x.stMinutes = p ∧ x.a = 0 ∧ x.k = 0 ∧ x.charged = 0 ∧
    x.refunded = 0 ∧ x.o = acc.o ∧ x.began = acc.began ∧ x.period = period ∧ x.state = acc.state ∧ x.since = acc.since ∧
    x.tiers = acc.tiers ∧ x.epoch = acc.epoch) ∧
  (∀ (b : Billing) (now : Nat) (r : BillRec), b.behind r = .onePeriod →
    b.catchUp now r = r.close now b.cur b.periodStart b.prevLen b.period)
end

