-- ==== Sys2Proof/Laws/Frames.lean ====
section
/-! SUPPORT. What no shared operation of the blocks touches: the bytes of memory, the queue of commands, and who holds the
memory port. One lemma for each operation. -/

namespace Sys2Proof.Machine


/-- What each step of a fold keeps, the fold keeps. -/
theorem foldl_keeps {α β γ : Type} (π : α → γ) (g : α → β → α) (h : ∀ a b, π (g a b) = π a) (l : List β) (a : α) :
    π (l.foldl g a) = π a := by
  induction l generalizing a with
  | nil => rfl
  | cons b l ih => rw [List.foldl_cons, ih, h]

/-- The same of the three things this file is about. -/
theorem foldl_frame {β : Type} (g : State → β → State)
    (h : ∀ s b, (g s b).mem = s.mem ∧ (g s b).pending = s.pending ∧ (g s b).path.port = s.path.port) (l : List β)
    (s : State) :
    (l.foldl g s).mem = s.mem ∧ (l.foldl g s).pending = s.pending ∧ (l.foldl g s).path.port = s.path.port :=
  ⟨foldl_keeps (·.mem) g (fun s b => (h s b).1) l s, foldl_keeps (·.pending) g (fun s b => (h s b).2.1) l s,
    foldl_keeps (·.path.port) g (fun s b => (h s b).2.2) l s⟩

@[simp] theorem MemPath.setLine_port (p : MemPath) (r : Requester) (l : List Burst) : (p.setLine r l).port = p.port := rfl

@[simp] theorem State.keepTurn_frame (s : State) (r : Requester) :
    (s.keepTurn r).mem = s.mem ∧ (s.keepTurn r).pending = s.pending ∧ (s.keepTurn r).path.port = s.path.port := ⟨rfl, rfl, rfl⟩

@[simp] theorem State.keepOrderTurn_frame (s : State) (b : Blk) :
    (s.keepOrderTurn b).mem = s.mem ∧ (s.keepOrderTurn b).pending = s.pending ∧
      (s.keepOrderTurn b).path.port = s.path.port := by
  unfold State.keepOrderTurn
  split <;> simp

@[simp] theorem State.handArrival_frame (s : State) (a : BillArrival) :
    (s.handArrival a).mem = s.mem ∧ (s.handArrival a).pending = s.pending ∧
      (s.handArrival a).path.port = s.path.port := ⟨rfl, rfl, rfl⟩

@[simp] theorem State.ask_frame (s : State) (r : Requester) (b : Burst) :
    (s.ask r b).mem = s.mem ∧ (s.ask r b).pending = s.pending ∧ (s.ask r b).path.port = s.path.port := by
  unfold State.ask
  split <;> simp

@[simp] theorem State.asks_frame (s : State) (r : Requester) (bs : List Burst) :
    (s.asks r bs).mem = s.mem ∧ (s.asks r bs).pending = s.pending ∧ (s.asks r bs).path.port = s.path.port :=
  foldl_frame _ (fun s b => by simp) bs s


@[simp] theorem State.freeRead_frame (s : State) (r : Requester) :
    (s.freeRead r).mem = s.mem ∧ (s.freeRead r).pending = s.pending := by
  unfold State.freeRead
  (repeat' split) <;> simp

@[simp] theorem State.noTurn_frame (s : State) (r : Requester) :
    (s.noTurn r).mem = s.mem ∧ (s.noTurn r).pending = s.pending ∧ (s.noTurn r).path.port = s.path.port := ⟨rfl, rfl, rfl⟩

@[simp] theorem State.stepMade_frame (s : State) (r : Requester) (plan : List ReadReq) :
    (s.stepMade r plan).mem = s.mem ∧ (s.stepMade r plan).pending = s.pending ∧
      (s.stepMade r plan).path.port = s.path.port := by
  unfold State.stepMade
  split <;> simp

@[simp] theorem State.tookRead_frame (s : State) (r : Requester) :
    (s.tookRead r).mem = s.mem ∧ (s.tookRead r).pending = s.pending := by
  unfold State.tookRead
  exact State.freeRead_frame s r

@[simp] theorem State.tookReads_frame (s : State) (r : Requester) (plan : List ReadReq) :
    (s.tookReads r plan).mem = s.mem ∧ (s.tookReads r plan).pending = s.pending := by
  unfold State.tookReads
  split <;> simp

@[simp] theorem State.orderStep_frame (s : State) (plan : List ReadReq) :
    (s.orderStep plan).mem = s.mem ∧ (s.orderStep plan).pending = s.pending := by
  unfold State.orderStep
  split <;> simp

@[simp] theorem State.view_frame (s : State) (r : Requester) :
    (s.view r).pending = s.pending ∧ (s.view r).path = s.path := ⟨rfl, rfl⟩

@[simp] theorem State.setEng_frame (s : State) (f : Feeder) (e : Engine) :
    (State.setEng s f e).mem = s.mem ∧ (State.setEng s f e).pending = s.pending ∧
      (State.setEng s f e).path.port = s.path.port := by
  exact ⟨rfl, rfl, rfl⟩

@[simp] theorem State.setEntry_frame (s : State) (e : EntryId) (x : Entry) :
    (State.setEntry s e x).mem = s.mem ∧ (State.setEntry s e x).pending = s.pending ∧
      (State.setEntry s e x).path.port = s.path.port := by
  exact ⟨rfl, rfl, rfl⟩

@[simp] theorem State.setRoll_frame (s : State) (f : Feeder) (r : RollCall) :
    (State.setRoll s f r).mem = s.mem ∧ (State.setRoll s f r).pending = s.pending ∧
      (State.setRoll s f r).path.port = s.path.port := by
  exact ⟨rfl, rfl, rfl⟩

@[simp] theorem State.setPacing_frame (s : State) (f : Feeder) (t : Timer) :
    (State.setPacing s f t).mem = s.mem ∧ (State.setPacing s f t).pending = s.pending ∧
      (State.setPacing s f t).path.port = s.path.port := by
  exact ⟨rfl, rfl, rfl⟩

@[simp] theorem State.setBlockedCheck_frame (s : State) (f : Feeder) (t : Timer) :
    (State.setBlockedCheck s f t).mem = s.mem ∧ (State.setBlockedCheck s f t).pending = s.pending ∧
      (State.setBlockedCheck s f t).path.port = s.path.port := by
  exact ⟨rfl, rfl, rfl⟩

@[simp] theorem State.setWork_frame (s : State) (b : Blk) (ts : List Task) :
    (State.setWork s b ts).mem = s.mem ∧ (State.setWork s b ts).pending = s.pending ∧
      (State.setWork s b ts).path.port = s.path.port := by
  unfold State.setWork
  (repeat' split) <;> simp

@[simp] theorem State.evalAttention_frame (s : State) :
    (State.evalAttention s).mem = s.mem ∧ (State.evalAttention s).pending = s.pending ∧
      (State.evalAttention s).path.port = s.path.port := by
  exact ⟨rfl, rfl, rfl⟩

@[simp] theorem State.evalContact_frame (s : State) :
    (State.evalContact s).mem = s.mem ∧ (State.evalContact s).pending = s.pending ∧
      (State.evalContact s).path.port = s.path.port := by
  exact ⟨rfl, rfl, rfl⟩

@[simp] theorem State.evalEscalation_frame (s : State) :
    (State.evalEscalation s).mem = s.mem ∧ (State.evalEscalation s).pending = s.pending ∧
      (State.evalEscalation s).path.port = s.path.port := by
  exact ⟨rfl, rfl, rfl⟩

@[simp] theorem State.evalLog_frame (s : State) :
    (State.evalLog s).mem = s.mem ∧ (State.evalLog s).pending = s.pending ∧
      (State.evalLog s).path.port = s.path.port := by
  exact ⟨rfl, rfl, rfl⟩

@[simp] theorem State.setTapPort_frame (s : State) (e : EntryId) (p : Port) (x : TapPort) :
    (State.setTapPort s e p x).mem = s.mem ∧ (State.setTapPort s e p x).pending = s.pending ∧
      (State.setTapPort s e p x).path.port = s.path.port := by
  exact ⟨rfl, rfl, rfl⟩

@[simp] theorem State.setWanted_frame (s : State) (e : EntryId) (p : Port) (w : PortState) :
    (State.setWanted s e p w).mem = s.mem ∧ (State.setWanted s e p w).pending = s.pending ∧
      (State.setWanted s e p w).path.port = s.path.port := by
  exact ⟨rfl, rfl, rfl⟩

@[simp] theorem State.makeClaim_frame (s : State) (e : EntryId) (p : Port) (sub : Nat) :
    (State.makeClaim s e p sub).mem = s.mem ∧ (State.makeClaim s e p sub).pending = s.pending ∧
      (State.makeClaim s e p sub).path.port = s.path.port := by
  exact ⟨rfl, rfl, rfl⟩

@[simp] theorem State.releaseClaim_frame (s : State) (e : EntryId) (p : Port) :
    (State.releaseClaim s e p).mem = s.mem ∧ (State.releaseClaim s e p).pending = s.pending ∧
      (State.releaseClaim s e p).path.port = s.path.port := by
  exact ⟨rfl, rfl, rfl⟩

@[simp] theorem State.markPort_frame (s : State) (e : EntryId) (p : Port) :
    (State.markPort s e p).mem = s.mem ∧ (State.markPort s e p).pending = s.pending ∧
      (State.markPort s e p).path.port = s.path.port := by
  exact ⟨rfl, rfl, rfl⟩

@[simp] theorem State.newCycle_frame (s : State) (f : Feeder) (count : Nat) :
    (State.newCycle s f count).mem = s.mem ∧ (State.newCycle s f count).pending = s.pending ∧
      (State.newCycle s f count).path.port = s.path.port := by
  exact ⟨rfl, rfl, rfl⟩

@[simp] theorem State.endCycle_frame (s : State) (f : Feeder) :
    (State.endCycle s f).mem = s.mem ∧ (State.endCycle s f).pending = s.pending ∧
      (State.endCycle s f).path.port = s.path.port := by
  exact ⟨rfl, rfl, rfl⟩

@[simp] theorem State.startRoll_frame (s : State) (f : Feeder) :
    (State.startRoll s f).mem = s.mem ∧ (State.startRoll s f).pending = s.pending ∧
      (State.startRoll s f).path.port = s.path.port := by
  exact ⟨rfl, rfl, rfl⟩

@[simp] theorem State.noteWord5_frame (s : State) (k : SlotId) :
    (State.noteWord5 s k).mem = s.mem ∧ (State.noteWord5 s k).pending = s.pending ∧
      (State.noteWord5 s k).path.port = s.path.port := by
  exact ⟨rfl, rfl, rfl⟩

@[simp] theorem State.takeBuyers_frame (s : State) :
    (State.takeBuyers s).mem = s.mem ∧ (State.takeBuyers s).pending = s.pending ∧
      (State.takeBuyers s).path.port = s.path.port := by
  unfold State.takeBuyers
  exact ⟨rfl, rfl, rfl⟩

@[simp] theorem State.scheduleCheck_frame (s : State) :
    (State.scheduleCheck s).1.mem = s.mem ∧ (State.scheduleCheck s).1.pending = s.pending ∧
      (State.scheduleCheck s).1.path.port = s.path.port := by
  unfold State.scheduleCheck
  dsimp only
  split <;> simp [foldl_frame State.noteWord5 (fun s k => by simp)]

@[simp] theorem State.computeWanted_frame (s : State) (sub : Nat) (wantOn : Bool) (tiers : BitVec 16) :
    (State.computeWanted s sub wantOn tiers).mem = s.mem ∧ (State.computeWanted s sub wantOn tiers).pending = s.pending ∧
      (State.computeWanted s sub wantOn tiers).path.port = s.path.port := by
  unfold State.computeWanted
  generalize s.claimOf sub = c
  rcases c with _ | ⟨e, p⟩ <;> simp

@[simp] theorem State.protect_frame (s : State) (active sealed : Option Bank) :
    (State.protect s active sealed).mem = s.mem ∧ (State.protect s active sealed).pending = s.pending ∧
      (State.protect s active sealed).path.port = s.path.port := by
  exact ⟨rfl, rfl, rfl⟩

@[simp] theorem State.countLoss_frame (s : State) :
    (State.countLoss s).mem = s.mem ∧ (State.countLoss s).pending = s.pending ∧
      (State.countLoss s).path.port = s.path.port := by
  unfold State.countLoss
  split
  · simp
  · exact foldl_frame _ (fun s x => by simp) _ s

@[simp] theorem State.storeCorr_frame (s : State) (w : CorrWork) :
    (State.storeCorr s w).mem = s.mem ∧ (State.storeCorr s w).pending = s.pending ∧
      (State.storeCorr s w).path.port = s.path.port := by
  exact ⟨rfl, rfl, rfl⟩

@[simp] theorem State.setLowSupply_frame (s : State) (f : Feeder) (n : Nat) :
    (State.setLowSupply s f n).mem = s.mem ∧ (State.setLowSupply s f n).pending = s.pending ∧
      (State.setLowSupply s f n).path.port = s.path.port := by
  exact ⟨rfl, rfl, rfl⟩

@[simp] theorem State.setEnumerating_frame (s : State) (f : Feeder) (b : Bool) :
    (State.setEnumerating s f b).mem = s.mem ∧ (State.setEnumerating s f b).pending = s.pending ∧
      (State.setEnumerating s f b).path.port = s.path.port := by
  exact ⟨rfl, rfl, rfl⟩

@[simp] theorem State.enqueue_frame (s : State) (i : Nat) :
    (State.enqueue s i).mem = s.mem ∧ (State.enqueue s i).pending = s.pending ∧
      (State.enqueue s i).path.port = s.path.port := by
  unfold State.enqueue
  (repeat' split) <;> simp

@[simp] theorem State.writeSub_frame (s : State) (i : Nat) (r : SubRec) :
    (State.writeSub s i r).mem = s.mem ∧ (State.writeSub s i r).pending = s.pending ∧
      (State.writeSub s i r).path.port = s.path.port := by
  exact ⟨rfl, rfl, rfl⟩

@[simp] theorem State.writeSubIfChanged_frame (s : State) (i : Nat) (r : SubRec) :
    (State.writeSubIfChanged s i r).mem = s.mem ∧ (State.writeSubIfChanged s i r).pending = s.pending ∧
      (State.writeSubIfChanged s i r).path.port = s.path.port := by
  unfold State.writeSubIfChanged
  (repeat' split) <;> simp

@[simp] theorem State.refuse_frame (s : State) (i : Nat) (r : SubRec) (res : OrderResult) :
    (State.refuse s i r res).mem = s.mem ∧ (State.refuse s i r res).pending = s.pending ∧
      (State.refuse s i r res).path.port = s.path.port := by
  exact ⟨rfl, rfl, rfl⟩

@[simp] theorem State.completeAtOnce_frame (s : State) (i : Nat) (r : SubRec) (res : OrderResult) :
    (State.completeAtOnce s i r res).mem = s.mem ∧ (State.completeAtOnce s i r res).pending = s.pending ∧
      (State.completeAtOnce s i r res).path.port = s.path.port := by
  exact ⟨rfl, rfl, rfl⟩

@[simp] theorem State.enterFlight_frame (s : State) (o : OrderItem) (r : SubRec) (e : EntryId) (p : Port) :
    (State.enterFlight s o r e p).mem = s.mem ∧ (State.enterFlight s o r e p).pending = s.pending ∧
      (State.enterFlight s o r e p).path.port = s.path.port := by
  unfold State.enterFlight
  (repeat' split) <;> simp

@[simp] theorem State.finishOrder_frame (s : State) (o : OrderItem) (r : SubRec) (mark may : Bool) :
    (State.finishOrder s o r mark may).mem = s.mem ∧ (State.finishOrder s o r mark may).pending = s.pending ∧
      (State.finishOrder s o r mark may).path.port = s.path.port := by
  unfold State.finishOrder
  generalize s.claimOf o.sub = c
  rcases c with _ | ⟨e, p⟩
  · simp
  · dsimp only
    (repeat' split) <;> simp

@[simp] theorem State.releaseOwn_frame (s : State) (i : Nat) :
    (State.releaseOwn s i).mem = s.mem ∧ (State.releaseOwn s i).pending = s.pending ∧
      (State.releaseOwn s i).path.port = s.path.port := by
  unfold State.releaseOwn
  generalize s.claimOf i = c
  rcases c with _ | ⟨e, p⟩ <;> simp

@[simp] theorem State.addIndex_frame (s : State) (x : IndexEntry) :
    (State.addIndex s x).mem = s.mem ∧ (State.addIndex s x).pending = s.pending ∧
      (State.addIndex s x).path.port = s.path.port := by
  exact ⟨rfl, rfl, rfl⟩

@[simp] theorem State.dropIndex_frame (s : State) (sub event : Nat) :
    (State.dropIndex s sub event).mem = s.mem ∧ (State.dropIndex s sub event).pending = s.pending ∧
      (State.dropIndex s sub event).path.port = s.path.port := by
  exact ⟨rfl, rfl, rfl⟩

@[simp] theorem State.setIndex_frame (s : State) (sub event : Nat) (old new : IndexState) :
    (State.setIndex s sub event old new).mem = s.mem ∧ (State.setIndex s sub event old new).pending = s.pending ∧
      (State.setIndex s sub event old new).path.port = s.path.port := by
  exact ⟨rfl, rfl, rfl⟩

@[simp] theorem State.applyConnect_frame (s : State) (o : OrderItem) (r : SubRec) :
    (State.applyConnect s o r).mem = s.mem ∧ (State.applyConnect s o r).pending = s.pending ∧
      (State.applyConnect s o r).path.port = s.path.port := by
  simp [State.applyConnect]
  split <;> simp

@[simp] theorem State.applyDisconnect_frame (s : State) (o : OrderItem) (r : SubRec) :
    (State.applyDisconnect s o r).mem = s.mem ∧ (State.applyDisconnect s o r).pending = s.pending ∧
      (State.applyDisconnect s o r).path.port = s.path.port := by
  simp [State.applyDisconnect]

@[simp] theorem State.applyRetier_frame (s : State) (o : OrderItem) (r : SubRec) :
    (State.applyRetier s o r).mem = s.mem ∧ (State.applyRetier s o r).pending = s.pending ∧
      (State.applyRetier s o r).path.port = s.path.port := by
  simp [State.applyRetier]

@[simp] theorem State.applyMove_frame (s : State) (o : OrderItem) (r : SubRec) :
    (State.applyMove s o r).mem = s.mem ∧ (State.applyMove s o r).pending = s.pending ∧
      (State.applyMove s o r).path.port = s.path.port := by
  unfold State.applyMove
  (repeat' split) <;> simp

@[simp] theorem State.applyBuy_frame (s : State) (o : OrderItem) (r : SubRec) :
    (State.applyBuy s o r).mem = s.mem ∧ (State.applyBuy s o r).pending = s.pending ∧
      (State.applyBuy s o r).path.port = s.path.port := by
  unfold State.applyBuy
  (repeat' split) <;> simp

@[simp] theorem State.applyCancel_frame (s : State) (o : OrderItem) (r : SubRec) :
    (State.applyCancel s o r).mem = s.mem ∧ (State.applyCancel s o r).pending = s.pending ∧
      (State.applyCancel s o r).path.port = s.path.port := by
  unfold State.applyCancel
  (repeat' split) <;> simp

@[simp] theorem State.orderEffect_frame (s : State) (o : OrderItem) :
    (State.orderEffect s o).mem = s.mem ∧ (State.orderEffect s o).pending = s.pending ∧
      (State.orderEffect s o).path.port = s.path.port := by
  unfold State.orderEffect
  (repeat' split) <;> simp

@[simp] theorem State.applyOrder_frame (s : State) (o : OrderItem) :
    (State.applyOrder s o).mem = s.mem ∧ (State.applyOrder s o).pending = s.pending ∧
      (State.applyOrder s o).path.port = s.path.port := by
  unfold State.applyOrder
  dsimp only
  (repeat' split) <;> simp

@[simp] theorem State.leaveFlight_frame (s : State) (x : InFlight) :
    (State.leaveFlight s x).mem = s.mem ∧ (State.leaveFlight s x).pending = s.pending ∧
      (State.leaveFlight s x).path.port = s.path.port := by
  unfold State.leaveFlight
  (repeat' split) <;> simp

@[simp] theorem State.completeFlight_frame (s : State) (x : InFlight) (res : OrderResult) (edit : SubRec → SubRec) :
    (State.completeFlight s x res edit).mem = s.mem ∧ (State.completeFlight s x res edit).pending = s.pending ∧
      (State.completeFlight s x res edit).path.port = s.path.port := by
  simp [State.completeFlight]

@[simp] theorem State.failFlights_frame (s : State) (pick : InFlight → Bool) :
    (State.failFlights s pick).mem = s.mem ∧ (State.failFlights s pick).pending = s.pending ∧
      (State.failFlights s pick).path.port = s.path.port := by
  unfold State.failFlights
  exact foldl_frame _ (fun s x => by simp) _ s

@[simp] theorem State.armFlights_frame (s : State) (cmd : TapCmd) (e : EntryId) (p : Port) (before : Nat) :
    (State.armFlights s cmd e p before).mem = s.mem ∧ (State.armFlights s cmd e p before).pending = s.pending ∧
      (State.armFlights s cmd e p before).path.port = s.path.port := by
  exact ⟨rfl, rfl, rfl⟩

@[simp] theorem State.auditResults_frame (s : State) (e : EntryId) (ports : Vector PortState 4) :
    (State.auditResults s e ports).mem = s.mem ∧ (State.auditResults s e ports).pending = s.pending ∧
      (State.auditResults s e ports).path.port = s.path.port := by
  unfold State.auditResults
  exact foldl_frame _ (fun s x => by simp) _ s

@[simp] theorem State.lostTap_frame (s : State) (e : EntryId) :
    (State.lostTap s e).mem = s.mem ∧ (State.lostTap s e).pending = s.pending ∧
      (State.lostTap s e).path.port = s.path.port := by
  simp [State.lostTap]

@[simp] theorem State.feederBlockedOrders_frame (s : State) (f : Feeder) :
    (State.feederBlockedOrders s f).mem = s.mem ∧ (State.feederBlockedOrders s f).pending = s.pending ∧
      (State.feederBlockedOrders s f).path.port = s.path.port := by
  simp [State.feederBlockedOrders]

@[simp] theorem State.applyConfirm_frame (s : State) (c : ConfirmItem) :
    (State.applyConfirm s c).mem = s.mem ∧ (State.applyConfirm s c).pending = s.pending ∧
      (State.applyConfirm s c).path.port = s.path.port := by
  unfold State.applyConfirm
  dsimp only
  split <;> simp [foldl_frame (fun s k => State.setIndex s _ _ _ _) (fun s k => by simp)]

@[simp] theorem State.confirmUnclaimed_frame (s : State) (e : EntryId) (p : Port) :
    (State.confirmUnclaimed s e p).mem = s.mem ∧ (State.confirmUnclaimed s e p).pending = s.pending ∧
      (State.confirmUnclaimed s e p).path.port = s.path.port := by
  unfold State.confirmUnclaimed
  split
  · simp
  · exact foldl_frame _ (fun s x => by simp) _ s

@[simp] theorem State.recompute_frame (s : State) (sub : Nat) :
    (State.recompute s sub).mem = s.mem ∧ (State.recompute s sub).pending = s.pending ∧
      (State.recompute s sub).path.port = s.path.port := by
  unfold State.recompute
  exact State.computeWanted_frame _ _ _ _

@[simp] theorem State.freeBooked_frame (s : State) (sub event : Nat) :
    (State.freeBooked s sub event).mem = s.mem ∧ (State.freeBooked s sub event).pending = s.pending ∧
      (State.freeBooked s sub event).path.port = s.path.port := by
  unfold State.freeBooked
  dsimp only
  generalize (s.ownRec sub).bookedSlotOf event = c
  rcases c with _ | k <;> simp

@[simp] theorem State.takeOverlap_frame (s : State) (sub event minutes : Nat) :
    (State.takeOverlap s sub event minutes).mem = s.mem ∧ (State.takeOverlap s sub event minutes).pending = s.pending ∧
      (State.takeOverlap s sub event minutes).path.port = s.path.port := by
  unfold State.takeOverlap
  dsimp only
  generalize (s.ownRec sub).slotOf event = c
  rcases c with _ | k <;> simp

@[simp] theorem State.takeSettle_frame (s : State) (sub event : Nat) :
    (State.takeSettle s sub event).mem = s.mem ∧ (State.takeSettle s sub event).pending = s.pending ∧
      (State.takeSettle s sub event).path.port = s.path.port := by
  unfold State.takeSettle
  dsimp only
  generalize s.settledSlot (s.ownRec sub) sub event = c
  rcases c with _ | k <;> split <;> simp

@[simp] theorem State.passStep_frame (s : State) (i : Nat) :
    (State.passStep s i).1.mem = s.mem ∧ (State.passStep s i).1.pending = s.pending ∧
      (State.passStep s i).1.path.port = s.path.port := by
  unfold State.passStep
  dsimp only
  generalize s.passClaim (s.ownRec i) = c
  split
  · rcases c with _ | ⟨e, p⟩ <;> simp
  · simp

@[simp] theorem State.passNext_frame (s : State) (x : PassItem) :
    (State.passNext s x).mem = s.mem ∧ (State.passNext s x).pending = s.pending ∧
      (State.passNext s x).path.port = s.path.port := by
  unfold State.passNext
  dsimp only
  split <;> simp

@[simp] theorem State.applyPass_frame (s : State) (x : PassItem) :
    (State.applyPass s x).mem = s.mem ∧ (State.applyPass s x).pending = s.pending ∧
      (State.applyPass s x).path.port = s.path.port := by
  unfold State.applyPass
  dsimp only
  (repeat' split) <;> simp

@[simp] theorem State.advanceRoll_frame (s : State) (f : Feeder) (restart : Bool) :
    (State.advanceRoll s f restart).mem = s.mem ∧ (State.advanceRoll s f restart).pending = s.pending ∧
      (State.advanceRoll s f restart).path.port = s.path.port := by
  unfold State.advanceRoll
  dsimp only
  generalize s.nextOfList f _ _ = c
  rcases c with _ | ⟨x, n⟩
  · cases restart <;> simp
  · simp

@[simp] theorem State.startPaced_frame (s : State) (f : Feeder) :
    (State.startPaced s f).mem = s.mem ∧ (State.startPaced s f).pending = s.pending ∧
      (State.startPaced s f).path.port = s.path.port := by
  unfold State.startPaced
  dsimp only
  (repeat' split) <;> simp

@[simp] theorem State.passDue_frame (s : State) (f : Feeder) (e : EntryId) :
    (State.passDue s f e).mem = s.mem ∧ (State.passDue s f e).pending = s.pending ∧
      (State.passDue s f e).path.port = s.path.port := by
  unfold State.passDue
  (repeat' split) <;> simp

@[simp] theorem State.failedOutcome_frame (s : State) (f : Feeder) (o : Outcome) (extra : List Task) :
    (State.failedOutcome s f o extra).1.mem = s.mem ∧ (State.failedOutcome s f o extra).1.pending = s.pending ∧
      (State.failedOutcome s f o extra).1.path.port = s.path.port := by
  exact ⟨rfl, rfl, rfl⟩

@[simp] theorem State.readMatch_frame (s : State) (f : Feeder) (o : Outcome) (latency : Nat) (tamper low : Bool) (payload : List Byte) :
    (State.readMatch s f o latency tamper low payload).1.mem = s.mem ∧ (State.readMatch s f o latency tamper low payload).1.pending = s.pending ∧
      (State.readMatch s f o latency tamper low payload).1.path.port = s.path.port := by
  exact ⟨rfl, rfl, rfl⟩

@[simp] theorem State.setPortOk_frame (s : State) (f : Feeder) (o : Outcome) (latency : Nat) (tamper low : Bool) (payload : List Byte) :
    (State.setPortOk s f o latency tamper low payload).1.mem = s.mem ∧ (State.setPortOk s f o latency tamper low payload).1.pending = s.pending ∧
      (State.setPortOk s f o latency tamper low payload).1.path.port = s.path.port := by
  exact ⟨rfl, rfl, rfl⟩

@[simp] theorem State.beginEnum_frame (s : State) (f : Feeder) (mode : EnumMode) :
    (State.beginEnum s f mode).1.mem = s.mem ∧ (State.beginEnum s f mode).1.pending = s.pending ∧
      (State.beginEnum s f mode).1.path.port = s.path.port := by
  exact ⟨rfl, rfl, rfl⟩

@[simp] theorem State.enumVerify_frame (s : State) (f : Feeder) (en : Enum) (ending : Ending) :
    (State.enumVerify s f en ending).mem = s.mem ∧ (State.enumVerify s f en ending).pending = s.pending ∧
      (State.enumVerify s f en ending).path.port = s.path.port := by
  exact ⟨rfl, rfl, rfl⟩

@[simp] theorem State.enumNewCycle_frame (s : State) (f : Feeder) :
    (State.enumNewCycle s f).mem = s.mem ∧ (State.enumNewCycle s f).pending = s.pending ∧
      (State.enumNewCycle s f).path.port = s.path.port := by
  unfold State.enumNewCycle
  dsimp only
  (repeat' split) <;> simp

@[simp] theorem State.enumEnd_frame (s : State) (f : Feeder) (en : Enum) (ending : Ending) :
    (State.enumEnd s f en ending).1.mem = s.mem ∧ (State.enumEnd s f en ending).1.pending = s.pending ∧
      (State.enumEnd s f en ending).1.path.port = s.path.port := by
  unfold State.enumEnd
  dsimp only
  split <;> simp [foldl_frame (fun s e => State.setEntry s e _) (fun s e => by simp)]

@[simp] theorem State.vacateAll_frame (s : State) (f : Feeder) :
    (State.vacateAll s f).1.mem = s.mem ∧ (State.vacateAll s f).1.pending = s.pending ∧
      (State.vacateAll s f).1.path.port = s.path.port := by
  unfold State.vacateAll
  generalize s.row f = r
  exact foldl_frame _ (fun s x => by simp) _ s

@[simp] theorem State.identified_frame (s : State) (f : Feeder) (en : Enum) (serial : Word) :
    (State.identified s f en serial).1.mem = s.mem ∧ (State.identified s f en serial).1.pending = s.pending ∧
      (State.identified s f en serial).1.path.port = s.path.port := by
  unfold State.identified
  generalize s.chooseEntry serial = c
  rcases c with _ | x
  · simp
  · dsimp only
    split <;> simp

@[simp] theorem State.assigned_frame (s : State) (f : Feeder) (en : Enum) (latency : Nat) (tamper low : Bool) :
    (State.assigned s f en latency tamper low).1.mem = s.mem ∧ (State.assigned s f en latency tamper low).1.pending = s.pending ∧
      (State.assigned s f en latency tamper low).1.path.port = s.path.port := by
  unfold State.assigned
  generalize s.finalChoice en = c
  rcases c with _ | ⟨e, pick⟩
  · simp
  · dsimp only
    (repeat' split) <;> simp

@[simp] theorem State.beginCall_frame (s : State) (f : Feeder) (cmd : TapCmd) :
    (State.beginCall s f cmd).mem = s.mem ∧ (State.beginCall s f cmd).pending = s.pending ∧
      (State.beginCall s f cmd).path.port = s.path.port := by
  unfold State.beginCall
  dsimp only
  (repeat' split) <;> simp

@[simp] theorem State.callDue_frame (s : State) (f : Feeder) (cmd : TapCmd) :
    (State.callDue s f cmd).mem = s.mem ∧ (State.callDue s f cmd).pending = s.pending ∧
      (State.callDue s f cmd).path.port = s.path.port := by
  unfold State.callDue
  dsimp only
  (repeat' split) <;> simp

@[simp] theorem State.enumOver_frame (s : State) (f : Feeder) :
    (State.enumOver s f).mem = s.mem ∧ (State.enumOver s f).pending = s.pending ∧
      (State.enumOver s f).path.port = s.path.port := by
  exact ⟨rfl, rfl, rfl⟩

@[simp] theorem State.tapOutcome_frame (s : State) (f : Feeder) (o : Outcome) :
    (State.tapOutcome s f o).1.mem = s.mem ∧ (State.tapOutcome s f o).1.pending = s.pending ∧
      (State.tapOutcome s f o).1.path.port = s.path.port := by
  unfold State.tapOutcome
  dsimp only
  (repeat' split) <;> simp

@[simp] theorem State.probeOutcome_frame (s : State) (f : Feeder) (o : Outcome) :
    (State.probeOutcome s f o).1.mem = s.mem ∧ (State.probeOutcome s f o).1.pending = s.pending ∧
      (State.probeOutcome s f o).1.path.port = s.path.port := by
  unfold State.probeOutcome
  (repeat' split) <;> simp

@[simp] theorem State.storeLatency_frame (s : State) (serial : Word) (latency : Nat) :
    (State.storeLatency s serial latency).1.mem = s.mem ∧ (State.storeLatency s serial latency).1.pending = s.pending ∧
      (State.storeLatency s serial latency).1.path.port = s.path.port := by
  unfold State.storeLatency
  generalize s.entryOfSerial serial = c
  rcases c with _ | e <;> simp

@[simp] theorem State.forgetOutcome_frame (s : State) (f : Feeder) (en : Enum) (o : Outcome) :
    (State.forgetOutcome s f en o).1.mem = s.mem ∧ (State.forgetOutcome s f en o).1.pending = s.pending ∧
      (State.forgetOutcome s f en o).1.path.port = s.path.port := by
  unfold State.forgetOutcome
  (repeat' split) <;> simp

@[simp] theorem State.identifyOutcome_frame (s : State) (f : Feeder) (en : Enum) (o : Outcome) :
    (State.identifyOutcome s f en o).1.mem = s.mem ∧ (State.identifyOutcome s f en o).1.pending = s.pending ∧
      (State.identifyOutcome s f en o).1.path.port = s.path.port := by
  unfold State.identifyOutcome
  (repeat' split) <;> simp

@[simp] theorem State.assignOutcome_frame (s : State) (f : Feeder) (en : Enum) (o : Outcome) :
    (State.assignOutcome s f en o).1.mem = s.mem ∧ (State.assignOutcome s f en o).1.pending = s.pending ∧
      (State.assignOutcome s f en o).1.path.port = s.path.port := by
  unfold State.assignOutcome
  (repeat' split) <;> simp

@[simp] theorem State.outcomeEffect_frame (s : State) (f : Feeder) (o : Outcome) :
    (State.outcomeEffect s f o).1.mem = s.mem ∧ (State.outcomeEffect s f o).1.pending = s.pending ∧
      (State.outcomeEffect s f o).1.path.port = s.path.port := by
  unfold State.outcomeEffect
  (repeat' split) <;> simp

@[simp] theorem State.takeHanded_frame (s : State) (f : Feeder) :
    (State.takeHanded s f).1.mem = s.mem ∧ (State.takeHanded s f).1.pending = s.pending ∧
      (State.takeHanded s f).1.path.port = s.path.port := by
  unfold State.takeHanded
  (repeat' split) <;> simp

@[simp] theorem State.blockEnum_frame (s : State) (f : Feeder) (x : Engine) :
    (State.blockEnum s f x).1.mem = s.mem ∧ (State.blockEnum s f x).1.pending = s.pending ∧
      (State.blockEnum s f x).1.path.port = s.path.port := by
  unfold State.blockEnum
  (repeat' split) <;> simp

@[simp] theorem State.verifyFeeder_frame (s : State) (f : Feeder) :
    (State.verifyFeeder s f).mem = s.mem ∧ (State.verifyFeeder s f).pending = s.pending ∧
      (State.verifyFeeder s f).path.port = s.path.port := by
  exact ⟨rfl, rfl, rfl⟩

@[simp] theorem State.suppress_frame (s : State) (a : Nat) :
    (State.suppress s a).mem = s.mem ∧ (State.suppress s a).pending = s.pending ∧
      (State.suppress s a).path.port = s.path.port := by
  exact ⟨rfl, rfl, rfl⟩

@[simp] theorem State.recordIgnored_frame (s : State) (a : Nat) :
    (State.recordIgnored s a).mem = s.mem ∧ (State.recordIgnored s a).pending = s.pending ∧
      (State.recordIgnored s a).path.port = s.path.port := by
  exact ⟨rfl, rfl, rfl⟩

@[simp] theorem State.bankEdit_frame (s : State) (b : Bank) :
    (State.bankEdit s b).mem = s.mem ∧ (State.bankEdit s b).pending = s.pending ∧
      (State.bankEdit s b).path.port = s.path.port := by
  unfold State.bankEdit
  (repeat' split) <;> simp

@[simp] theorem State.present_frame (s : State) (c : Cycle) :
    (State.present s c).mem = s.mem ∧ (State.present s c).pending = s.pending ∧
      (State.present s c).path.port = s.path.port := by
  exact ⟨rfl, rfl, rfl⟩

@[simp] theorem State.loadLog_frame (s v : State) :
    (State.loadLog s v).mem = s.mem ∧ (State.loadLog s v).pending = s.pending ∧
      (State.loadLog s v).path.port = s.path.port := by
  exact ⟨rfl, rfl, rfl⟩

@[simp] theorem State.refuseCold_frame (s : State) (r : CmdResult) (fault : ConfigFault) :
    (State.refuseCold s r fault).mem = s.mem ∧ (State.refuseCold s r fault).pending = s.pending ∧
      (State.refuseCold s r fault).path.port = s.path.port := by
  exact ⟨rfl, rfl, rfl⟩

@[simp] theorem State.refuseResume_frame (s : State) (r : CmdResult) (fault : ConfigFault) :
    (State.refuseResume s r fault).mem = s.mem ∧ (State.refuseResume s r fault).pending = s.pending ∧
      (State.refuseResume s r fault).path.port = s.path.port := by
  exact ⟨rfl, rfl, rfl⟩

@[simp] theorem State.refuseStart_frame (s : State) (r : CmdResult) (fault : ConfigFault) :
    (State.refuseStart s r fault).mem = s.mem ∧ (State.refuseStart s r fault).pending = s.pending ∧
      (State.refuseStart s r fault).path.port = s.path.port := by
  unfold State.refuseStart
  (repeat' split) <;> simp

@[simp] theorem State.endSequence_frame (s : State) :
    (State.endSequence s).mem = s.mem ∧ (State.endSequence s).pending = s.pending ∧
      (State.endSequence s).path.port = s.path.port := by
  simp [State.endSequence]

@[simp] theorem State.sampleFrom_frame (s : State) (l : List ScanEntry) (i : Nat) :
    (s.sampleFrom l i).mem = s.mem ∧ (s.sampleFrom l i).pending = s.pending ∧ (s.sampleFrom l i).path.port = s.path.port := by
  induction l generalizing i with
  | nil => simp [State.sampleFrom]
  | cons en rest ih =>
    unfold State.sampleFrom
    split
    · generalize s.active.nextLit s.scan.carrier = c
      rcases c with _ | k
      · exact ih _
      · simp
    · simp

@[simp] theorem State.nextSample_frame (s : State) :
    (State.nextSample s).mem = s.mem ∧ (State.nextSample s).pending = s.pending ∧
      (State.nextSample s).path.port = s.path.port := by
  unfold State.nextSample
  split <;> simp

@[simp] theorem State.startSequence_frame (s : State) :
    (State.startSequence s).mem = s.mem ∧ (State.startSequence s).pending = s.pending ∧
      (State.startSequence s).path.port = s.path.port := by
  simp [State.startSequence]

@[simp] theorem State.takeBoundary_frame (s : State) :
    (State.takeBoundary s).mem = s.mem ∧ (State.takeBoundary s).pending = s.pending ∧
      (State.takeBoundary s).path.port = s.path.port := by
  exact ⟨rfl, rfl, rfl⟩

@[simp] theorem State.endSweep_frame (s : State) :
    (State.endSweep s).mem = s.mem ∧ (State.endSweep s).pending = s.pending ∧
      (State.endSweep s).path.port = s.path.port := by
  unfold State.endSweep
  (repeat' split) <;> simp

@[simp] theorem State.submit_frame (s : State) (k : AlarmKind) (sv : Severity) (sj : Subject) (v : Word) (m : Option Nat) :
    (s.submit k sv sj v m).1.mem = s.mem ∧ (s.submit k sv sj v m).1.pending = s.pending ∧
      (s.submit k sv sj v m).1.path.port = s.path.port := by
  unfold State.submit
  dsimp only
  (repeat' split) <;> simp

@[simp] theorem State.advanceSweep_frame (s : State) :
    (State.advanceSweep s).mem = s.mem ∧ (State.advanceSweep s).pending = s.pending ∧
      (State.advanceSweep s).path.port = s.path.port := by
  simp [State.advanceSweep]

@[simp] theorem State.doTask_frame (s : State) (t : Task) :
    (s.doTask t).1.mem = s.mem ∧ (s.doTask t).1.pending = s.pending ∧ (s.doTask t).1.path.port = s.path.port := by
  cases t <;> unfold State.doTask <;> dsimp only <;> (repeat' split) <;>
    simp [foldl_frame State.noteWord5 (fun s k => by simp)]

@[simp] theorem State.runTasks_frame (b : Blk) (ts : List Task) (s : State) :
    (State.runTasks b ts s).mem = s.mem ∧ (State.runTasks b ts s).pending = s.pending ∧
      (State.runTasks b ts s).path.port = s.path.port := by
  induction ts generalizing s with
  | nil => simp [State.runTasks]
  | cons t ts ih =>
    have h := State.doTask_frame s t
    unfold State.runTasks
    rcases hd : s.doTask t with ⟨s1, _ | w⟩ <;> simp_all

@[simp] theorem State.resumeWork_frame (s : State) (b : Blk) :
    (State.resumeWork s b).mem = s.mem ∧ (State.resumeWork s b).pending = s.pending ∧
      (State.resumeWork s b).path.port = s.path.port := by
  unfold State.resumeWork
  rw [(State.runTasks_frame _ _ _).1, (State.runTasks_frame _ _ _).2.1, (State.runTasks_frame _ _ _).2.2]
  exact State.keepOrderTurn_frame s b

@[simp] theorem State.push_frame (s : State) (b : Blk) (ts : List Task) :
    (State.push s b ts).mem = s.mem ∧ (State.push s b ts).pending = s.pending ∧
      (State.push s b ts).path.port = s.path.port := by
  unfold State.push
  split <;> simp

@[simp] theorem State.pushCalls_frame (s : State) (ts : List Task) :
    (State.pushCalls s ts).mem = s.mem ∧ (State.pushCalls s ts).pending = s.pending ∧
      (State.pushCalls s ts).path.port = s.path.port := by
  simp [State.pushCalls]

@[simp] theorem State.settle_frame (s : State) :
    (State.settle s).mem = s.mem ∧ (State.settle s).pending = s.pending ∧
      (State.settle s).path.port = s.path.port := by
  unfold State.settle
  exact foldl_frame _ (fun s b => by split <;> simp) _ s

@[simp] theorem State.epochCheck_frame (s : State) :
    (State.epochCheck s).mem = s.mem ∧ (State.epochCheck s).pending = s.pending ∧
      (State.epochCheck s).path.port = s.path.port := by
  unfold State.epochCheck
  (repeat' split) <;> simp

@[simp] theorem State.endValidation_frame (s : State) (v : Validation) (fault : Option (ValResult × Option SlotId)) :
    (s.endValidation v fault).mem = s.mem ∧ (s.endValidation v fault).pending = s.pending ∧
      (s.endValidation v fault).path.port = s.path.port := by
  unfold State.endValidation
  dsimp only
  (repeat' split) <;> simp

@[simp] theorem State.readPart_frame (s : State) (v : Validation) :
    (State.readPart s v).mem = s.mem ∧ (State.readPart s v).pending = s.pending ∧
      (State.readPart s v).path.port = s.path.port := by
  exact ⟨rfl, rfl, rfl⟩

@[simp] theorem State.checkPart_frame (s : State) (v : Validation) :
    (State.checkPart s v).mem = s.mem ∧ (State.checkPart s v).pending = s.pending ∧
      (State.checkPart s v).path.port = s.path.port := by
  unfold State.checkPart
  dsimp only
  split
  · simp
  split
  · split <;> simp
  split
  · simp
  generalize slotFault v.plan v.slots s.eventChanged _ = c
  rcases c with _ | x
  · dsimp only
    split <;> simp
  · simp

@[simp] theorem State.validationRead_frame (s : State) (b : Bank) (p : Nat) :
    (State.validationRead s b p).mem = s.mem ∧ (State.validationRead s b p).pending = s.pending ∧
      (State.validationRead s b p).path.port = s.path.port := by
  unfold State.validationRead
  (repeat' split) <;> simp

@[simp] theorem State.madeSwitch_frame (s : State) :
    (State.madeSwitch s).mem = s.mem ∧ (State.madeSwitch s).pending = s.pending ∧
      (State.madeSwitch s).path.port = s.path.port := by
  unfold State.madeSwitch
  (repeat' split) <;> simp

@[simp] theorem State.logWritten_frame (s : State) :
    (State.logWritten s).mem = s.mem ∧ (State.logWritten s).pending = s.pending ∧
      (State.logWritten s).path.port = s.path.port := by
  unfold State.logWritten
  (repeat' split) <;> simp

@[simp] theorem State.closeQueued_frame (s : State) :
    (State.closeQueued s).mem = s.mem ∧ (State.closeQueued s).pending = s.pending ∧
      (State.closeQueued s).path.port = s.path.port := by
  unfold State.closeQueued
  (repeat' split) <;> simp

@[simp] theorem State.answerAsk_frame (s : State) :
    (State.answerAsk s).mem = s.mem ∧ (State.answerAsk s).pending = s.pending ∧
      (State.answerAsk s).path.port = s.path.port := by
  unfold State.answerAsk
  (repeat' split) <;> simp

@[simp] theorem State.lastAliveRead_frame (s : State) :
    (State.lastAliveRead s).mem = s.mem ∧ (State.lastAliveRead s).pending = s.pending ∧
      (State.lastAliveRead s).path.port = s.path.port := by
  unfold State.lastAliveRead
  dsimp only
  (repeat' split) <;> simp

@[simp] theorem State.startPending_frame (s : State) (b : Bank) :
    (State.startPending s b).mem = s.mem ∧ (State.startPending s b).pending = s.pending ∧
      (State.startPending s b).path.port = s.path.port := by
  unfold State.startPending
  dsimp only
  (repeat' split) <;> simp

@[simp] theorem State.pendingRead_frame (s : State) (b : Bank) :
    (State.pendingRead s b).mem = s.mem ∧ (State.pendingRead s b).pending = s.pending ∧
      (State.pendingRead s b).path.port = s.path.port := by
  unfold State.pendingRead
  split <;> simp

@[simp] theorem State.resultWritten_frame (s : State) :
    (State.resultWritten s).mem = s.mem ∧ (State.resultWritten s).pending = s.pending ∧
      (State.resultWritten s).path.port = s.path.port := by
  unfold State.resultWritten
  split <;> simp

@[simp] theorem State.burstEnded_frame (s : State) (b : Burst) :
    (State.burstEnded s b).mem = s.mem ∧ (State.burstEnded s b).pending = s.pending ∧
      (State.burstEnded s b).path.port = s.path.port := by
  unfold State.burstEnded
  (repeat' split) <;> simp

@[simp] theorem State.answerControl_frame (s : State) (r : CmdResult) :
    (State.answerControl s r).mem = s.mem ∧ (State.answerControl s r).pending = s.pending ∧
      (State.answerControl s r).path.port = s.path.port := by
  unfold State.answerControl
  (repeat' split) <;> simp

@[simp] theorem State.enterStarting_frame (s : State) :
    (State.enterStarting s).mem = s.mem ∧ (State.enterStarting s).pending = s.pending ∧
      (State.enterStarting s).path.port = s.path.port := by
  exact ⟨rfl, rfl, rfl⟩

@[simp] theorem State.checkResume_frame (s : State) (m : List Host.Cell) :
    (State.checkResume s m).mem = s.mem ∧ (State.checkResume s m).pending = s.pending ∧
      (State.checkResume s m).path.port = s.path.port := by
  unfold State.checkResume
  dsimp only
  (repeat' split) <;> simp

@[simp] theorem State.checkConfig_frame (s : State) (m : List Host.Cell) :
    (State.checkConfig s m).mem = s.mem ∧ (State.checkConfig s m).pending = s.pending ∧
      (State.checkConfig s m).path.port = s.path.port := by
  unfold State.checkConfig
  dsimp only
  (repeat' split) <;> simp

@[simp] theorem State.checkBankNumber_frame (s : State) :
    (State.checkBankNumber s).mem = s.mem ∧ (State.checkBankNumber s).pending = s.pending ∧
      (State.checkBankNumber s).path.port = s.path.port := by
  unfold State.checkBankNumber
  dsimp only
  (repeat' split) <;> simp

@[simp] theorem State.checkBank_frame (s v : State) (b : Bank) :
    (State.checkBank s v b).mem = s.mem ∧ (State.checkBank s v b).pending = s.pending ∧
      (State.checkBank s v b).path.port = s.path.port := by
  unfold State.checkBank
  (repeat' split) <;> simp

@[simp] theorem State.checkLog_frame (s v : State) :
    (State.checkLog s v).mem = s.mem ∧ (State.checkLog s v).pending = s.pending ∧
      (State.checkLog s v).path.port = s.path.port := by
  exact ⟨rfl, rfl, rfl⟩

@[simp] theorem State.startSupervision_frame (s : State) :
    (State.startSupervision s).mem = s.mem ∧ (State.startSupervision s).pending = s.pending ∧
      (State.startSupervision s).path.port = s.path.port := by
  unfold State.startSupervision
  (repeat' split) <;> simp

@[simp] theorem State.startFeeders_frame (s : State) :
    (State.startFeeders s).mem = s.mem ∧ (State.startFeeders s).pending = s.pending ∧
      (State.startFeeders s).path.port = s.path.port := by
  unfold State.startFeeders
  exact foldl_frame _ (fun s f => by dsimp only; split <;> simp) _ s

@[simp] theorem State.startScan_frame (s : State) :
    (State.startScan s).mem = s.mem ∧ (State.startScan s).pending = s.pending ∧
      (State.startScan s).path.port = s.path.port := by
  exact ⟨rfl, rfl, rfl⟩

@[simp] theorem State.dropDueCalls_frame (s : State) :
    (State.dropDueCalls s).mem = s.mem ∧ (State.dropDueCalls s).pending = s.pending ∧
      (State.dropDueCalls s).path.port = s.path.port := by
  exact ⟨rfl, rfl, rfl⟩

@[simp] theorem State.takeSettings_frame (s : State) (c : Settings) :
    (State.takeSettings s c).mem = s.mem ∧ (State.takeSettings s c).pending = s.pending ∧
      (State.takeSettings s c).path.port = s.path.port := by
  simp [State.takeSettings]

@[simp] theorem State.runSchedule_frame (s : State) :
    (State.runSchedule s).mem = s.mem ∧ (State.runSchedule s).pending = s.pending ∧
      (State.runSchedule s).path.port = s.path.port := by
  unfold State.runSchedule
  (repeat' split) <;> simp

@[simp] theorem State.updateBuyers_frame (s : State) :
    (State.updateBuyers s).mem = s.mem ∧ (State.updateBuyers s).pending = s.pending ∧
      (State.updateBuyers s).path.port = s.path.port := by
  unfold State.updateBuyers
  split <;> simp [foldl_frame State.noteWord5 (fun s k => by simp)]

@[simp] theorem State.writeLastAlive_frame (s : State) :
    (State.writeLastAlive s).mem = s.mem ∧ (State.writeLastAlive s).pending = s.pending ∧
      (State.writeLastAlive s).path.port = s.path.port := by
  unfold State.writeLastAlive
  (repeat' split) <;> simp

@[simp] theorem State.runLoss_frame (s : State) :
    (State.runLoss s).mem = s.mem ∧ (State.runLoss s).pending = s.pending ∧
      (State.runLoss s).path.port = s.path.port := by
  unfold State.runLoss
  (repeat' split) <;> simp

@[simp] theorem State.setClock_frame (s : State) (v : Nat) :
    (State.setClock s v).mem = s.mem ∧ (State.setClock s v).pending = s.pending ∧
      (State.setClock s v).path.port = s.path.port := by
  exact ⟨rfl, rfl, rfl⟩

@[simp] theorem State.answerTime_frame (s : State) (r : CmdResult) :
    (State.answerTime s r).mem = s.mem ∧ (State.answerTime s r).pending = s.pending ∧
      (State.answerTime s r).path.port = s.path.port := by
  exact ⟨rfl, rfl, rfl⟩

@[simp] theorem State.forwardJump_frame (s : State) (v : Nat) :
    (State.forwardJump s v).mem = s.mem ∧ (State.forwardJump s v).pending = s.pending ∧
      (State.forwardJump s v).path.port = s.path.port := by
  simp [State.forwardJump]

@[simp] theorem State.answerBeat_frame (s : State) (r : CmdResult) :
    (State.answerBeat s r).mem = s.mem ∧ (State.answerBeat s r).pending = s.pending ∧
      (State.answerBeat s r).path.port = s.path.port := by
  exact ⟨rfl, rfl, rfl⟩

@[simp] theorem State.clearSilent_frame (s : State) :
    (State.clearSilent s).mem = s.mem ∧ (State.clearSilent s).pending = s.pending ∧
      (State.clearSilent s).path.port = s.path.port := by
  unfold State.clearSilent
  (repeat' split) <;> simp

@[simp] theorem State.takeOrder_frame (s : State) (i : Nat) (w : Word) :
    (State.takeOrder s i w).mem = s.mem ∧ (State.takeOrder s i w).pending = s.pending ∧
      (State.takeOrder s i w).path.port = s.path.port := by
  unfold State.takeOrder
  (repeat' split) <;> simp

@[simp] theorem State.acceptOrder_frame (s : State) (kind : OrderKind) (x : Dispatch) (r : SubRec) (notices : List NoticeKind)
    (entry : Option EntryId) :
    (State.acceptOrder s kind x r notices entry).mem = s.mem ∧
      (State.acceptOrder s kind x r notices entry).pending = s.pending ∧
      (State.acceptOrder s kind x r notices entry).path.port = s.path.port := by
  simp [State.acceptOrder]

@[simp] theorem State.endDispatch_frame (s : State) :
    s.endDispatch.mem = s.mem ∧ s.endDispatch.pending = s.pending := State.tookRead_frame s .orderUnit

@[simp] theorem State.putBack_frame (s : State) (x : Dispatch) :
    (s.putBack x).mem = s.mem ∧ (s.putBack x).pending = s.pending ∧ (s.putBack x).path.port = s.path.port := by
  unfold State.putBack
  split <;> simp

@[simp] theorem State.handRegistration_frame (s : State) :
    (State.handRegistration s).mem = s.mem ∧ (State.handRegistration s).pending = s.pending ∧
      (State.handRegistration s).path.port = s.path.port := by
  unfold State.handRegistration
  (repeat' split) <;> simp

@[simp] theorem State.answerCommit_frame (s : State) (r : CmdResult) :
    (State.answerCommit s r).mem = s.mem ∧ (State.answerCommit s r).pending = s.pending ∧
      (State.answerCommit s r).path.port = s.path.port := by
  exact ⟨rfl, rfl, rfl⟩

@[simp] theorem State.startValidation_frame (s : State) (b : Bank) :
    (State.startValidation s b).mem = s.mem ∧ (State.startValidation s b).pending = s.pending ∧
      (State.startValidation s b).path.port = s.path.port := by
  exact ⟨rfl, rfl, rfl⟩

@[simp] theorem State.withdrawBank_frame (s : State) (b : Bank) :
    (State.withdrawBank s b).mem = s.mem ∧ (State.withdrawBank s b).pending = s.pending ∧
      (State.withdrawBank s b).path.port = s.path.port := by
  exact ⟨rfl, rfl, rfl⟩

@[simp] theorem State.startReport_frame (s : State) (cmd : TapCmd) (e : EntryId) (p : Port) :
    (State.startReport s cmd e p).mem = s.mem ∧ (State.startReport s cmd e p).pending = s.pending ∧
      (State.startReport s cmd e p).path.port = s.path.port := by
  exact ⟨rfl, rfl, rfl⟩

@[simp] theorem State.talk_frame (s : State) (f : Feeder) (t : Txn) (mark : Bool) :
    (State.talk s f t mark).mem = s.mem ∧ (State.talk s f t mark).pending = s.pending ∧
      (State.talk s f t mark).path.port = s.path.port := by
  exact ⟨rfl, rfl, rfl⟩

@[simp] theorem State.startWork_frame (s : State) (f : Feeder) (mark : Bool) (c : WorkChoice) :
    (s.startWork f mark c).mem = s.mem ∧ (s.startWork f mark c).pending = s.pending ∧
      (s.startWork f mark c).path.port = s.path.port := by
  cases c with
  | setPort e p => simp [State.startWork]
  | read e paced => cases paced <;> simp [State.startWork]
  | probe => simp [State.startWork]

@[simp] theorem State.blockFeeder_frame (s : State) (f : Feeder) (cut : Bool) (alarm : Task) :
    (State.blockFeeder s f cut alarm).mem = s.mem ∧ (State.blockFeeder s f cut alarm).pending = s.pending ∧
      (State.blockFeeder s f cut alarm).path.port = s.path.port := by
  simp [State.blockFeeder]

@[simp] theorem State.takeOutcome_frame (s : State) (f : Feeder) (mark : Bool) (mine : Outcome → Bool) :
    (State.takeOutcome s f mark mine).mem = s.mem ∧ (State.takeOutcome s f mark mine).pending = s.pending ∧
      (State.takeOutcome s f mark mine).path.port = s.path.port := by
  unfold State.takeOutcome
  (repeat' split) <;> simp

@[simp] theorem State.answerEnum_frame (s : State) (r : CmdResult) :
    (State.answerEnum s r).mem = s.mem ∧ (State.answerEnum s r).pending = s.pending ∧
      (State.answerEnum s r).path.port = s.path.port := by
  exact ⟨rfl, rfl, rfl⟩

@[simp] theorem State.answerScan_frame (s : State) (r : CmdResult) :
    (State.answerScan s r).mem = s.mem ∧ (State.answerScan s r).pending = s.pending ∧
      (State.answerScan s r).path.port = s.path.port := by
  exact ⟨rfl, rfl, rfl⟩

@[simp] theorem State.setScanMode_frame (s : State) (mode : ScanMode) (interval : Nat) :
    (State.setScanMode s mode interval).mem = s.mem ∧ (State.setScanMode s mode interval).pending = s.pending ∧
      (State.setScanMode s mode interval).path.port = s.path.port := by
  simp [State.setScanMode]

@[simp] theorem State.scanArrival_frame (s : State) (w : Word) (mode : Option ScanMode) :
    (State.scanArrival s w mode).mem = s.mem ∧ (State.scanArrival s w mode).pending = s.pending ∧
      (State.scanArrival s w mode).path.port = s.path.port := by
  unfold State.scanArrival
  (repeat' split) <;> simp

@[simp] theorem State.probeSample_frame (s : State) (x : Sample) (code : Nat) (v : Int) (sat : Bool) :
    (State.probeSample s x code v sat).1.mem = s.mem ∧ (State.probeSample s x code v sat).1.pending = s.pending ∧
      (State.probeSample s x code v sat).1.path.port = s.path.port := by
  exact ⟨rfl, rfl, rfl⟩

@[simp] theorem State.carrierSample_frame (s : State) (x : Sample) (k : SlotId) (slot : Slot) (code : Nat) (level : Int) (sat : Bool) :
    (State.carrierSample s x k slot code level sat).1.mem = s.mem ∧ (State.carrierSample s x k slot code level sat).1.pending = s.pending ∧
      (State.carrierSample s x k slot code level sat).1.path.port = s.path.port := by
  exact ⟨rfl, rfl, rfl⟩

@[simp] theorem State.answerClose_frame (s : State) (r : CmdResult) :
    (State.answerClose s r).mem = s.mem ∧ (State.answerClose s r).pending = s.pending ∧
      (State.answerClose s r).path.port = s.path.port := by
  exact ⟨rfl, rfl, rfl⟩

@[simp] theorem State.acceptClose_frame (s : State) (m : Nat) :
    (State.acceptClose s m).mem = s.mem ∧ (State.acceptClose s m).pending = s.pending ∧
      (State.acceptClose s m).path.port = s.path.port := by
  exact ⟨rfl, rfl, rfl⟩

end Sys2Proof.Machine
end

