-- ==== Sys2Proof/Laws/Memory.lean ====
section
/-! SUPPORT. The laws of memory: a byte reads as it was last written, every other byte stands, and every write keeps the
canonical form. -/

namespace Sys2Proof.Machine

/-- A byte reads as written, and every other byte as before. -/
@[simp] theorem memGet_memSet (m : List Host.Cell) (a x : Nat) (b : Byte) (lo : Nat) (h : memWfFrom lo m = true) :
    memGet (memSet m a b) x = if x = a then b else memGet m x := by
  induction m generalizing lo with
  | nil =>
    unfold memSet
    by_cases hb : b = Config.unwrittenByte
    · rw [if_pos hb, hb]
      unfold memGet
      split <;> rfl
    · rw [if_neg hb]
      unfold memGet
      by_cases hx : x = a
      · rw [if_pos hx.symm, if_pos hx]
      · rw [if_neg (Ne.symm hx), if_neg hx]
        rfl
  | cons c r ih =>
    obtain ⟨k, v⟩ := c
    simp only [memWfFrom, Bool.and_eq_true, decide_eq_true_eq, bne_iff_ne, ne_eq] at h
    have below : ∀ (r : List Host.Cell) (lo y : Nat), memWfFrom lo r = true → y < lo → memGet r y = Config.unwrittenByte := by
      intro r
      induction r with
      | nil => intros; rfl
      | cons c r ih =>
        obtain ⟨k, v⟩ := c
        intro lo y h hy
        simp only [memWfFrom, Bool.and_eq_true, decide_eq_true_eq, bne_iff_ne, ne_eq] at h
        unfold memGet
        rw [if_neg (by omega)]
        exact ih (k + 1) y h.2 (by omega)
    unfold memSet
    by_cases h1 : a < k
    · rw [if_pos h1]
      by_cases hb : b = Config.unwrittenByte
      · rw [if_pos hb]
        by_cases hx : x = a
        · subst hx
          rw [if_pos rfl, hb]
          unfold memGet
          rw [if_neg (by omega)]
          exact below r (k + 1) x h.2 (by omega)
        · rw [if_neg hx]
      · rw [if_neg hb]
        conv_lhs => unfold memGet
        by_cases hx : x = a
        · subst hx; simp
        · rw [if_neg (by omega), if_neg hx]
    · rw [if_neg h1]
      by_cases h2 : a = k
      · subst h2
        rw [if_pos rfl]
        by_cases hb : b = Config.unwrittenByte
        · rw [if_pos hb]
          by_cases hx : x = a
          · subst hx
            rw [if_pos rfl, hb]
            exact below r (x + 1) x h.2 (by omega)
          · rw [if_neg hx]
            conv_rhs => unfold memGet
            rw [if_neg (by omega)]
        · rw [if_neg hb]
          by_cases hx : x = a
          · subst hx; simp [memGet]
          · rw [if_neg hx]
            unfold memGet
            rw [if_neg (by omega), if_neg (by omega)]
      · rw [if_neg h2]
        conv_lhs => unfold memGet
        conv_rhs => unfold memGet
        by_cases hx : k = x
        · subst hx
          rw [if_pos rfl, if_pos rfl, if_neg (by omega)]
        · rw [if_neg hx, if_neg hx]
          exact ih (k + 1) h.2

/-- A write keeps the canonical form. -/
theorem memSet_wfFrom (m : List Host.Cell) (a : Nat) (b : Byte) (lo : Nat) (h : memWfFrom lo m = true) (ha : lo ≤ a) :
    memWfFrom lo (memSet m a b) = true := by
  induction m generalizing lo with
  | nil =>
    unfold memSet
    split <;> simp_all [memWfFrom]
  | cons c r ih =>
    obtain ⟨k, v⟩ := c
    have h0 := h
    simp only [memWfFrom, Bool.and_eq_true, decide_eq_true_eq, bne_iff_ne, ne_eq] at h
    unfold memSet
    have raise : ∀ (r : List Host.Cell) (lo lo' : Nat), memWfFrom lo' r = true → lo ≤ lo' → memWfFrom lo r = true := by
      intro r lo lo' h hl
      cases r with
      | nil => rfl
      | cons c r =>
        simp only [memWfFrom, Bool.and_eq_true, decide_eq_true_eq] at h ⊢
        exact ⟨⟨by omega, h.1.2⟩, h.2⟩
    split
    · rename_i h1
      split
      · exact h0
      · rename_i hb
        simp only [memWfFrom, Bool.and_eq_true, decide_eq_true_eq, bne_iff_ne, ne_eq]
        exact ⟨⟨ha, hb⟩, ⟨by omega, h.1.2⟩, h.2⟩
    · split
      · split
        · exact raise r lo (k + 1) h.2 (by omega)
        · rename_i hb
          subst a
          simp only [memWfFrom, Bool.and_eq_true, decide_eq_true_eq, bne_iff_ne, ne_eq]
          exact ⟨⟨ha, hb⟩, h.2⟩
      · simp only [memWfFrom, Bool.and_eq_true, decide_eq_true_eq, bne_iff_ne, ne_eq]
        exact ⟨⟨h.1.1, h.1.2⟩, ih (k + 1) h.2 (by omega)⟩

theorem memSet_wf (m : List Host.Cell) (a : Nat) (b : Byte) (h : Memory.wf m = true) : Memory.wf (memSet m a b) = true :=
  memSet_wfFrom m a b 0 h (Nat.zero_le a)

theorem memWriteBytes_wf (m : List Host.Cell) (a : Nat) (be : BitVec 4) (w : Word) (h : Memory.wf m = true) :
    Memory.wf (memWriteBytes m a be w) = true := by
  unfold memWriteBytes
  dsimp only
  repeat' split
  all_goals repeat apply memSet_wf
  all_goals exact h

theorem memWrite_wf (m : List Host.Cell) (a : Nat) (w : Word) (h : Memory.wf m = true) :
    Memory.wf (memWrite m a w) = true := memWriteBytes_wf m a 0xF w h

theorem memWriteWords_wf (m : List Host.Cell) (a : Nat) (ws : List Word) (h : Memory.wf m = true) :
    Memory.wf (memWriteWords m a ws) = true := by
  induction ws generalizing m a with
  | nil => exact h
  | cons w ws ih => exact ih _ _ (memWrite_wf m a w h)

/-- A byte write read back, on memory in canonical form. -/
theorem memGet_memSet_wf (m : List Host.Cell) (a x : Nat) (b : Byte) (h : Memory.wf m = true) :
    memGet (memSet m a b) x = if x = a then b else memGet m x := memGet_memSet m a x b 0 h

/-- A write of bytes leaves every byte outside its word. -/
theorem memGet_memWriteBytes_outside (m : List Host.Cell) (a x : Nat) (be : BitVec 4) (w : Word) (h : Memory.wf m = true)
    (hx : x < 4 * a ∨ 4 * a + 4 ≤ x) : memGet (memWriteBytes m a be w) x = memGet m x := by
  have step : ∀ (m : List Host.Cell) (c : Bool) (k : Nat) (b : Byte), Memory.wf m = true → x ≠ k →
      memGet (if c then memSet m k b else m) x = memGet m x := by
    intro m c k b hm hk
    split
    · rw [memGet_memSet_wf m k x b hm, if_neg hk]
    · rfl
  have keep : ∀ (m : List Host.Cell) (c : Bool) (k : Nat) (b : Byte), Memory.wf m = true →
      Memory.wf (if c then memSet m k b else m) = true := by
    intro m c k b hm
    split
    · exact memSet_wf m k b hm
    · exact hm
  unfold memWriteBytes
  dsimp only
  have h0 := keep m (be.getLsbD 0) (4 * a) (w.extractLsb' 0 8) h
  have h1 := keep _ (be.getLsbD 1) (4 * a + 1) (w.extractLsb' 8 8) h0
  have h2 := keep _ (be.getLsbD 2) (4 * a + 2) (w.extractLsb' 16 8) h1
  rw [step _ _ _ _ h2 (by omega), step _ _ _ _ h1 (by omega), step _ _ _ _ h0 (by omega), step _ _ _ _ h (by omega)]

/-- A word reads as it was written. -/
theorem memWord_memWrite (m : List Host.Cell) (a : Nat) (w : Word) (h : Memory.wf m = true) :
    memWord (memWrite m a w) a = w := by
  have h0 := memSet_wf m (4 * a) (w.extractLsb' 0 8) h
  have h1 := memSet_wf _ (4 * a + 1) (w.extractLsb' 8 8) h0
  have h2 := memSet_wf _ (4 * a + 2) (w.extractLsb' 16 8) h1
  have e : memWrite m a w =
      memSet (memSet (memSet (memSet m (4 * a) (w.extractLsb' 0 8)) (4 * a + 1) (w.extractLsb' 8 8)) (4 * a + 2)
        (w.extractLsb' 16 8)) (4 * a + 3) (w.extractLsb' 24 8) := rfl
  unfold memWord
  rw [e]
  simp only [memGet_memSet_wf _ _ _ _ h2, memGet_memSet_wf _ _ _ _ h1, memGet_memSet_wf _ _ _ _ h0,
    memGet_memSet_wf _ _ _ _ h]
  norm_num
  ext i hi
  simp only [BitVec.getElem_append, BitVec.getElem_extractLsb']
  (repeat' split) <;> (rw [← BitVec.getLsbD_eq_getElem]; congr 1; omega)

/-- A burst of words leaves every byte outside them. -/
theorem memGet_memWriteWords_outside (m : List Host.Cell) (a x : Nat) (ws : List Word) (h : Memory.wf m = true)
    (hx : x < 4 * a ∨ 4 * (a + ws.length) ≤ x) : memGet (memWriteWords m a ws) x = memGet m x := by
  induction ws generalizing m a with
  | nil => rfl
  | cons w ws ih =>
    simp only [List.length_cons] at hx
    unfold memWriteWords
    rw [ih (memWrite m a w) (a + 1) (memWrite_wf m a w h) (by omega)]
    exact memGet_memWriteBytes_outside m a x 0xF w h (by omega)

/-- Below its first address a memory reads as unwritten. -/
theorem memGet_of_lt (m : List Host.Cell) (a lo : Nat) (h : memWfFrom lo m = true) (ha : a < lo) :
    memGet m a = Config.unwrittenByte := by
  induction m generalizing lo with
  | nil => rfl
  | cons c r ih =>
    obtain ⟨k, b⟩ := c
    simp only [memWfFrom, Bool.and_eq_true, decide_eq_true_eq] at h
    rw [memGet, if_neg (by omega)]
    exact ih (k + 1) h.2 (by omega)

/-- A byte written as it reads leaves memory as it is. -/
theorem memSet_memGet (m : List Host.Cell) (a lo : Nat) (h : memWfFrom lo m = true) : memSet m a (memGet m a) = m := by
  induction m generalizing lo with
  | nil => rfl
  | cons c r ih =>
    obtain ⟨k, b⟩ := c
    simp only [memWfFrom, Bool.and_eq_true, decide_eq_true_eq, bne_iff_ne, ne_eq] at h
    obtain ⟨⟨hlo, hb⟩, hr⟩ := h
    rcases Nat.lt_trichotomy a k with hk | rfl | hk
    · have e : memGet ((k, b) :: r) a = Config.unwrittenByte := by
        rw [memGet, if_neg (by omega), memGet_of_lt r a (k + 1) hr (by omega)]
      rw [e, memSet, if_pos hk, if_pos rfl]
    · rw [memGet, if_pos rfl, memSet, if_neg (Nat.lt_irrefl _), if_pos rfl, if_neg hb]
    · rw [memGet, if_neg (by omega), memSet, if_neg (by omega), if_neg (by omega), ih (k + 1) hr]

/-- The bytes of a word of four. -/
theorem bytes_of_word (d c b a : Byte) : (d ++ c ++ b ++ a).extractLsb' 0 8 = a ∧ (d ++ c ++ b ++ a).extractLsb' 8 8 = b ∧
    (d ++ c ++ b ++ a).extractLsb' 16 8 = c ∧ (d ++ c ++ b ++ a).extractLsb' 24 8 = d := by
  refine ⟨?_, ?_, ?_, ?_⟩ <;> ext i hi <;>
    simp only [BitVec.getElem_extractLsb', BitVec.getLsbD_append] <;>
    (repeat' split) <;> first | omega | (rw [← BitVec.getLsbD_eq_getElem]; congr 1; omega)

/-- A word written as it reads leaves memory as it is. -/
theorem memWrite_memWord (m : List Host.Cell) (a : Nat) (h : Memory.wf m = true) : memWrite m a (memWord m a) = m := by
  have hb (i : Nat) : memSet m i (memGet m i) = m := memSet_memGet m i 0 h
  obtain ⟨e0, e1, e2, e3⟩ := bytes_of_word (memGet m (4 * a + 3)) (memGet m (4 * a + 2)) (memGet m (4 * a + 1)) (memGet m (4 * a))
  simp [memWrite, memWriteBytes, memWord, e0, e1, e2, e3, hb]

/-- Words written as they read leave memory as it is. -/
theorem memWriteWords_memWords (m : List Host.Cell) (a n : Nat) (h : Memory.wf m = true) :
    memWriteWords m a (memWords m a n) = m := by
  induction n generalizing a with
  | zero => rfl
  | succ n ih =>
    have e : memWords m a (n + 1) = memWord m a :: memWords m (a + 1) n := by
      simp [memWords, List.range_succ_eq_map, Nat.add_assoc, Nat.add_comm 1]
    rw [e, memWriteWords, memWrite_memWord m a h, ih]

end Sys2Proof.Machine
end

