-- ==== Sys2Proof/WellFormed.lean ====
section
/-! DEFINITION. Which terms of `Instr` are commands that can reach the part: the word of an arrival is one the row is the
arrival of, a subscriber index lies in the table's range, a latency in the answer window's, and a block that hands notices
or alarms is one that has them to hand. A command that is not well formed finds no arrival, sample or work to act on
(assumption 3). -/

namespace Sys2Proof

open Machine

/-- Why a term is no command. -/
inductive Ill where
  /-- The word's action code, mode or bank is not the row's. -/
  | word
  /-- The subscriber index is outside 0–2,047. -/
  | subscriber
  /-- The latency is outside 0–60 bit times. -/
  | latency
  /-- The block hands no notices. -/
  | noticeBlock
  /-- The block submits no alarms. -/
  | alarmBlock
deriving DecidableEq, Repr

/-- A check: the fault where the condition does not hold. -/
def Ill.unless (i : Ill) (b : Bool) : Option Ill := if b then none else some i

/-- The blocks that hand notices through their work lists (R132), but for the Billing Unit's own registrations. -/
def handsNotices : Blk → Bool
  | .orderUnit | .lineUp | .correlator | .billing => true
  | _ => false

/-- The blocks that submit alarms through their work lists (R107). -/
def submitsAlarms : Blk → Bool
  | .orderUnit => false
  | _ => true

/-- The first check a command fails (R5, R32, R60, R86, R107, R121, R132, R180). -/
def Instr.illFormed : Instr → Option Ill
  | .run w => Ill.word.unless (actionCode w == 1)
  | .halt w => Ill.word.unless (actionCode w == 2)
  | .restart w => Ill.word.unless (actionCode w == 3)
  | .clearStatus w => Ill.word.unless (actionCode w == 4)
  | .controlBadAction w => Ill.word.unless (decide (actionCode w = 0) || decide (4 < actionCode w))
  | .orderArrival i _ => Ill.subscriber.unless (decide (i < 2048))
  | .commit w => Ill.word.unless (actionCode w == 1)
  | .withdraw w => Ill.word.unless (actionCode w == 2)
  | .commitBadAction w =>
    Ill.word.unless ((actionCode w != 1 && actionCode w != 2) || (commitBank w).isNone)
  | .enumerateFresh w => Ill.word.unless (enumModeField w == 1)
  | .enumerateExtend w => Ill.word.unless (enumModeField w == 2)
  | .enumerateBadAction w =>
    Ill.word.unless ((enumModeField w != 1 && enumModeField w != 2) || (enumFeeders w).isEmpty)
  | .scanOff w => Ill.word.unless (actionCode w == 0)
  | .scanOnce w => Ill.word.unless (actionCode w == 1)
  | .scanPeriodic w => Ill.word.unless (actionCode w == 2)
  | .scanContinuous w => Ill.word.unless (actionCode w == 3)
  | .scanBadAction w => Ill.word.unless (!scanModeGood (actionCode w) (intervalField w))
  | .answerStartBit _ n => Ill.latency.unless (decide (n ≤ 60))
  | .noticeHanded b => Ill.noticeBlock.unless (handsNotices b)
  | .alarmSubmissionTaken b => Ill.alarmBlock.unless (submitsAlarms b)
  | .powerOn | .resetLine | .resetLineHeld | .computerRead _ | .computerWrite _ _ _ | .pendingSubmissionHanded
  | .memoryPortGrant | .burstComplete | .passedCycleCarried | .configurationCheck | .directoryLoadEntry
  | .billingLoad | .carrierLossLoad | .subscriberPassStep | .lineupStartup | .scannerStartup | .outageRebuild
  | .reconciliationStep | .entryToRunning | .haltedEntry | .minuteEvent | .halfSecondTick | .timeSet _
  | .heartbeat _ | .supervisionExpiry | .backlogWalkStep | .badOrder | .enrol | .connect | .disconnect | .retier
  | .move | .buy | .cancel | .audit | .remove | .transactionReport | .confirmation | .lostTapReport
  | .blockedReport | .eventStartReport | .eventEndReport | .eventDropReport | .overlapReport | .settleAnswer
  | .refreshRequest | .validationBurst | .epochSwitch | .transactionStart _ _ | .collision _ | .callSent _
  | .answerWindowExpiry _ | .answerCharacter _ _ _ | .answerCharacterTimeout _ | .answerTailStartBit _
  | .answerTailEnd _ | .attemptGapEnd _ _ | .receiveLineToMark _ | .lineStuck _ | .transmitterFault _
  | .blockedLineCheckExpiry _ | .blockedLineCheckSpace _ | .feederClear _ | .readOutcomeOk _ | .setPortOutcomeOk _
  | .outcomeFailed _ | .staleOutcome _ | .pacingTimerExpiry _ | .probeOutcome _ _ | .enumerationRequestTaken _ _
  | .forgetOutcome _ _ | .enumIdentifyOutcome _ _ | .assignOutcome _ _ | .lostReport | .returnReport
  | .vacateReport | .enumerationStartReport | .enumerationEndReport | .supplyLowReport | .supplyClearReport
  | .logWrite | .logEntryWritten | .logDrop | .logOverflowed | .logConsumer _ | .scanIntervalExpiry
  | .sequenceStart | .settleEnd | .conversionEnd _ | .lineupSwitchReport | .closeOut _ | .closeRegistrationQueued
  | .closeRegistration | .epochRegistration | .enrolInit | .awaitService | .startService | .stopService
  | .moveNotice | .retierNotice | .outageBegin | .outageEnd | .overlapAnswer | .ppvCharge | .ppvSettle | .sweepStep => none

/-- A command is well formed when it fails no check. -/
def Instr.wf (c : Instr) : Bool := c.illFormed.isNone

end Sys2Proof
end

