-- ==== Sys2Proof/Laws/PerInstr.lean ====
section
/-! SUPPORT. The statements made command by command. Family `Forms`: a command that is refused for its word is the arrival
of a word written by the computer (R171); no other command reads one. -/

open Sys2Proof

/-- The family's statement about one command. -/
def Sys2Proof.Laws.Forms.Statement (c : Instr) : Prop := c.illFormed = some .word → Machine.isArrival c = true

theorem Sys2Proof.Laws.Forms.powerOn : Sys2Proof.Laws.Forms.Statement (.powerOn) := nofun
theorem Sys2Proof.Laws.Forms.resetLine : Sys2Proof.Laws.Forms.Statement (.resetLine) := nofun
theorem Sys2Proof.Laws.Forms.resetLineHeld : Sys2Proof.Laws.Forms.Statement (.resetLineHeld) := nofun
theorem Sys2Proof.Laws.Forms.computerRead (addr : WordAddr) : Sys2Proof.Laws.Forms.Statement (.computerRead addr) :=
  nofun
theorem Sys2Proof.Laws.Forms.computerWrite (addr : WordAddr) (be : BitVec 4) (data : Word) : Sys2Proof.Laws.Forms.Statement (.computerWrite addr be data) :=
  nofun
theorem Sys2Proof.Laws.Forms.pendingSubmissionHanded : Sys2Proof.Laws.Forms.Statement (.pendingSubmissionHanded) :=
  nofun
theorem Sys2Proof.Laws.Forms.memoryPortGrant : Sys2Proof.Laws.Forms.Statement (.memoryPortGrant) := nofun
theorem Sys2Proof.Laws.Forms.burstComplete : Sys2Proof.Laws.Forms.Statement (.burstComplete) := nofun
theorem Sys2Proof.Laws.Forms.passedCycleCarried : Sys2Proof.Laws.Forms.Statement (.passedCycleCarried) := nofun
theorem Sys2Proof.Laws.Forms.run (w : Word) : Sys2Proof.Laws.Forms.Statement (.run w) := fun _ => rfl
theorem Sys2Proof.Laws.Forms.halt (w : Word) : Sys2Proof.Laws.Forms.Statement (.halt w) := fun _ => rfl
theorem Sys2Proof.Laws.Forms.restart (w : Word) : Sys2Proof.Laws.Forms.Statement (.restart w) := fun _ => rfl
theorem Sys2Proof.Laws.Forms.clearStatus (w : Word) : Sys2Proof.Laws.Forms.Statement (.clearStatus w) := fun _ => rfl
theorem Sys2Proof.Laws.Forms.controlBadAction (w : Word) : Sys2Proof.Laws.Forms.Statement (.controlBadAction w) :=
  fun _ => rfl
theorem Sys2Proof.Laws.Forms.configurationCheck : Sys2Proof.Laws.Forms.Statement (.configurationCheck) := nofun
theorem Sys2Proof.Laws.Forms.directoryLoadEntry : Sys2Proof.Laws.Forms.Statement (.directoryLoadEntry) := nofun
theorem Sys2Proof.Laws.Forms.billingLoad : Sys2Proof.Laws.Forms.Statement (.billingLoad) := nofun
theorem Sys2Proof.Laws.Forms.carrierLossLoad : Sys2Proof.Laws.Forms.Statement (.carrierLossLoad) := nofun
theorem Sys2Proof.Laws.Forms.subscriberPassStep : Sys2Proof.Laws.Forms.Statement (.subscriberPassStep) := nofun
theorem Sys2Proof.Laws.Forms.lineupStartup : Sys2Proof.Laws.Forms.Statement (.lineupStartup) := nofun
theorem Sys2Proof.Laws.Forms.scannerStartup : Sys2Proof.Laws.Forms.Statement (.scannerStartup) := nofun
theorem Sys2Proof.Laws.Forms.outageRebuild : Sys2Proof.Laws.Forms.Statement (.outageRebuild) := nofun
theorem Sys2Proof.Laws.Forms.reconciliationStep : Sys2Proof.Laws.Forms.Statement (.reconciliationStep) := nofun
theorem Sys2Proof.Laws.Forms.entryToRunning : Sys2Proof.Laws.Forms.Statement (.entryToRunning) := nofun
theorem Sys2Proof.Laws.Forms.haltedEntry : Sys2Proof.Laws.Forms.Statement (.haltedEntry) := nofun
theorem Sys2Proof.Laws.Forms.minuteEvent : Sys2Proof.Laws.Forms.Statement (.minuteEvent) := nofun
theorem Sys2Proof.Laws.Forms.halfSecondTick : Sys2Proof.Laws.Forms.Statement (.halfSecondTick) := nofun
theorem Sys2Proof.Laws.Forms.timeSet (w : Word) : Sys2Proof.Laws.Forms.Statement (.timeSet w) := fun _ => rfl
theorem Sys2Proof.Laws.Forms.heartbeat (w : Word) : Sys2Proof.Laws.Forms.Statement (.heartbeat w) := fun _ => rfl
theorem Sys2Proof.Laws.Forms.supervisionExpiry : Sys2Proof.Laws.Forms.Statement (.supervisionExpiry) := nofun
theorem Sys2Proof.Laws.Forms.orderArrival (i : Nat) (w : Word) : Sys2Proof.Laws.Forms.Statement (.orderArrival i w) :=
  fun _ => rfl
theorem Sys2Proof.Laws.Forms.backlogWalkStep : Sys2Proof.Laws.Forms.Statement (.backlogWalkStep) := nofun
theorem Sys2Proof.Laws.Forms.badOrder : Sys2Proof.Laws.Forms.Statement (.badOrder) := nofun
theorem Sys2Proof.Laws.Forms.enrol : Sys2Proof.Laws.Forms.Statement (.enrol) := nofun
theorem Sys2Proof.Laws.Forms.connect : Sys2Proof.Laws.Forms.Statement (.connect) := nofun
theorem Sys2Proof.Laws.Forms.disconnect : Sys2Proof.Laws.Forms.Statement (.disconnect) := nofun
theorem Sys2Proof.Laws.Forms.retier : Sys2Proof.Laws.Forms.Statement (.retier) := nofun
theorem Sys2Proof.Laws.Forms.move : Sys2Proof.Laws.Forms.Statement (.move) := nofun
theorem Sys2Proof.Laws.Forms.buy : Sys2Proof.Laws.Forms.Statement (.buy) := nofun
theorem Sys2Proof.Laws.Forms.cancel : Sys2Proof.Laws.Forms.Statement (.cancel) := nofun
theorem Sys2Proof.Laws.Forms.audit : Sys2Proof.Laws.Forms.Statement (.audit) := nofun
theorem Sys2Proof.Laws.Forms.remove : Sys2Proof.Laws.Forms.Statement (.remove) := nofun
theorem Sys2Proof.Laws.Forms.transactionReport : Sys2Proof.Laws.Forms.Statement (.transactionReport) := nofun
theorem Sys2Proof.Laws.Forms.confirmation : Sys2Proof.Laws.Forms.Statement (.confirmation) := nofun
theorem Sys2Proof.Laws.Forms.lostTapReport : Sys2Proof.Laws.Forms.Statement (.lostTapReport) := nofun
theorem Sys2Proof.Laws.Forms.blockedReport : Sys2Proof.Laws.Forms.Statement (.blockedReport) := nofun
theorem Sys2Proof.Laws.Forms.eventStartReport : Sys2Proof.Laws.Forms.Statement (.eventStartReport) := nofun
theorem Sys2Proof.Laws.Forms.eventEndReport : Sys2Proof.Laws.Forms.Statement (.eventEndReport) := nofun
theorem Sys2Proof.Laws.Forms.eventDropReport : Sys2Proof.Laws.Forms.Statement (.eventDropReport) := nofun
theorem Sys2Proof.Laws.Forms.overlapReport : Sys2Proof.Laws.Forms.Statement (.overlapReport) := nofun
theorem Sys2Proof.Laws.Forms.settleAnswer : Sys2Proof.Laws.Forms.Statement (.settleAnswer) := nofun
theorem Sys2Proof.Laws.Forms.refreshRequest : Sys2Proof.Laws.Forms.Statement (.refreshRequest) := nofun
theorem Sys2Proof.Laws.Forms.noticeHanded (b : Blk) : Sys2Proof.Laws.Forms.Statement (.noticeHanded b) := fun h => by
  revert h; simp only [Instr.illFormed, Ill.unless]; split <;> simp
theorem Sys2Proof.Laws.Forms.commit (w : Word) : Sys2Proof.Laws.Forms.Statement (.commit w) := fun _ => rfl
theorem Sys2Proof.Laws.Forms.withdraw (w : Word) : Sys2Proof.Laws.Forms.Statement (.withdraw w) := fun _ => rfl
theorem Sys2Proof.Laws.Forms.commitBadAction (w : Word) : Sys2Proof.Laws.Forms.Statement (.commitBadAction w) :=
  fun _ => rfl
theorem Sys2Proof.Laws.Forms.validationBurst : Sys2Proof.Laws.Forms.Statement (.validationBurst) := nofun
theorem Sys2Proof.Laws.Forms.epochSwitch : Sys2Proof.Laws.Forms.Statement (.epochSwitch) := nofun
theorem Sys2Proof.Laws.Forms.transactionStart (f : Feeder) (mark : Bool) : Sys2Proof.Laws.Forms.Statement (.transactionStart f mark) :=
  nofun
theorem Sys2Proof.Laws.Forms.collision (f : Feeder) : Sys2Proof.Laws.Forms.Statement (.collision f) := nofun
theorem Sys2Proof.Laws.Forms.callSent (f : Feeder) : Sys2Proof.Laws.Forms.Statement (.callSent f) := nofun
theorem Sys2Proof.Laws.Forms.answerStartBit (f : Feeder) (latency : Nat) : Sys2Proof.Laws.Forms.Statement (.answerStartBit f latency) := fun h => by
  revert h; simp only [Instr.illFormed, Ill.unless]; split <;> simp
theorem Sys2Proof.Laws.Forms.answerWindowExpiry (f : Feeder) : Sys2Proof.Laws.Forms.Statement (.answerWindowExpiry f) :=
  nofun
theorem Sys2Proof.Laws.Forms.answerCharacter (f : Feeder) (c : Byte) (stopMark : Bool) : Sys2Proof.Laws.Forms.Statement (.answerCharacter f c stopMark) :=
  nofun
theorem Sys2Proof.Laws.Forms.answerCharacterTimeout (f : Feeder) : Sys2Proof.Laws.Forms.Statement (.answerCharacterTimeout f) :=
  nofun
theorem Sys2Proof.Laws.Forms.answerTailStartBit (f : Feeder) : Sys2Proof.Laws.Forms.Statement (.answerTailStartBit f) :=
  nofun
theorem Sys2Proof.Laws.Forms.answerTailEnd (f : Feeder) : Sys2Proof.Laws.Forms.Statement (.answerTailEnd f) := nofun
theorem Sys2Proof.Laws.Forms.attemptGapEnd (f : Feeder) (mark : Bool) : Sys2Proof.Laws.Forms.Statement (.attemptGapEnd f mark) :=
  nofun
theorem Sys2Proof.Laws.Forms.receiveLineToMark (f : Feeder) : Sys2Proof.Laws.Forms.Statement (.receiveLineToMark f) :=
  nofun
theorem Sys2Proof.Laws.Forms.lineStuck (f : Feeder) : Sys2Proof.Laws.Forms.Statement (.lineStuck f) := nofun
theorem Sys2Proof.Laws.Forms.transmitterFault (f : Feeder) : Sys2Proof.Laws.Forms.Statement (.transmitterFault f) :=
  nofun
theorem Sys2Proof.Laws.Forms.blockedLineCheckExpiry (f : Feeder) : Sys2Proof.Laws.Forms.Statement (.blockedLineCheckExpiry f) :=
  nofun
theorem Sys2Proof.Laws.Forms.blockedLineCheckSpace (f : Feeder) : Sys2Proof.Laws.Forms.Statement (.blockedLineCheckSpace f) :=
  nofun
theorem Sys2Proof.Laws.Forms.feederClear (f : Feeder) : Sys2Proof.Laws.Forms.Statement (.feederClear f) := nofun
theorem Sys2Proof.Laws.Forms.readOutcomeOk (f : Feeder) : Sys2Proof.Laws.Forms.Statement (.readOutcomeOk f) := nofun
theorem Sys2Proof.Laws.Forms.setPortOutcomeOk (f : Feeder) : Sys2Proof.Laws.Forms.Statement (.setPortOutcomeOk f) :=
  nofun
theorem Sys2Proof.Laws.Forms.outcomeFailed (f : Feeder) : Sys2Proof.Laws.Forms.Statement (.outcomeFailed f) := nofun
theorem Sys2Proof.Laws.Forms.staleOutcome (f : Feeder) : Sys2Proof.Laws.Forms.Statement (.staleOutcome f) := nofun
theorem Sys2Proof.Laws.Forms.pacingTimerExpiry (f : Feeder) : Sys2Proof.Laws.Forms.Statement (.pacingTimerExpiry f) :=
  nofun
theorem Sys2Proof.Laws.Forms.probeOutcome (f : Feeder) (mark : Bool) : Sys2Proof.Laws.Forms.Statement (.probeOutcome f mark) :=
  nofun
theorem Sys2Proof.Laws.Forms.enumerateFresh (w : Word) : Sys2Proof.Laws.Forms.Statement (.enumerateFresh w) :=
  fun _ => rfl
theorem Sys2Proof.Laws.Forms.enumerateExtend (w : Word) : Sys2Proof.Laws.Forms.Statement (.enumerateExtend w) :=
  fun _ => rfl
theorem Sys2Proof.Laws.Forms.enumerateBadAction (w : Word) : Sys2Proof.Laws.Forms.Statement (.enumerateBadAction w) :=
  fun _ => rfl
theorem Sys2Proof.Laws.Forms.enumerationRequestTaken (f : Feeder) (mark : Bool) : Sys2Proof.Laws.Forms.Statement (.enumerationRequestTaken f mark) :=
  nofun
theorem Sys2Proof.Laws.Forms.forgetOutcome (f : Feeder) (mark : Bool) : Sys2Proof.Laws.Forms.Statement (.forgetOutcome f mark) :=
  nofun
theorem Sys2Proof.Laws.Forms.enumIdentifyOutcome (f : Feeder) (mark : Bool) : Sys2Proof.Laws.Forms.Statement (.enumIdentifyOutcome f mark) :=
  nofun
theorem Sys2Proof.Laws.Forms.assignOutcome (f : Feeder) (mark : Bool) : Sys2Proof.Laws.Forms.Statement (.assignOutcome f mark) :=
  nofun
theorem Sys2Proof.Laws.Forms.lostReport : Sys2Proof.Laws.Forms.Statement (.lostReport) := nofun
theorem Sys2Proof.Laws.Forms.returnReport : Sys2Proof.Laws.Forms.Statement (.returnReport) := nofun
theorem Sys2Proof.Laws.Forms.vacateReport : Sys2Proof.Laws.Forms.Statement (.vacateReport) := nofun
theorem Sys2Proof.Laws.Forms.enumerationStartReport : Sys2Proof.Laws.Forms.Statement (.enumerationStartReport) := nofun
theorem Sys2Proof.Laws.Forms.enumerationEndReport : Sys2Proof.Laws.Forms.Statement (.enumerationEndReport) := nofun
theorem Sys2Proof.Laws.Forms.supplyLowReport : Sys2Proof.Laws.Forms.Statement (.supplyLowReport) := nofun
theorem Sys2Proof.Laws.Forms.supplyClearReport : Sys2Proof.Laws.Forms.Statement (.supplyClearReport) := nofun
theorem Sys2Proof.Laws.Forms.alarmSubmissionTaken (b : Blk) : Sys2Proof.Laws.Forms.Statement (.alarmSubmissionTaken b) := fun h => by
  revert h; simp only [Instr.illFormed, Ill.unless]; split <;> simp
theorem Sys2Proof.Laws.Forms.logWrite : Sys2Proof.Laws.Forms.Statement (.logWrite) := nofun
theorem Sys2Proof.Laws.Forms.logEntryWritten : Sys2Proof.Laws.Forms.Statement (.logEntryWritten) := nofun
theorem Sys2Proof.Laws.Forms.logDrop : Sys2Proof.Laws.Forms.Statement (.logDrop) := nofun
theorem Sys2Proof.Laws.Forms.logOverflowed : Sys2Proof.Laws.Forms.Statement (.logOverflowed) := nofun
theorem Sys2Proof.Laws.Forms.logConsumer (w : Word) : Sys2Proof.Laws.Forms.Statement (.logConsumer w) := fun _ => rfl
theorem Sys2Proof.Laws.Forms.scanOff (w : Word) : Sys2Proof.Laws.Forms.Statement (.scanOff w) := fun _ => rfl
theorem Sys2Proof.Laws.Forms.scanOnce (w : Word) : Sys2Proof.Laws.Forms.Statement (.scanOnce w) := fun _ => rfl
theorem Sys2Proof.Laws.Forms.scanPeriodic (w : Word) : Sys2Proof.Laws.Forms.Statement (.scanPeriodic w) := fun _ => rfl
theorem Sys2Proof.Laws.Forms.scanContinuous (w : Word) : Sys2Proof.Laws.Forms.Statement (.scanContinuous w) :=
  fun _ => rfl
theorem Sys2Proof.Laws.Forms.scanBadAction (w : Word) : Sys2Proof.Laws.Forms.Statement (.scanBadAction w) :=
  fun _ => rfl
theorem Sys2Proof.Laws.Forms.scanIntervalExpiry : Sys2Proof.Laws.Forms.Statement (.scanIntervalExpiry) := nofun
theorem Sys2Proof.Laws.Forms.sequenceStart : Sys2Proof.Laws.Forms.Statement (.sequenceStart) := nofun
theorem Sys2Proof.Laws.Forms.settleEnd : Sys2Proof.Laws.Forms.Statement (.settleEnd) := nofun
theorem Sys2Proof.Laws.Forms.conversionEnd (code : BitVec 12) : Sys2Proof.Laws.Forms.Statement (.conversionEnd code) :=
  nofun
theorem Sys2Proof.Laws.Forms.lineupSwitchReport : Sys2Proof.Laws.Forms.Statement (.lineupSwitchReport) := nofun
theorem Sys2Proof.Laws.Forms.closeOut (w : Word) : Sys2Proof.Laws.Forms.Statement (.closeOut w) := fun _ => rfl
theorem Sys2Proof.Laws.Forms.closeRegistrationQueued : Sys2Proof.Laws.Forms.Statement (.closeRegistrationQueued) :=
  nofun
theorem Sys2Proof.Laws.Forms.closeRegistration : Sys2Proof.Laws.Forms.Statement (.closeRegistration) := nofun
theorem Sys2Proof.Laws.Forms.epochRegistration : Sys2Proof.Laws.Forms.Statement (.epochRegistration) := nofun
theorem Sys2Proof.Laws.Forms.enrolInit : Sys2Proof.Laws.Forms.Statement (.enrolInit) := nofun
theorem Sys2Proof.Laws.Forms.awaitService : Sys2Proof.Laws.Forms.Statement (.awaitService) := nofun
theorem Sys2Proof.Laws.Forms.startService : Sys2Proof.Laws.Forms.Statement (.startService) := nofun
theorem Sys2Proof.Laws.Forms.stopService : Sys2Proof.Laws.Forms.Statement (.stopService) := nofun
theorem Sys2Proof.Laws.Forms.moveNotice : Sys2Proof.Laws.Forms.Statement (.moveNotice) := nofun
theorem Sys2Proof.Laws.Forms.retierNotice : Sys2Proof.Laws.Forms.Statement (.retierNotice) := nofun
theorem Sys2Proof.Laws.Forms.outageBegin : Sys2Proof.Laws.Forms.Statement (.outageBegin) := nofun
theorem Sys2Proof.Laws.Forms.outageEnd : Sys2Proof.Laws.Forms.Statement (.outageEnd) := nofun
theorem Sys2Proof.Laws.Forms.overlapAnswer : Sys2Proof.Laws.Forms.Statement (.overlapAnswer) := nofun
theorem Sys2Proof.Laws.Forms.ppvCharge : Sys2Proof.Laws.Forms.Statement (.ppvCharge) := nofun
theorem Sys2Proof.Laws.Forms.ppvSettle : Sys2Proof.Laws.Forms.Statement (.ppvSettle) := nofun
theorem Sys2Proof.Laws.Forms.sweepStep : Sys2Proof.Laws.Forms.Statement (.sweepStep) := nofun
end

