-- ==== Sys2Proof/Laws/State.lean ====
section
/-! SUPPORT. The fields of State after each named update, what the reads by index give after the writes by index, and what
the shared operations of the blocks can do: asking for a burst, the turn at the port, a submission, and a block's work. -/

namespace Sys2Proof.Machine

/-! ### State.setEng -/

@[simp] theorem State.setEng_mem (s : State) (f : Feeder) (e : Engine) : (s.setEng f e).mem = s.mem := rfl
@[simp] theorem State.setEng_run (s : State) (f : Feeder) (e : Engine) : (s.setEng f e).run = s.run := rfl
@[simp] theorem State.setEng_time (s : State) (f : Feeder) (e : Engine) : (s.setEng f e).time = s.time := rfl
@[simp] theorem State.setEng_path (s : State) (f : Feeder) (e : Engine) : (s.setEng f e).path = s.path := rfl
@[simp] theorem State.setEng_cfg (s : State) (f : Feeder) (e : Engine) : (s.setEng f e).cfg = s.cfg := rfl
@[simp] theorem State.setEng_order (s : State) (f : Feeder) (e : Engine) : (s.setEng f e).order = s.order := rfl
@[simp] theorem State.setEng_lineUp (s : State) (f : Feeder) (e : Engine) : (s.setEng f e).lineUp = s.lineUp := rfl
@[simp] theorem State.setEng_dir (s : State) (f : Feeder) (e : Engine) : (s.setEng f e).dir = s.dir := rfl
@[simp] theorem State.setEng_engines (s : State) (f : Feeder) (e : Engine) :
    (s.setEng f e).engines = s.engines.set f e := rfl
@[simp] theorem State.setEng_corr (s : State) (f : Feeder) (e : Engine) : (s.setEng f e).corr = s.corr := rfl
@[simp] theorem State.setEng_log (s : State) (f : Feeder) (e : Engine) : (s.setEng f e).log = s.log := rfl
@[simp] theorem State.setEng_scan (s : State) (f : Feeder) (e : Engine) : (s.setEng f e).scan = s.scan := rfl
@[simp] theorem State.setEng_bill (s : State) (f : Feeder) (e : Engine) : (s.setEng f e).bill = s.bill := rfl
@[simp] theorem State.setEng_pending (s : State) (f : Feeder) (e : Engine) : (s.setEng f e).pending = s.pending := rfl

/-! ### State.setEntry -/

@[simp] theorem State.setEntry_mem (s : State) (e : EntryId) (x : Entry) : (s.setEntry e x).mem = s.mem := rfl
@[simp] theorem State.setEntry_run (s : State) (e : EntryId) (x : Entry) : (s.setEntry e x).run = s.run := rfl
@[simp] theorem State.setEntry_time (s : State) (e : EntryId) (x : Entry) : (s.setEntry e x).time = s.time := rfl
@[simp] theorem State.setEntry_path (s : State) (e : EntryId) (x : Entry) : (s.setEntry e x).path = s.path := rfl
@[simp] theorem State.setEntry_cfg (s : State) (e : EntryId) (x : Entry) : (s.setEntry e x).cfg = s.cfg := rfl
@[simp] theorem State.setEntry_order (s : State) (e : EntryId) (x : Entry) : (s.setEntry e x).order = s.order := rfl
@[simp] theorem State.setEntry_lineUp (s : State) (e : EntryId) (x : Entry) : (s.setEntry e x).lineUp = s.lineUp :=
  rfl
@[simp] theorem State.setEntry_dir (s : State) (e : EntryId) (x : Entry) :
    (s.setEntry e x).dir = { s.dir with pool := s.dir.pool.set e x } := rfl
@[simp] theorem State.setEntry_engines (s : State) (e : EntryId) (x : Entry) : (s.setEntry e x).engines = s.engines :=
  rfl
@[simp] theorem State.setEntry_corr (s : State) (e : EntryId) (x : Entry) : (s.setEntry e x).corr = s.corr := rfl
@[simp] theorem State.setEntry_log (s : State) (e : EntryId) (x : Entry) : (s.setEntry e x).log = s.log := rfl
@[simp] theorem State.setEntry_scan (s : State) (e : EntryId) (x : Entry) : (s.setEntry e x).scan = s.scan := rfl
@[simp] theorem State.setEntry_bill (s : State) (e : EntryId) (x : Entry) : (s.setEntry e x).bill = s.bill := rfl
@[simp] theorem State.setEntry_pending (s : State) (e : EntryId) (x : Entry) : (s.setEntry e x).pending = s.pending :=
  rfl

/-! ### State.setRoll -/

@[simp] theorem State.setRoll_mem (s : State) (f : Feeder) (r : RollCall) : (s.setRoll f r).mem = s.mem := rfl
@[simp] theorem State.setRoll_run (s : State) (f : Feeder) (r : RollCall) : (s.setRoll f r).run = s.run := rfl
@[simp] theorem State.setRoll_time (s : State) (f : Feeder) (r : RollCall) : (s.setRoll f r).time = s.time := rfl
@[simp] theorem State.setRoll_path (s : State) (f : Feeder) (r : RollCall) : (s.setRoll f r).path = s.path := rfl
@[simp] theorem State.setRoll_cfg (s : State) (f : Feeder) (r : RollCall) : (s.setRoll f r).cfg = s.cfg := rfl
@[simp] theorem State.setRoll_order (s : State) (f : Feeder) (r : RollCall) : (s.setRoll f r).order = s.order := rfl
@[simp] theorem State.setRoll_lineUp (s : State) (f : Feeder) (r : RollCall) : (s.setRoll f r).lineUp = s.lineUp :=
  rfl
@[simp] theorem State.setRoll_dir (s : State) (f : Feeder) (r : RollCall) :
    (s.setRoll f r).dir = { s.dir with rolls := s.dir.rolls.set f r } := rfl
@[simp] theorem State.setRoll_engines (s : State) (f : Feeder) (r : RollCall) : (s.setRoll f r).engines = s.engines :=
  rfl
@[simp] theorem State.setRoll_corr (s : State) (f : Feeder) (r : RollCall) : (s.setRoll f r).corr = s.corr := rfl
@[simp] theorem State.setRoll_log (s : State) (f : Feeder) (r : RollCall) : (s.setRoll f r).log = s.log := rfl
@[simp] theorem State.setRoll_scan (s : State) (f : Feeder) (r : RollCall) : (s.setRoll f r).scan = s.scan := rfl
@[simp] theorem State.setRoll_bill (s : State) (f : Feeder) (r : RollCall) : (s.setRoll f r).bill = s.bill := rfl
@[simp] theorem State.setRoll_pending (s : State) (f : Feeder) (r : RollCall) : (s.setRoll f r).pending = s.pending :=
  rfl

/-! ### State.setPacing -/

@[simp] theorem State.setPacing_mem (s : State) (f : Feeder) (t : Timer) : (s.setPacing f t).mem = s.mem := rfl
@[simp] theorem State.setPacing_run (s : State) (f : Feeder) (t : Timer) : (s.setPacing f t).run = s.run := rfl
@[simp] theorem State.setPacing_time (s : State) (f : Feeder) (t : Timer) :
    (s.setPacing f t).time = { s.time with pacing := s.time.pacing.set f t } := rfl
@[simp] theorem State.setPacing_path (s : State) (f : Feeder) (t : Timer) : (s.setPacing f t).path = s.path := rfl
@[simp] theorem State.setPacing_cfg (s : State) (f : Feeder) (t : Timer) : (s.setPacing f t).cfg = s.cfg := rfl
@[simp] theorem State.setPacing_order (s : State) (f : Feeder) (t : Timer) : (s.setPacing f t).order = s.order := rfl
@[simp] theorem State.setPacing_lineUp (s : State) (f : Feeder) (t : Timer) : (s.setPacing f t).lineUp = s.lineUp :=
  rfl
@[simp] theorem State.setPacing_dir (s : State) (f : Feeder) (t : Timer) : (s.setPacing f t).dir = s.dir := rfl
@[simp] theorem State.setPacing_engines (s : State) (f : Feeder) (t : Timer) :
    (s.setPacing f t).engines = s.engines := rfl
@[simp] theorem State.setPacing_corr (s : State) (f : Feeder) (t : Timer) : (s.setPacing f t).corr = s.corr := rfl
@[simp] theorem State.setPacing_log (s : State) (f : Feeder) (t : Timer) : (s.setPacing f t).log = s.log := rfl
@[simp] theorem State.setPacing_scan (s : State) (f : Feeder) (t : Timer) : (s.setPacing f t).scan = s.scan := rfl
@[simp] theorem State.setPacing_bill (s : State) (f : Feeder) (t : Timer) : (s.setPacing f t).bill = s.bill := rfl
@[simp] theorem State.setPacing_pending (s : State) (f : Feeder) (t : Timer) :
    (s.setPacing f t).pending = s.pending := rfl

/-! ### State.setBlockedCheck -/

@[simp] theorem State.setBlockedCheck_mem (s : State) (f : Feeder) (t : Timer) :
    (s.setBlockedCheck f t).mem = s.mem := rfl
@[simp] theorem State.setBlockedCheck_run (s : State) (f : Feeder) (t : Timer) :
    (s.setBlockedCheck f t).run = s.run := rfl
@[simp] theorem State.setBlockedCheck_time (s : State) (f : Feeder) (t : Timer) :
    (s.setBlockedCheck f t).time = { s.time with blockedCheck := s.time.blockedCheck.set f t } := rfl
@[simp] theorem State.setBlockedCheck_path (s : State) (f : Feeder) (t : Timer) :
    (s.setBlockedCheck f t).path = s.path := rfl
@[simp] theorem State.setBlockedCheck_cfg (s : State) (f : Feeder) (t : Timer) :
    (s.setBlockedCheck f t).cfg = s.cfg := rfl
@[simp] theorem State.setBlockedCheck_order (s : State) (f : Feeder) (t : Timer) :
    (s.setBlockedCheck f t).order = s.order := rfl
@[simp] theorem State.setBlockedCheck_lineUp (s : State) (f : Feeder) (t : Timer) :
    (s.setBlockedCheck f t).lineUp = s.lineUp := rfl
@[simp] theorem State.setBlockedCheck_dir (s : State) (f : Feeder) (t : Timer) :
    (s.setBlockedCheck f t).dir = s.dir := rfl
@[simp] theorem State.setBlockedCheck_engines (s : State) (f : Feeder) (t : Timer) :
    (s.setBlockedCheck f t).engines = s.engines := rfl
@[simp] theorem State.setBlockedCheck_corr (s : State) (f : Feeder) (t : Timer) :
    (s.setBlockedCheck f t).corr = s.corr := rfl
@[simp] theorem State.setBlockedCheck_log (s : State) (f : Feeder) (t : Timer) :
    (s.setBlockedCheck f t).log = s.log := rfl
@[simp] theorem State.setBlockedCheck_scan (s : State) (f : Feeder) (t : Timer) :
    (s.setBlockedCheck f t).scan = s.scan := rfl
@[simp] theorem State.setBlockedCheck_bill (s : State) (f : Feeder) (t : Timer) :
    (s.setBlockedCheck f t).bill = s.bill := rfl
@[simp] theorem State.setBlockedCheck_pending (s : State) (f : Feeder) (t : Timer) :
    (s.setBlockedCheck f t).pending = s.pending := rfl

/-! ### State.freeRead and State.tookRead -/

/-- Where memory still holds the words that the ended reads of a block found, the block sees memory as it stands. -/
theorem State.seenBy_eq_mem (s : State) (r : Requester) (hm : Memory.wf s.mem = true)
    (h : ∀ x ∈ s.path.reads[r.idx], x.words = memWords s.mem x.addr x.len) : s.seenBy r = s.mem := by
  unfold State.seenBy
  generalize s.path.reads[r.idx] = reads at h
  induction reads with
  | nil => rfl
  | cons x xs ih =>
    rw [List.foldl_cons, h x (List.mem_cons_self ..), memWriteWords_memWords _ _ _ hm]
    exact ih fun y hy => h y (List.mem_cons_of_mem _ hy)

@[simp] theorem State.freeRead_mem (s : State) (r : Requester) : (s.freeRead r).mem = s.mem := by
  unfold State.freeRead; split <;> first | rfl | (split <;> rfl)
@[simp] theorem State.freeRead_run (s : State) (r : Requester) : (s.freeRead r).run = s.run := by
  unfold State.freeRead; split <;> first | rfl | (split <;> rfl)
@[simp] theorem State.freeRead_time (s : State) (r : Requester) : (s.freeRead r).time = s.time := by
  unfold State.freeRead; split <;> first | rfl | (split <;> rfl)
@[simp] theorem State.freeRead_cfg (s : State) (r : Requester) : (s.freeRead r).cfg = s.cfg := by
  unfold State.freeRead; split <;> first | rfl | (split <;> rfl)
@[simp] theorem State.freeRead_order (s : State) (r : Requester) : (s.freeRead r).order = s.order := by
  unfold State.freeRead; split <;> first | rfl | (split <;> rfl)
@[simp] theorem State.freeRead_lineUp (s : State) (r : Requester) : (s.freeRead r).lineUp = s.lineUp := by
  unfold State.freeRead; split <;> first | rfl | (split <;> rfl)
@[simp] theorem State.freeRead_dir (s : State) (r : Requester) : (s.freeRead r).dir = s.dir := by
  unfold State.freeRead; split <;> first | rfl | (split <;> rfl)
@[simp] theorem State.freeRead_engines (s : State) (r : Requester) : (s.freeRead r).engines = s.engines := by
  unfold State.freeRead; split <;> first | rfl | (split <;> rfl)
@[simp] theorem State.freeRead_corr (s : State) (r : Requester) : (s.freeRead r).corr = s.corr := by
  unfold State.freeRead; split <;> first | rfl | (split <;> rfl)
@[simp] theorem State.freeRead_log (s : State) (r : Requester) : (s.freeRead r).log = s.log := by
  unfold State.freeRead; split <;> first | rfl | (split <;> rfl)
@[simp] theorem State.freeRead_scan (s : State) (r : Requester) : (s.freeRead r).scan = s.scan := by
  unfold State.freeRead; split <;> first | rfl | (split <;> rfl)
@[simp] theorem State.freeRead_bill (s : State) (r : Requester) : (s.freeRead r).bill = s.bill := by
  unfold State.freeRead; split <;> first | rfl | (split <;> rfl)
@[simp] theorem State.freeRead_pending (s : State) (r : Requester) : (s.freeRead r).pending = s.pending := by
  unfold State.freeRead; split <;> first | rfl | (split <;> rfl)
@[simp] theorem State.freeRead_lines (s : State) (r : Requester) : (s.freeRead r).path.lines = s.path.lines := by
  unfold State.freeRead; split <;> first | rfl | (split <;> rfl)
@[simp] theorem State.freeRead_cycle (s : State) (r : Requester) : (s.freeRead r).path.cycle = s.path.cycle := by
  unfold State.freeRead; split <;> first | rfl | (split <;> rfl)
@[simp] theorem State.freeRead_arrivals (s : State) (r : Requester) : (s.freeRead r).path.arrivals = s.path.arrivals := by
  unfold State.freeRead; split <;> first | rfl | (split <;> rfl)
@[simp] theorem State.freeRead_ring (s : State) (r : Requester) : (s.freeRead r).path.ring = s.path.ring := by
  unfold State.freeRead; split <;> first | rfl | (split <;> rfl)
@[simp] theorem State.freeRead_map (s : State) (r : Requester) : (s.freeRead r).path.map = s.path.map := by
  unfold State.freeRead; split <;> first | rfl | (split <;> rfl)
@[simp] theorem State.freeRead_reads (s : State) (r : Requester) : (s.freeRead r).path.reads = s.path.reads := by
  unfold State.freeRead; split <;> first | rfl | (split <;> rfl)

@[simp] theorem State.tookRead_mem (s : State) (r : Requester) : (s.tookRead r).mem = s.mem := s.freeRead_mem r
@[simp] theorem State.tookRead_run (s : State) (r : Requester) : (s.tookRead r).run = s.run := s.freeRead_run r
@[simp] theorem State.tookRead_time (s : State) (r : Requester) : (s.tookRead r).time = s.time := s.freeRead_time r
@[simp] theorem State.tookRead_cfg (s : State) (r : Requester) : (s.tookRead r).cfg = s.cfg := s.freeRead_cfg r
@[simp] theorem State.tookRead_order (s : State) (r : Requester) : (s.tookRead r).order = s.order := s.freeRead_order r
@[simp] theorem State.tookRead_lineUp (s : State) (r : Requester) : (s.tookRead r).lineUp = s.lineUp := s.freeRead_lineUp r
@[simp] theorem State.tookRead_dir (s : State) (r : Requester) : (s.tookRead r).dir = s.dir := s.freeRead_dir r
@[simp] theorem State.tookRead_engines (s : State) (r : Requester) : (s.tookRead r).engines = s.engines := s.freeRead_engines r
@[simp] theorem State.tookRead_corr (s : State) (r : Requester) : (s.tookRead r).corr = s.corr := s.freeRead_corr r
@[simp] theorem State.tookRead_log (s : State) (r : Requester) : (s.tookRead r).log = s.log := s.freeRead_log r
@[simp] theorem State.tookRead_scan (s : State) (r : Requester) : (s.tookRead r).scan = s.scan := s.freeRead_scan r
@[simp] theorem State.tookRead_bill (s : State) (r : Requester) : (s.tookRead r).bill = s.bill := s.freeRead_bill r
@[simp] theorem State.tookRead_pending (s : State) (r : Requester) : (s.tookRead r).pending = s.pending := s.freeRead_pending r
@[simp] theorem State.tookRead_lines (s : State) (r : Requester) : (s.tookRead r).path.lines = s.path.lines :=
  s.freeRead_lines r
@[simp] theorem State.tookRead_cycle (s : State) (r : Requester) : (s.tookRead r).path.cycle = s.path.cycle :=
  s.freeRead_cycle r
@[simp] theorem State.tookRead_arrivals (s : State) (r : Requester) : (s.tookRead r).path.arrivals = s.path.arrivals :=
  s.freeRead_arrivals r
@[simp] theorem State.tookRead_ring (s : State) (r : Requester) : (s.tookRead r).path.ring = s.path.ring :=
  s.freeRead_ring r
@[simp] theorem State.tookRead_map (s : State) (r : Requester) : (s.tookRead r).path.map = s.path.map :=
  s.freeRead_map r
@[simp] theorem State.tookRead_reads (s : State) (r : Requester) :
    (s.tookRead r).path.reads = s.path.reads.set r.idx [] := by
  simp [State.tookRead]

/-! ### State.noTurn and State.stepMade -/

@[simp] theorem State.noTurn_mem (s : State) (r : Requester) : (s.noTurn r).mem = s.mem := rfl
@[simp] theorem State.noTurn_run (s : State) (r : Requester) : (s.noTurn r).run = s.run := rfl
@[simp] theorem State.noTurn_time (s : State) (r : Requester) : (s.noTurn r).time = s.time := rfl
@[simp] theorem State.noTurn_cfg (s : State) (r : Requester) : (s.noTurn r).cfg = s.cfg := rfl
@[simp] theorem State.noTurn_order (s : State) (r : Requester) : (s.noTurn r).order = s.order := rfl
@[simp] theorem State.noTurn_lineUp (s : State) (r : Requester) : (s.noTurn r).lineUp = s.lineUp := rfl
@[simp] theorem State.noTurn_dir (s : State) (r : Requester) : (s.noTurn r).dir = s.dir := rfl
@[simp] theorem State.noTurn_engines (s : State) (r : Requester) : (s.noTurn r).engines = s.engines := rfl
@[simp] theorem State.noTurn_corr (s : State) (r : Requester) : (s.noTurn r).corr = s.corr := rfl
@[simp] theorem State.noTurn_log (s : State) (r : Requester) : (s.noTurn r).log = s.log := rfl
@[simp] theorem State.noTurn_scan (s : State) (r : Requester) : (s.noTurn r).scan = s.scan := rfl
@[simp] theorem State.noTurn_bill (s : State) (r : Requester) : (s.noTurn r).bill = s.bill := rfl
@[simp] theorem State.noTurn_pending (s : State) (r : Requester) : (s.noTurn r).pending = s.pending := rfl
@[simp] theorem State.noTurn_lines (s : State) (r : Requester) : (s.noTurn r).path.lines = s.path.lines := rfl
@[simp] theorem State.noTurn_port (s : State) (r : Requester) : (s.noTurn r).path.port = s.path.port := rfl
@[simp] theorem State.noTurn_cycle (s : State) (r : Requester) : (s.noTurn r).path.cycle = s.path.cycle := rfl
@[simp] theorem State.noTurn_partNext (s : State) (r : Requester) : (s.noTurn r).path.partNext = s.path.partNext := rfl
@[simp] theorem State.noTurn_arrivals (s : State) (r : Requester) : (s.noTurn r).path.arrivals = s.path.arrivals := rfl
@[simp] theorem State.noTurn_ring (s : State) (r : Requester) : (s.noTurn r).path.ring = s.path.ring := rfl
@[simp] theorem State.noTurn_map (s : State) (r : Requester) : (s.noTurn r).path.map = s.path.map := rfl
@[simp] theorem State.noTurn_reads (s : State) (r : Requester) : (s.noTurn r).path.reads = s.path.reads := rfl
@[simp] theorem State.noTurn_turns (s : State) (r : Requester) :
    (s.noTurn r).path.turns = s.path.turns.set r.idx none := rfl
@[simp] theorem State.stepMade_mem (s : State) (r : Requester) (plan : List ReadReq) :
    (s.stepMade r plan).mem = s.mem := by
  unfold State.stepMade; split <;> rfl
@[simp] theorem State.stepMade_run (s : State) (r : Requester) (plan : List ReadReq) :
    (s.stepMade r plan).run = s.run := by
  unfold State.stepMade; split <;> rfl
@[simp] theorem State.stepMade_time (s : State) (r : Requester) (plan : List ReadReq) :
    (s.stepMade r plan).time = s.time := by
  unfold State.stepMade; split <;> rfl
@[simp] theorem State.stepMade_cfg (s : State) (r : Requester) (plan : List ReadReq) :
    (s.stepMade r plan).cfg = s.cfg := by
  unfold State.stepMade; split <;> rfl
@[simp] theorem State.stepMade_order (s : State) (r : Requester) (plan : List ReadReq) :
    (s.stepMade r plan).order = s.order := by
  unfold State.stepMade; split <;> rfl
@[simp] theorem State.stepMade_lineUp (s : State) (r : Requester) (plan : List ReadReq) :
    (s.stepMade r plan).lineUp = s.lineUp := by
  unfold State.stepMade; split <;> rfl
@[simp] theorem State.stepMade_dir (s : State) (r : Requester) (plan : List ReadReq) :
    (s.stepMade r plan).dir = s.dir := by
  unfold State.stepMade; split <;> rfl
@[simp] theorem State.stepMade_engines (s : State) (r : Requester) (plan : List ReadReq) :
    (s.stepMade r plan).engines = s.engines := by
  unfold State.stepMade; split <;> rfl
@[simp] theorem State.stepMade_corr (s : State) (r : Requester) (plan : List ReadReq) :
    (s.stepMade r plan).corr = s.corr := by
  unfold State.stepMade; split <;> rfl
@[simp] theorem State.stepMade_log (s : State) (r : Requester) (plan : List ReadReq) :
    (s.stepMade r plan).log = s.log := by
  unfold State.stepMade; split <;> rfl
@[simp] theorem State.stepMade_scan (s : State) (r : Requester) (plan : List ReadReq) :
    (s.stepMade r plan).scan = s.scan := by
  unfold State.stepMade; split <;> rfl
@[simp] theorem State.stepMade_bill (s : State) (r : Requester) (plan : List ReadReq) :
    (s.stepMade r plan).bill = s.bill := by
  unfold State.stepMade; split <;> rfl
@[simp] theorem State.stepMade_pending (s : State) (r : Requester) (plan : List ReadReq) :
    (s.stepMade r plan).pending = s.pending := by
  unfold State.stepMade; split <;> rfl
@[simp] theorem State.stepMade_lines (s : State) (r : Requester) (plan : List ReadReq) :
    (s.stepMade r plan).path.lines = s.path.lines := by
  unfold State.stepMade; split <;> rfl
@[simp] theorem State.stepMade_port (s : State) (r : Requester) (plan : List ReadReq) :
    (s.stepMade r plan).path.port = s.path.port := by
  unfold State.stepMade; split <;> rfl
@[simp] theorem State.stepMade_cycle (s : State) (r : Requester) (plan : List ReadReq) :
    (s.stepMade r plan).path.cycle = s.path.cycle := by
  unfold State.stepMade; split <;> rfl
@[simp] theorem State.stepMade_partNext (s : State) (r : Requester) (plan : List ReadReq) :
    (s.stepMade r plan).path.partNext = s.path.partNext := by
  unfold State.stepMade; split <;> rfl
@[simp] theorem State.stepMade_arrivals (s : State) (r : Requester) (plan : List ReadReq) :
    (s.stepMade r plan).path.arrivals = s.path.arrivals := by
  unfold State.stepMade; split <;> rfl
@[simp] theorem State.stepMade_ring (s : State) (r : Requester) (plan : List ReadReq) :
    (s.stepMade r plan).path.ring = s.path.ring := by
  unfold State.stepMade; split <;> rfl
@[simp] theorem State.stepMade_map (s : State) (r : Requester) (plan : List ReadReq) :
    (s.stepMade r plan).path.map = s.path.map := by
  unfold State.stepMade; split <;> rfl
@[simp] theorem State.stepMade_reads (s : State) (r : Requester) (plan : List ReadReq) :
    (s.stepMade r plan).path.reads = s.path.reads := by
  unfold State.stepMade; split <;> rfl

/-! ### State.tookReads and State.view -/

@[simp] theorem State.tookReads_mem (s : State) (r : Requester) (plan : List ReadReq) :
    (s.tookReads r plan).mem = s.mem := by
  unfold State.tookReads; split <;> simp
@[simp] theorem State.tookReads_run (s : State) (r : Requester) (plan : List ReadReq) :
    (s.tookReads r plan).run = s.run := by
  unfold State.tookReads; split <;> simp
@[simp] theorem State.tookReads_time (s : State) (r : Requester) (plan : List ReadReq) :
    (s.tookReads r plan).time = s.time := by
  unfold State.tookReads; split <;> simp
@[simp] theorem State.tookReads_cfg (s : State) (r : Requester) (plan : List ReadReq) :
    (s.tookReads r plan).cfg = s.cfg := by
  unfold State.tookReads; split <;> simp
@[simp] theorem State.tookReads_order (s : State) (r : Requester) (plan : List ReadReq) :
    (s.tookReads r plan).order = s.order := by
  unfold State.tookReads; split <;> simp
@[simp] theorem State.tookReads_lineUp (s : State) (r : Requester) (plan : List ReadReq) :
    (s.tookReads r plan).lineUp = s.lineUp := by
  unfold State.tookReads; split <;> simp
@[simp] theorem State.tookReads_dir (s : State) (r : Requester) (plan : List ReadReq) :
    (s.tookReads r plan).dir = s.dir := by
  unfold State.tookReads; split <;> simp
@[simp] theorem State.tookReads_engines (s : State) (r : Requester) (plan : List ReadReq) :
    (s.tookReads r plan).engines = s.engines := by
  unfold State.tookReads; split <;> simp
@[simp] theorem State.tookReads_corr (s : State) (r : Requester) (plan : List ReadReq) :
    (s.tookReads r plan).corr = s.corr := by
  unfold State.tookReads; split <;> simp
@[simp] theorem State.tookReads_log (s : State) (r : Requester) (plan : List ReadReq) :
    (s.tookReads r plan).log = s.log := by
  unfold State.tookReads; split <;> simp
@[simp] theorem State.tookReads_scan (s : State) (r : Requester) (plan : List ReadReq) :
    (s.tookReads r plan).scan = s.scan := by
  unfold State.tookReads; split <;> simp
@[simp] theorem State.tookReads_bill (s : State) (r : Requester) (plan : List ReadReq) :
    (s.tookReads r plan).bill = s.bill := by
  unfold State.tookReads; split <;> simp
@[simp] theorem State.tookReads_pending (s : State) (r : Requester) (plan : List ReadReq) :
    (s.tookReads r plan).pending = s.pending := by
  unfold State.tookReads; split <;> simp
@[simp] theorem State.tookReads_lines (s : State) (r : Requester) (plan : List ReadReq) :
    (s.tookReads r plan).path.lines = s.path.lines := by
  unfold State.tookReads; split <;> simp
@[simp] theorem State.tookReads_cycle (s : State) (r : Requester) (plan : List ReadReq) :
    (s.tookReads r plan).path.cycle = s.path.cycle := by
  unfold State.tookReads; split <;> simp
@[simp] theorem State.tookReads_arrivals (s : State) (r : Requester) (plan : List ReadReq) :
    (s.tookReads r plan).path.arrivals = s.path.arrivals := by
  unfold State.tookReads; split <;> simp
@[simp] theorem State.tookReads_ring (s : State) (r : Requester) (plan : List ReadReq) :
    (s.tookReads r plan).path.ring = s.path.ring := by
  unfold State.tookReads; split <;> simp
@[simp] theorem State.tookReads_map (s : State) (r : Requester) (plan : List ReadReq) :
    (s.tookReads r plan).path.map = s.path.map := by
  unfold State.tookReads; split <;> simp

@[simp] theorem State.view_run (s : State) (r : Requester) : (s.view r).run = s.run := rfl
@[simp] theorem State.view_time (s : State) (r : Requester) : (s.view r).time = s.time := rfl
@[simp] theorem State.view_cfg (s : State) (r : Requester) : (s.view r).cfg = s.cfg := rfl
@[simp] theorem State.view_order (s : State) (r : Requester) : (s.view r).order = s.order := rfl
@[simp] theorem State.view_lineUp (s : State) (r : Requester) : (s.view r).lineUp = s.lineUp := rfl
@[simp] theorem State.view_dir (s : State) (r : Requester) : (s.view r).dir = s.dir := rfl
@[simp] theorem State.view_engines (s : State) (r : Requester) : (s.view r).engines = s.engines := rfl
@[simp] theorem State.view_corr (s : State) (r : Requester) : (s.view r).corr = s.corr := rfl
@[simp] theorem State.view_log (s : State) (r : Requester) : (s.view r).log = s.log := rfl
@[simp] theorem State.view_scan (s : State) (r : Requester) : (s.view r).scan = s.scan := rfl
@[simp] theorem State.view_bill (s : State) (r : Requester) : (s.view r).bill = s.bill := rfl
@[simp] theorem State.view_pending (s : State) (r : Requester) : (s.view r).pending = s.pending := rfl
@[simp] theorem State.view_path (s : State) (r : Requester) : (s.view r).path = s.path := rfl
@[simp] theorem State.view_mem (s : State) (r : Requester) : (s.view r).mem = s.seenBy r := rfl

/-- Before a step's first read has ended, a block sees memory as it stands. -/
theorem State.view_none (s : State) (r : Requester) (h : s.path.reads[r.idx] = []) : s.view r = s := by
  simp [State.view, State.seenBy, h]

/-! ### State.keepTurn: the read that a block presents keeps its place -/

@[simp] theorem State.keepTurn_mem (s : State) (r : Requester) : (s.keepTurn r).mem = s.mem := rfl
@[simp] theorem State.keepTurn_run (s : State) (r : Requester) : (s.keepTurn r).run = s.run := rfl
@[simp] theorem State.keepTurn_time (s : State) (r : Requester) : (s.keepTurn r).time = s.time := rfl
@[simp] theorem State.keepTurn_cfg (s : State) (r : Requester) : (s.keepTurn r).cfg = s.cfg := rfl
@[simp] theorem State.keepTurn_order (s : State) (r : Requester) : (s.keepTurn r).order = s.order := rfl
@[simp] theorem State.keepTurn_lineUp (s : State) (r : Requester) : (s.keepTurn r).lineUp = s.lineUp := rfl
@[simp] theorem State.keepTurn_dir (s : State) (r : Requester) : (s.keepTurn r).dir = s.dir := rfl
@[simp] theorem State.keepTurn_engines (s : State) (r : Requester) : (s.keepTurn r).engines = s.engines := rfl
@[simp] theorem State.keepTurn_corr (s : State) (r : Requester) : (s.keepTurn r).corr = s.corr := rfl
@[simp] theorem State.keepTurn_log (s : State) (r : Requester) : (s.keepTurn r).log = s.log := rfl
@[simp] theorem State.keepTurn_scan (s : State) (r : Requester) : (s.keepTurn r).scan = s.scan := rfl
@[simp] theorem State.keepTurn_bill (s : State) (r : Requester) : (s.keepTurn r).bill = s.bill := rfl
@[simp] theorem State.keepTurn_pending (s : State) (r : Requester) : (s.keepTurn r).pending = s.pending := rfl
@[simp] theorem State.keepTurn_lines (s : State) (r : Requester) : (s.keepTurn r).path.lines = s.path.lines := rfl
@[simp] theorem State.keepTurn_port (s : State) (r : Requester) : (s.keepTurn r).path.port = s.path.port := rfl
@[simp] theorem State.keepTurn_cycle (s : State) (r : Requester) : (s.keepTurn r).path.cycle = s.path.cycle := rfl
@[simp] theorem State.keepTurn_partNext (s : State) (r : Requester) : (s.keepTurn r).path.partNext = s.path.partNext := rfl
@[simp] theorem State.keepTurn_arrivals (s : State) (r : Requester) : (s.keepTurn r).path.arrivals = s.path.arrivals := rfl
@[simp] theorem State.keepTurn_ring (s : State) (r : Requester) : (s.keepTurn r).path.ring = s.path.ring := rfl
@[simp] theorem State.keepTurn_map (s : State) (r : Requester) : (s.keepTurn r).path.map = s.path.map := rfl
@[simp] theorem State.keepTurn_reads (s : State) (r : Requester) : (s.keepTurn r).path.reads = s.path.reads := rfl
@[simp] theorem State.keepTurn_protActive (s : State) (r : Requester) : (s.keepTurn r).path.protActive = s.path.protActive := rfl
@[simp] theorem State.keepTurn_protSealed (s : State) (r : Requester) : (s.keepTurn r).path.protSealed = s.path.protSealed := rfl
@[simp] theorem State.keepTurn_freeCount (s : State) (r : Requester) : (s.keepTurn r).path.freeCount = s.path.freeCount := rfl
@[simp] theorem State.keepTurn_dataOut (s : State) (r : Requester) : (s.keepTurn r).path.dataOut = s.path.dataOut := rfl
@[simp] theorem State.keepTurn_line (s : State) (r q : Requester) : (s.keepTurn r).path.line q = s.path.line q := rfl
@[simp] theorem State.keepTurn_turns (s : State) (r : Requester) :
    (s.keepTurn r).path.turns = s.path.turns.set r.idx (s.readTurn r) := rfl

/-! ### State.orderStep and State.handArrival -/

@[simp] theorem State.orderStep_mem (s : State) (plan : List ReadReq) : (s.orderStep plan).mem = s.mem := by
  unfold State.orderStep; split <;> simp
@[simp] theorem State.orderStep_run (s : State) (plan : List ReadReq) : (s.orderStep plan).run = s.run := by
  unfold State.orderStep; split <;> simp
@[simp] theorem State.orderStep_time (s : State) (plan : List ReadReq) : (s.orderStep plan).time = s.time := by
  unfold State.orderStep; split <;> simp
@[simp] theorem State.orderStep_cfg (s : State) (plan : List ReadReq) : (s.orderStep plan).cfg = s.cfg := by
  unfold State.orderStep; split <;> simp
@[simp] theorem State.orderStep_order (s : State) (plan : List ReadReq) : (s.orderStep plan).order = s.order := by
  unfold State.orderStep; split <;> simp
@[simp] theorem State.orderStep_lineUp (s : State) (plan : List ReadReq) : (s.orderStep plan).lineUp = s.lineUp := by
  unfold State.orderStep; split <;> simp
@[simp] theorem State.orderStep_dir (s : State) (plan : List ReadReq) : (s.orderStep plan).dir = s.dir := by
  unfold State.orderStep; split <;> simp
@[simp] theorem State.orderStep_engines (s : State) (plan : List ReadReq) : (s.orderStep plan).engines = s.engines := by
  unfold State.orderStep; split <;> simp
@[simp] theorem State.orderStep_corr (s : State) (plan : List ReadReq) : (s.orderStep plan).corr = s.corr := by
  unfold State.orderStep; split <;> simp
@[simp] theorem State.orderStep_log (s : State) (plan : List ReadReq) : (s.orderStep plan).log = s.log := by
  unfold State.orderStep; split <;> simp
@[simp] theorem State.orderStep_scan (s : State) (plan : List ReadReq) : (s.orderStep plan).scan = s.scan := by
  unfold State.orderStep; split <;> simp
@[simp] theorem State.orderStep_bill (s : State) (plan : List ReadReq) : (s.orderStep plan).bill = s.bill := by
  unfold State.orderStep; split <;> simp
@[simp] theorem State.orderStep_pending (s : State) (plan : List ReadReq) : (s.orderStep plan).pending = s.pending := by
  unfold State.orderStep; split <;> simp
@[simp] theorem State.orderStep_lines (s : State) (plan : List ReadReq) : (s.orderStep plan).path.lines = s.path.lines := by
  unfold State.orderStep; split <;> simp
@[simp] theorem State.handArrival_mem (s : State) (a : BillArrival) : (s.handArrival a).mem = s.mem := rfl
@[simp] theorem State.handArrival_run (s : State) (a : BillArrival) : (s.handArrival a).run = s.run := rfl
@[simp] theorem State.handArrival_time (s : State) (a : BillArrival) : (s.handArrival a).time = s.time := rfl
@[simp] theorem State.handArrival_cfg (s : State) (a : BillArrival) : (s.handArrival a).cfg = s.cfg := rfl
@[simp] theorem State.handArrival_lineUp (s : State) (a : BillArrival) : (s.handArrival a).lineUp = s.lineUp := rfl
@[simp] theorem State.handArrival_dir (s : State) (a : BillArrival) : (s.handArrival a).dir = s.dir := rfl
@[simp] theorem State.handArrival_engines (s : State) (a : BillArrival) : (s.handArrival a).engines = s.engines := rfl
@[simp] theorem State.handArrival_corr (s : State) (a : BillArrival) : (s.handArrival a).corr = s.corr := rfl
@[simp] theorem State.handArrival_log (s : State) (a : BillArrival) : (s.handArrival a).log = s.log := rfl
@[simp] theorem State.handArrival_scan (s : State) (a : BillArrival) : (s.handArrival a).scan = s.scan := rfl
@[simp] theorem State.handArrival_bill (s : State) (a : BillArrival) : (s.handArrival a).bill = s.bill := rfl
@[simp] theorem State.handArrival_pending (s : State) (a : BillArrival) : (s.handArrival a).pending = s.pending := rfl
@[simp] theorem State.handArrival_order (s : State) (a : BillArrival) :
    (s.handArrival a).order = { s.order with billing := s.order.billing ++ [a] } := rfl
@[simp] theorem State.handArrival_lines (s : State) (a : BillArrival) : (s.handArrival a).path.lines = s.path.lines := rfl

/-! ### State.popped -/

@[simp] theorem State.popped_mem (s : State) : (s.popped).mem = s.mem := rfl
@[simp] theorem State.popped_run (s : State) : (s.popped).run = s.run := rfl
@[simp] theorem State.popped_time (s : State) : (s.popped).time = s.time := rfl
@[simp] theorem State.popped_path (s : State) : (s.popped).path = { s.path with arrivals := s.path.arrivals.tail } :=
  rfl
@[simp] theorem State.popped_cfg (s : State) : (s.popped).cfg = s.cfg := rfl
@[simp] theorem State.popped_order (s : State) : (s.popped).order = s.order := rfl
@[simp] theorem State.popped_lineUp (s : State) : (s.popped).lineUp = s.lineUp := rfl
@[simp] theorem State.popped_dir (s : State) : (s.popped).dir = s.dir := rfl
@[simp] theorem State.popped_engines (s : State) : (s.popped).engines = s.engines := rfl
@[simp] theorem State.popped_corr (s : State) : (s.popped).corr = s.corr := rfl
@[simp] theorem State.popped_log (s : State) : (s.popped).log = s.log := rfl
@[simp] theorem State.popped_scan (s : State) : (s.popped).scan = s.scan := rfl
@[simp] theorem State.popped_bill (s : State) : (s.popped).bill = s.bill := rfl
@[simp] theorem State.popped_pending (s : State) : (s.popped).pending = s.pending := rfl

/-! ### State.answerClose -/

@[simp] theorem State.answerClose_mem (s : State) (r : CmdResult) : (s.answerClose r).mem = s.mem := rfl
@[simp] theorem State.answerClose_run (s : State) (r : CmdResult) : (s.answerClose r).run = s.run := rfl
@[simp] theorem State.answerClose_time (s : State) (r : CmdResult) : (s.answerClose r).time = s.time := rfl
@[simp] theorem State.answerClose_path (s : State) (r : CmdResult) : (s.answerClose r).path = s.path := rfl
@[simp] theorem State.answerClose_cfg (s : State) (r : CmdResult) : (s.answerClose r).cfg = s.cfg := rfl
@[simp] theorem State.answerClose_order (s : State) (r : CmdResult) : (s.answerClose r).order = s.order := rfl
@[simp] theorem State.answerClose_lineUp (s : State) (r : CmdResult) : (s.answerClose r).lineUp = s.lineUp := rfl
@[simp] theorem State.answerClose_dir (s : State) (r : CmdResult) : (s.answerClose r).dir = s.dir := rfl
@[simp] theorem State.answerClose_engines (s : State) (r : CmdResult) : (s.answerClose r).engines = s.engines := rfl
@[simp] theorem State.answerClose_corr (s : State) (r : CmdResult) : (s.answerClose r).corr = s.corr := rfl
@[simp] theorem State.answerClose_log (s : State) (r : CmdResult) : (s.answerClose r).log = s.log := rfl
@[simp] theorem State.answerClose_scan (s : State) (r : CmdResult) : (s.answerClose r).scan = s.scan := rfl
@[simp] theorem State.answerClose_bill (s : State) (r : CmdResult) :
    (s.answerClose r).bill = { s.bill with result := r } := rfl
@[simp] theorem State.answerClose_pending (s : State) (r : CmdResult) : (s.answerClose r).pending = s.pending := rfl

/-! ### State.answerCommit -/

@[simp] theorem State.answerCommit_mem (s : State) (r : CmdResult) : (s.answerCommit r).mem = s.mem := rfl
@[simp] theorem State.answerCommit_run (s : State) (r : CmdResult) : (s.answerCommit r).run = s.run := rfl
@[simp] theorem State.answerCommit_time (s : State) (r : CmdResult) : (s.answerCommit r).time = s.time := rfl
@[simp] theorem State.answerCommit_path (s : State) (r : CmdResult) : (s.answerCommit r).path = s.path := rfl
@[simp] theorem State.answerCommit_cfg (s : State) (r : CmdResult) : (s.answerCommit r).cfg = s.cfg := rfl
@[simp] theorem State.answerCommit_order (s : State) (r : CmdResult) : (s.answerCommit r).order = s.order := rfl
@[simp] theorem State.answerCommit_lineUp (s : State) (r : CmdResult) :
    (s.answerCommit r).lineUp = { s.lineUp with result := r } := rfl
@[simp] theorem State.answerCommit_dir (s : State) (r : CmdResult) : (s.answerCommit r).dir = s.dir := rfl
@[simp] theorem State.answerCommit_engines (s : State) (r : CmdResult) : (s.answerCommit r).engines = s.engines := rfl
@[simp] theorem State.answerCommit_corr (s : State) (r : CmdResult) : (s.answerCommit r).corr = s.corr := rfl
@[simp] theorem State.answerCommit_log (s : State) (r : CmdResult) : (s.answerCommit r).log = s.log := rfl
@[simp] theorem State.answerCommit_scan (s : State) (r : CmdResult) : (s.answerCommit r).scan = s.scan := rfl
@[simp] theorem State.answerCommit_bill (s : State) (r : CmdResult) : (s.answerCommit r).bill = s.bill := rfl
@[simp] theorem State.answerCommit_pending (s : State) (r : CmdResult) : (s.answerCommit r).pending = s.pending := rfl

/-! ### State.answerScan -/

@[simp] theorem State.answerScan_mem (s : State) (r : CmdResult) : (s.answerScan r).mem = s.mem := rfl
@[simp] theorem State.answerScan_run (s : State) (r : CmdResult) : (s.answerScan r).run = s.run := rfl
@[simp] theorem State.answerScan_time (s : State) (r : CmdResult) : (s.answerScan r).time = s.time := rfl
@[simp] theorem State.answerScan_path (s : State) (r : CmdResult) : (s.answerScan r).path = s.path := rfl
@[simp] theorem State.answerScan_cfg (s : State) (r : CmdResult) : (s.answerScan r).cfg = s.cfg := rfl
@[simp] theorem State.answerScan_order (s : State) (r : CmdResult) : (s.answerScan r).order = s.order := rfl
@[simp] theorem State.answerScan_lineUp (s : State) (r : CmdResult) : (s.answerScan r).lineUp = s.lineUp := rfl
@[simp] theorem State.answerScan_dir (s : State) (r : CmdResult) : (s.answerScan r).dir = s.dir := rfl
@[simp] theorem State.answerScan_engines (s : State) (r : CmdResult) : (s.answerScan r).engines = s.engines := rfl
@[simp] theorem State.answerScan_corr (s : State) (r : CmdResult) : (s.answerScan r).corr = s.corr := rfl
@[simp] theorem State.answerScan_log (s : State) (r : CmdResult) : (s.answerScan r).log = s.log := rfl
@[simp] theorem State.answerScan_scan (s : State) (r : CmdResult) :
    (s.answerScan r).scan = { s.scan with result := r } := rfl
@[simp] theorem State.answerScan_bill (s : State) (r : CmdResult) : (s.answerScan r).bill = s.bill := rfl
@[simp] theorem State.answerScan_pending (s : State) (r : CmdResult) : (s.answerScan r).pending = s.pending := rfl

/-! ### State.answerEnum -/

@[simp] theorem State.answerEnum_mem (s : State) (r : CmdResult) : (s.answerEnum r).mem = s.mem := rfl
@[simp] theorem State.answerEnum_run (s : State) (r : CmdResult) : (s.answerEnum r).run = s.run := rfl
@[simp] theorem State.answerEnum_time (s : State) (r : CmdResult) : (s.answerEnum r).time = s.time := rfl
@[simp] theorem State.answerEnum_path (s : State) (r : CmdResult) : (s.answerEnum r).path = s.path := rfl
@[simp] theorem State.answerEnum_cfg (s : State) (r : CmdResult) : (s.answerEnum r).cfg = s.cfg := rfl
@[simp] theorem State.answerEnum_order (s : State) (r : CmdResult) : (s.answerEnum r).order = s.order := rfl
@[simp] theorem State.answerEnum_lineUp (s : State) (r : CmdResult) : (s.answerEnum r).lineUp = s.lineUp := rfl
@[simp] theorem State.answerEnum_dir (s : State) (r : CmdResult) :
    (s.answerEnum r).dir = { s.dir with result := r } := rfl
@[simp] theorem State.answerEnum_engines (s : State) (r : CmdResult) : (s.answerEnum r).engines = s.engines := rfl
@[simp] theorem State.answerEnum_corr (s : State) (r : CmdResult) : (s.answerEnum r).corr = s.corr := rfl
@[simp] theorem State.answerEnum_log (s : State) (r : CmdResult) : (s.answerEnum r).log = s.log := rfl
@[simp] theorem State.answerEnum_scan (s : State) (r : CmdResult) : (s.answerEnum r).scan = s.scan := rfl
@[simp] theorem State.answerEnum_bill (s : State) (r : CmdResult) : (s.answerEnum r).bill = s.bill := rfl
@[simp] theorem State.answerEnum_pending (s : State) (r : CmdResult) : (s.answerEnum r).pending = s.pending := rfl

/-! ### State.answerTime -/

@[simp] theorem State.answerTime_mem (s : State) (r : CmdResult) : (s.answerTime r).mem = s.mem := rfl
@[simp] theorem State.answerTime_run (s : State) (r : CmdResult) : (s.answerTime r).run = s.run := rfl
@[simp] theorem State.answerTime_time (s : State) (r : CmdResult) :
    (s.answerTime r).time = { s.time with timeResult := r } := rfl
@[simp] theorem State.answerTime_path (s : State) (r : CmdResult) : (s.answerTime r).path = s.path := rfl
@[simp] theorem State.answerTime_cfg (s : State) (r : CmdResult) : (s.answerTime r).cfg = s.cfg := rfl
@[simp] theorem State.answerTime_order (s : State) (r : CmdResult) : (s.answerTime r).order = s.order := rfl
@[simp] theorem State.answerTime_lineUp (s : State) (r : CmdResult) : (s.answerTime r).lineUp = s.lineUp := rfl
@[simp] theorem State.answerTime_dir (s : State) (r : CmdResult) : (s.answerTime r).dir = s.dir := rfl
@[simp] theorem State.answerTime_engines (s : State) (r : CmdResult) : (s.answerTime r).engines = s.engines := rfl
@[simp] theorem State.answerTime_corr (s : State) (r : CmdResult) : (s.answerTime r).corr = s.corr := rfl
@[simp] theorem State.answerTime_log (s : State) (r : CmdResult) : (s.answerTime r).log = s.log := rfl
@[simp] theorem State.answerTime_scan (s : State) (r : CmdResult) : (s.answerTime r).scan = s.scan := rfl
@[simp] theorem State.answerTime_bill (s : State) (r : CmdResult) : (s.answerTime r).bill = s.bill := rfl
@[simp] theorem State.answerTime_pending (s : State) (r : CmdResult) : (s.answerTime r).pending = s.pending := rfl

/-! ### State.answerBeat -/

@[simp] theorem State.answerBeat_mem (s : State) (r : CmdResult) : (s.answerBeat r).mem = s.mem := rfl
@[simp] theorem State.answerBeat_run (s : State) (r : CmdResult) : (s.answerBeat r).run = s.run := rfl
@[simp] theorem State.answerBeat_time (s : State) (r : CmdResult) :
    (s.answerBeat r).time = { s.time with beatResult := r } := rfl
@[simp] theorem State.answerBeat_path (s : State) (r : CmdResult) : (s.answerBeat r).path = s.path := rfl
@[simp] theorem State.answerBeat_cfg (s : State) (r : CmdResult) : (s.answerBeat r).cfg = s.cfg := rfl
@[simp] theorem State.answerBeat_order (s : State) (r : CmdResult) : (s.answerBeat r).order = s.order := rfl
@[simp] theorem State.answerBeat_lineUp (s : State) (r : CmdResult) : (s.answerBeat r).lineUp = s.lineUp := rfl
@[simp] theorem State.answerBeat_dir (s : State) (r : CmdResult) : (s.answerBeat r).dir = s.dir := rfl
@[simp] theorem State.answerBeat_engines (s : State) (r : CmdResult) : (s.answerBeat r).engines = s.engines := rfl
@[simp] theorem State.answerBeat_corr (s : State) (r : CmdResult) : (s.answerBeat r).corr = s.corr := rfl
@[simp] theorem State.answerBeat_log (s : State) (r : CmdResult) : (s.answerBeat r).log = s.log := rfl
@[simp] theorem State.answerBeat_scan (s : State) (r : CmdResult) : (s.answerBeat r).scan = s.scan := rfl
@[simp] theorem State.answerBeat_bill (s : State) (r : CmdResult) : (s.answerBeat r).bill = s.bill := rfl
@[simp] theorem State.answerBeat_pending (s : State) (r : CmdResult) : (s.answerBeat r).pending = s.pending := rfl

/-! ### State.protect -/

@[simp] theorem State.protect_mem (s : State) (a b : Option Bank) : (s.protect a b).mem = s.mem := rfl
@[simp] theorem State.protect_run (s : State) (a b : Option Bank) : (s.protect a b).run = s.run := rfl
@[simp] theorem State.protect_time (s : State) (a b : Option Bank) : (s.protect a b).time = s.time := rfl
@[simp] theorem State.protect_path (s : State) (a b : Option Bank) :
    (s.protect a b).path = { s.path with protActive := a, protSealed := b } := rfl
@[simp] theorem State.protect_cfg (s : State) (a b : Option Bank) : (s.protect a b).cfg = s.cfg := rfl
@[simp] theorem State.protect_order (s : State) (a b : Option Bank) : (s.protect a b).order = s.order := rfl
@[simp] theorem State.protect_lineUp (s : State) (a b : Option Bank) : (s.protect a b).lineUp = s.lineUp := rfl
@[simp] theorem State.protect_dir (s : State) (a b : Option Bank) : (s.protect a b).dir = s.dir := rfl
@[simp] theorem State.protect_engines (s : State) (a b : Option Bank) : (s.protect a b).engines = s.engines := rfl
@[simp] theorem State.protect_corr (s : State) (a b : Option Bank) : (s.protect a b).corr = s.corr := rfl
@[simp] theorem State.protect_log (s : State) (a b : Option Bank) : (s.protect a b).log = s.log := rfl
@[simp] theorem State.protect_scan (s : State) (a b : Option Bank) : (s.protect a b).scan = s.scan := rfl
@[simp] theorem State.protect_bill (s : State) (a b : Option Bank) : (s.protect a b).bill = s.bill := rfl
@[simp] theorem State.protect_pending (s : State) (a b : Option Bank) : (s.protect a b).pending = s.pending := rfl

/-! ### State.storeCorr -/

@[simp] theorem State.storeCorr_mem (s : State) (w : CorrWork) : (s.storeCorr w).mem = s.mem := rfl
@[simp] theorem State.storeCorr_run (s : State) (w : CorrWork) : (s.storeCorr w).run = s.run := rfl
@[simp] theorem State.storeCorr_time (s : State) (w : CorrWork) : (s.storeCorr w).time = s.time := rfl
@[simp] theorem State.storeCorr_path (s : State) (w : CorrWork) : (s.storeCorr w).path = s.path := rfl
@[simp] theorem State.storeCorr_cfg (s : State) (w : CorrWork) : (s.storeCorr w).cfg = s.cfg := rfl
@[simp] theorem State.storeCorr_order (s : State) (w : CorrWork) : (s.storeCorr w).order = s.order := rfl
@[simp] theorem State.storeCorr_lineUp (s : State) (w : CorrWork) : (s.storeCorr w).lineUp = s.lineUp := rfl
@[simp] theorem State.storeCorr_dir (s : State) (w : CorrWork) : (s.storeCorr w).dir = s.dir := rfl
@[simp] theorem State.storeCorr_engines (s : State) (w : CorrWork) : (s.storeCorr w).engines = s.engines := rfl
@[simp] theorem State.storeCorr_corr (s : State) (w : CorrWork) :
    (s.storeCorr w).corr = { s.corr with outages := w.outages, nextId := w.nextId, listFull := w.full } := rfl
@[simp] theorem State.storeCorr_log (s : State) (w : CorrWork) : (s.storeCorr w).log = s.log := rfl
@[simp] theorem State.storeCorr_scan (s : State) (w : CorrWork) : (s.storeCorr w).scan = s.scan := rfl
@[simp] theorem State.storeCorr_bill (s : State) (w : CorrWork) : (s.storeCorr w).bill = s.bill := rfl
@[simp] theorem State.storeCorr_pending (s : State) (w : CorrWork) : (s.storeCorr w).pending = s.pending := rfl

/-! ### State.setLowSupply -/

@[simp] theorem State.setLowSupply_mem (s : State) (f : Feeder) (n : Nat) : (s.setLowSupply f n).mem = s.mem := rfl
@[simp] theorem State.setLowSupply_run (s : State) (f : Feeder) (n : Nat) : (s.setLowSupply f n).run = s.run := rfl
@[simp] theorem State.setLowSupply_time (s : State) (f : Feeder) (n : Nat) : (s.setLowSupply f n).time = s.time := rfl
@[simp] theorem State.setLowSupply_path (s : State) (f : Feeder) (n : Nat) : (s.setLowSupply f n).path = s.path := rfl
@[simp] theorem State.setLowSupply_cfg (s : State) (f : Feeder) (n : Nat) : (s.setLowSupply f n).cfg = s.cfg := rfl
@[simp] theorem State.setLowSupply_order (s : State) (f : Feeder) (n : Nat) : (s.setLowSupply f n).order = s.order :=
  rfl
@[simp] theorem State.setLowSupply_lineUp (s : State) (f : Feeder) (n : Nat) :
    (s.setLowSupply f n).lineUp = s.lineUp := rfl
@[simp] theorem State.setLowSupply_dir (s : State) (f : Feeder) (n : Nat) : (s.setLowSupply f n).dir = s.dir := rfl
@[simp] theorem State.setLowSupply_engines (s : State) (f : Feeder) (n : Nat) :
    (s.setLowSupply f n).engines = s.engines := rfl
@[simp] theorem State.setLowSupply_corr (s : State) (f : Feeder) (n : Nat) :
    (s.setLowSupply f n).corr = { s.corr with lowSupply := s.corr.lowSupply.set f n } := rfl
@[simp] theorem State.setLowSupply_log (s : State) (f : Feeder) (n : Nat) : (s.setLowSupply f n).log = s.log := rfl
@[simp] theorem State.setLowSupply_scan (s : State) (f : Feeder) (n : Nat) : (s.setLowSupply f n).scan = s.scan := rfl
@[simp] theorem State.setLowSupply_bill (s : State) (f : Feeder) (n : Nat) : (s.setLowSupply f n).bill = s.bill := rfl
@[simp] theorem State.setLowSupply_pending (s : State) (f : Feeder) (n : Nat) :
    (s.setLowSupply f n).pending = s.pending := rfl

/-! ### State.setEnumerating -/

@[simp] theorem State.setEnumerating_mem (s : State) (f : Feeder) (b : Bool) : (s.setEnumerating f b).mem = s.mem :=
  rfl
@[simp] theorem State.setEnumerating_run (s : State) (f : Feeder) (b : Bool) : (s.setEnumerating f b).run = s.run :=
  rfl
@[simp] theorem State.setEnumerating_time (s : State) (f : Feeder) (b : Bool) :
    (s.setEnumerating f b).time = s.time := rfl
@[simp] theorem State.setEnumerating_path (s : State) (f : Feeder) (b : Bool) :
    (s.setEnumerating f b).path = s.path := rfl
@[simp] theorem State.setEnumerating_cfg (s : State) (f : Feeder) (b : Bool) : (s.setEnumerating f b).cfg = s.cfg :=
  rfl
@[simp] theorem State.setEnumerating_order (s : State) (f : Feeder) (b : Bool) :
    (s.setEnumerating f b).order = s.order := rfl
@[simp] theorem State.setEnumerating_lineUp (s : State) (f : Feeder) (b : Bool) :
    (s.setEnumerating f b).lineUp = s.lineUp := rfl
@[simp] theorem State.setEnumerating_dir (s : State) (f : Feeder) (b : Bool) : (s.setEnumerating f b).dir = s.dir :=
  rfl
@[simp] theorem State.setEnumerating_engines (s : State) (f : Feeder) (b : Bool) :
    (s.setEnumerating f b).engines = s.engines := rfl
@[simp] theorem State.setEnumerating_corr (s : State) (f : Feeder) (b : Bool) :
    (s.setEnumerating f b).corr = { s.corr with enumerating := s.corr.enumerating.set f b } := rfl
@[simp] theorem State.setEnumerating_log (s : State) (f : Feeder) (b : Bool) : (s.setEnumerating f b).log = s.log :=
  rfl
@[simp] theorem State.setEnumerating_scan (s : State) (f : Feeder) (b : Bool) :
    (s.setEnumerating f b).scan = s.scan := rfl
@[simp] theorem State.setEnumerating_bill (s : State) (f : Feeder) (b : Bool) :
    (s.setEnumerating f b).bill = s.bill := rfl
@[simp] theorem State.setEnumerating_pending (s : State) (f : Feeder) (b : Bool) :
    (s.setEnumerating f b).pending = s.pending := rfl

/-! ### State.takeBuyers -/

@[simp] theorem State.takeBuyers_mem (s : State) : (s.takeBuyers).mem = s.mem := by simp only [State.takeBuyers]
@[simp] theorem State.takeBuyers_run (s : State) : (s.takeBuyers).run = s.run := by simp only [State.takeBuyers]
@[simp] theorem State.takeBuyers_time (s : State) : (s.takeBuyers).time = s.time := by simp only [State.takeBuyers]
@[simp] theorem State.takeBuyers_path (s : State) : (s.takeBuyers).path = s.path := by simp only [State.takeBuyers]
@[simp] theorem State.takeBuyers_cfg (s : State) : (s.takeBuyers).cfg = s.cfg := by simp only [State.takeBuyers]
@[simp] theorem State.takeBuyers_order (s : State) : (s.takeBuyers).order = s.order := by simp only [State.takeBuyers]
@[simp] theorem State.takeBuyers_lineUp (s : State) :
    (s.takeBuyers).lineUp = { s.lineUp with buyers := Vector.ofFn fun k => s.buyerCount k } := rfl
@[simp] theorem State.takeBuyers_dir (s : State) : (s.takeBuyers).dir = s.dir := by simp only [State.takeBuyers]
@[simp] theorem State.takeBuyers_engines (s : State) : (s.takeBuyers).engines = s.engines := by simp only [State.takeBuyers]
@[simp] theorem State.takeBuyers_corr (s : State) : (s.takeBuyers).corr = s.corr := by simp only [State.takeBuyers]
@[simp] theorem State.takeBuyers_log (s : State) : (s.takeBuyers).log = s.log := by simp only [State.takeBuyers]
@[simp] theorem State.takeBuyers_scan (s : State) : (s.takeBuyers).scan = s.scan := by simp only [State.takeBuyers]
@[simp] theorem State.takeBuyers_bill (s : State) : (s.takeBuyers).bill = s.bill := by simp only [State.takeBuyers]
@[simp] theorem State.takeBuyers_pending (s : State) : (s.takeBuyers).pending = s.pending := by simp only [State.takeBuyers]

/-! ### State.noteWord5 -/

@[simp] theorem State.noteWord5_mem (s : State) (k : SlotId) : (s.noteWord5 k).mem = s.mem := rfl
@[simp] theorem State.noteWord5_run (s : State) (k : SlotId) : (s.noteWord5 k).run = s.run := rfl
@[simp] theorem State.noteWord5_time (s : State) (k : SlotId) : (s.noteWord5 k).time = s.time := rfl
@[simp] theorem State.noteWord5_path (s : State) (k : SlotId) : (s.noteWord5 k).path = s.path := rfl
@[simp] theorem State.noteWord5_cfg (s : State) (k : SlotId) : (s.noteWord5 k).cfg = s.cfg := rfl
@[simp] theorem State.noteWord5_order (s : State) (k : SlotId) : (s.noteWord5 k).order = s.order := rfl
@[simp] theorem State.noteWord5_lineUp (s : State) (k : SlotId) :
    (s.noteWord5 k).lineUp = { s.lineUp with written5 := s.lineUp.written5.set k (s.active.ev[k], s.lineUp.buyers[k]) } :=
  rfl
@[simp] theorem State.noteWord5_dir (s : State) (k : SlotId) : (s.noteWord5 k).dir = s.dir := rfl
@[simp] theorem State.noteWord5_engines (s : State) (k : SlotId) : (s.noteWord5 k).engines = s.engines := rfl
@[simp] theorem State.noteWord5_corr (s : State) (k : SlotId) : (s.noteWord5 k).corr = s.corr := rfl
@[simp] theorem State.noteWord5_log (s : State) (k : SlotId) : (s.noteWord5 k).log = s.log := rfl
@[simp] theorem State.noteWord5_scan (s : State) (k : SlotId) : (s.noteWord5 k).scan = s.scan := rfl
@[simp] theorem State.noteWord5_bill (s : State) (k : SlotId) : (s.noteWord5 k).bill = s.bill := rfl
@[simp] theorem State.noteWord5_pending (s : State) (k : SlotId) : (s.noteWord5 k).pending = s.pending := rfl

/-! ### State.evalAttention -/

@[simp] theorem State.evalAttention_mem (s : State) : (s.evalAttention).mem = s.mem := rfl
@[simp] theorem State.evalAttention_run (s : State) : (s.evalAttention).run = s.run := rfl
@[simp] theorem State.evalAttention_time (s : State) : (s.evalAttention).time = s.time := rfl
@[simp] theorem State.evalAttention_path (s : State) : (s.evalAttention).path = s.path := rfl
@[simp] theorem State.evalAttention_cfg (s : State) : (s.evalAttention).cfg = s.cfg := rfl
@[simp] theorem State.evalAttention_order (s : State) : (s.evalAttention).order = s.order := rfl
@[simp] theorem State.evalAttention_lineUp (s : State) : (s.evalAttention).lineUp = s.lineUp := rfl
@[simp] theorem State.evalAttention_dir (s : State) : (s.evalAttention).dir = s.dir := rfl
@[simp] theorem State.evalAttention_engines (s : State) : (s.evalAttention).engines = s.engines := rfl
@[simp] theorem State.evalAttention_corr (s : State) : (s.evalAttention).corr = s.corr := rfl
@[simp] theorem State.evalAttention_log (s : State) :
    (s.evalAttention).log = { s.log with attention := s.attentionDue } := rfl
@[simp] theorem State.evalAttention_scan (s : State) : (s.evalAttention).scan = s.scan := rfl
@[simp] theorem State.evalAttention_bill (s : State) : (s.evalAttention).bill = s.bill := rfl
@[simp] theorem State.evalAttention_pending (s : State) : (s.evalAttention).pending = s.pending := rfl

/-! ### State.evalContact -/

@[simp] theorem State.evalContact_mem (s : State) : (s.evalContact).mem = s.mem := rfl
@[simp] theorem State.evalContact_run (s : State) : (s.evalContact).run = s.run := rfl
@[simp] theorem State.evalContact_time (s : State) : (s.evalContact).time = s.time := rfl
@[simp] theorem State.evalContact_path (s : State) : (s.evalContact).path = s.path := rfl
@[simp] theorem State.evalContact_cfg (s : State) : (s.evalContact).cfg = s.cfg := rfl
@[simp] theorem State.evalContact_order (s : State) : (s.evalContact).order = s.order := rfl
@[simp] theorem State.evalContact_lineUp (s : State) : (s.evalContact).lineUp = s.lineUp := rfl
@[simp] theorem State.evalContact_dir (s : State) : (s.evalContact).dir = s.dir := rfl
@[simp] theorem State.evalContact_engines (s : State) : (s.evalContact).engines = s.engines := rfl
@[simp] theorem State.evalContact_corr (s : State) : (s.evalContact).corr = s.corr := rfl
@[simp] theorem State.evalContact_log (s : State) : (s.evalContact).log = { s.log with contact := s.contactDue } :=
  rfl
@[simp] theorem State.evalContact_scan (s : State) : (s.evalContact).scan = s.scan := rfl
@[simp] theorem State.evalContact_bill (s : State) : (s.evalContact).bill = s.bill := rfl
@[simp] theorem State.evalContact_pending (s : State) : (s.evalContact).pending = s.pending := rfl

/-! ### State.ask and State.asks -/

@[simp] theorem State.ask_mem (s : State) (r : Requester) (b : Burst) : (s.ask r b).mem = s.mem :=
  by
  unfold State.ask; split <;> rfl
@[simp] theorem State.ask_run (s : State) (r : Requester) (b : Burst) : (s.ask r b).run = s.run :=
  by
  unfold State.ask; split <;> rfl
@[simp] theorem State.ask_time (s : State) (r : Requester) (b : Burst) : (s.ask r b).time = s.time :=
  by
  unfold State.ask; split <;> rfl
@[simp] theorem State.ask_cfg (s : State) (r : Requester) (b : Burst) : (s.ask r b).cfg = s.cfg :=
  by
  unfold State.ask; split <;> rfl
@[simp] theorem State.ask_order (s : State) (r : Requester) (b : Burst) : (s.ask r b).order = s.order :=
  by
  unfold State.ask; split <;> rfl
@[simp] theorem State.ask_lineUp (s : State) (r : Requester) (b : Burst) : (s.ask r b).lineUp = s.lineUp :=
  by
  unfold State.ask; split <;> rfl
@[simp] theorem State.ask_dir (s : State) (r : Requester) (b : Burst) : (s.ask r b).dir = s.dir :=
  by
  unfold State.ask; split <;> rfl
@[simp] theorem State.ask_engines (s : State) (r : Requester) (b : Burst) : (s.ask r b).engines = s.engines :=
  by
  unfold State.ask; split <;> rfl
@[simp] theorem State.ask_corr (s : State) (r : Requester) (b : Burst) : (s.ask r b).corr = s.corr :=
  by
  unfold State.ask; split <;> rfl
@[simp] theorem State.ask_log (s : State) (r : Requester) (b : Burst) : (s.ask r b).log = s.log :=
  by
  unfold State.ask; split <;> rfl
@[simp] theorem State.ask_scan (s : State) (r : Requester) (b : Burst) : (s.ask r b).scan = s.scan :=
  by
  unfold State.ask; split <;> rfl
@[simp] theorem State.ask_bill (s : State) (r : Requester) (b : Burst) : (s.ask r b).bill = s.bill :=
  by
  unfold State.ask; split <;> rfl
@[simp] theorem State.ask_pending (s : State) (r : Requester) (b : Burst) : (s.ask r b).pending = s.pending :=
  by
  unfold State.ask; split <;> rfl
@[simp] theorem State.asks_mem (s : State) (r : Requester) (bs : List Burst) : (s.asks r bs).mem = s.mem :=
  foldl_keeps (·.mem) _ (fun s b => State.ask_mem s r b) bs s
@[simp] theorem State.asks_run (s : State) (r : Requester) (bs : List Burst) : (s.asks r bs).run = s.run :=
  foldl_keeps (·.run) _ (fun s b => State.ask_run s r b) bs s
@[simp] theorem State.asks_time (s : State) (r : Requester) (bs : List Burst) : (s.asks r bs).time = s.time :=
  foldl_keeps (·.time) _ (fun s b => State.ask_time s r b) bs s
@[simp] theorem State.asks_cfg (s : State) (r : Requester) (bs : List Burst) : (s.asks r bs).cfg = s.cfg :=
  foldl_keeps (·.cfg) _ (fun s b => State.ask_cfg s r b) bs s
@[simp] theorem State.asks_order (s : State) (r : Requester) (bs : List Burst) : (s.asks r bs).order = s.order :=
  foldl_keeps (·.order) _ (fun s b => State.ask_order s r b) bs s
@[simp] theorem State.asks_lineUp (s : State) (r : Requester) (bs : List Burst) : (s.asks r bs).lineUp = s.lineUp :=
  foldl_keeps (·.lineUp) _ (fun s b => State.ask_lineUp s r b) bs s
@[simp] theorem State.asks_dir (s : State) (r : Requester) (bs : List Burst) : (s.asks r bs).dir = s.dir :=
  foldl_keeps (·.dir) _ (fun s b => State.ask_dir s r b) bs s
@[simp] theorem State.asks_engines (s : State) (r : Requester) (bs : List Burst) :
    (s.asks r bs).engines = s.engines := foldl_keeps (·.engines) _ (fun s b => State.ask_engines s r b) bs s
@[simp] theorem State.asks_corr (s : State) (r : Requester) (bs : List Burst) : (s.asks r bs).corr = s.corr :=
  foldl_keeps (·.corr) _ (fun s b => State.ask_corr s r b) bs s
@[simp] theorem State.asks_log (s : State) (r : Requester) (bs : List Burst) : (s.asks r bs).log = s.log :=
  foldl_keeps (·.log) _ (fun s b => State.ask_log s r b) bs s
@[simp] theorem State.asks_scan (s : State) (r : Requester) (bs : List Burst) : (s.asks r bs).scan = s.scan :=
  foldl_keeps (·.scan) _ (fun s b => State.ask_scan s r b) bs s
@[simp] theorem State.asks_bill (s : State) (r : Requester) (bs : List Burst) : (s.asks r bs).bill = s.bill :=
  foldl_keeps (·.bill) _ (fun s b => State.ask_bill s r b) bs s
@[simp] theorem State.asks_pending (s : State) (r : Requester) (bs : List Burst) :
    (s.asks r bs).pending = s.pending := foldl_keeps (·.pending) _ (fun s b => State.ask_pending s r b) bs s

/-! ### Reads by index after writes by index -/

@[simp] theorem State.eng_setEng (s : State) (f g : Feeder) (e : Engine) :
    (s.setEng f e).eng g = if f = g then e else s.eng g := by
  simp only [State.eng, State.setEng, Fin.getElem_fin, Vector.getElem_set, Fin.ext_iff]

@[simp] theorem State.entry_setEntry (s : State) (d e : EntryId) (x : Entry) :
    (s.setEntry d x).entry e = if d = e then x else s.entry e := by
  simp only [State.entry, State.setEntry, Fin.getElem_fin, Vector.getElem_set, Fin.ext_iff]

@[simp] theorem State.roll_setRoll (s : State) (f g : Feeder) (r : RollCall) :
    (s.setRoll f r).roll g = if f = g then r else s.roll g := by
  simp only [State.roll, State.setRoll, Fin.getElem_fin, Vector.getElem_set, Fin.ext_iff]

@[simp] theorem State.entry_setEng (s : State) (f : Feeder) (x : Engine) (e : EntryId) :
    (s.setEng f x).entry e = s.entry e := rfl

@[simp] theorem State.eng_setEntry (s : State) (e : EntryId) (x : Entry) (f : Feeder) :
    (s.setEntry e x).eng f = s.eng f := rfl

@[simp] theorem MemPath.line_setLine (p : MemPath) (r q : Requester) (l : List Burst) :
    (p.setLine r l).line q = if r = q then l else p.line q := by
  cases r <;> cases q <;> simp [MemPath.line, MemPath.setLine, Requester.idx]

/-! ### What the shared operations can do -/

/-- A burst asked for stands on its own block's line, behind what stood there, unless a waiting burst carries it. -/
theorem State.ask_line (s : State) (r q : Requester) (b : Burst) :
    (s.ask r b).path.line q =
      if r = q ∧ (b.carries && (s.path.line r).contains b) = false then s.path.line q ++ [b] else s.path.line q := by
  unfold State.ask
  by_cases h : (b.carries && (s.path.line r).contains b) = true
  · rw [if_pos h, if_neg (by rw [h]; simp)]
  · rw [if_neg h]
    by_cases hr : r = q
    · subst hr
      rw [if_pos ⟨rfl, Bool.eq_false_iff.mpr h⟩]
      exact MemPath.line_setLine s.path r r _ |>.trans (if_pos rfl)
    · rw [if_neg fun x => hr x.1]
      exact (MemPath.line_setLine s.path r q _).trans (if_neg hr)

/-- A burst asked for waits on its line. -/
theorem State.mem_ask_line (s : State) (r : Requester) (b : Burst) : b ∈ (s.ask r b).path.line r := by
  rw [State.ask_line]
  by_cases h : (b.carries && (s.path.line r).contains b) = true
  · rw [if_neg (by rw [h]; simp)]
    simp only [Bool.and_eq_true, List.contains_iff_mem] at h
    exact h.2
  · rw [if_pos ⟨rfl, by simpa using h⟩]
    simp

/-- A step that reads memory is made while the last of its reads holds the port, the reads before it having ended (R176). -/
theorem State.hasRead_spec (s : State) (r : Requester) (plan : List ReadReq) (h : s.hasRead r plan = true) (hn : plan ≠ []) :
    ∃ a n x w, s.path.port = .burst r (.read a n) x w false ∧ s.path.reads[r.idx].map ReadDone.req ++ [(a, n)] = plan := by
  unfold State.hasRead at h
  split at h <;> simp_all

/-- A step whose only read holds the port sees memory as it stands. -/
theorem State.view_single (s : State) (r : Requester) (x : ReadReq) (h : s.hasRead r [x] = true) : s.view r = s := by
  obtain ⟨a, n, _, _, _, hr⟩ := s.hasRead_spec r [x] h (by simp)
  apply s.view_none r
  cases hl : s.path.reads[r.idx] with
  | nil => rfl
  | cons y ys => simp [hl] at hr

/-- A read of the block that holds the port ends with its step, and the memory is free for the other side (R177). -/
theorem State.tookRead_port (s : State) (r : Requester) (a n x : Nat) (w : List Word)
    (h : s.path.port = .burst r (.read a n) x w false) :
    (s.tookRead r).path.port = .free ∧ (s.tookRead r).path.partNext = false := by
  simp [State.tookRead, State.freeRead, h]

/-- The turn of the read that a block presents is kept by what the block asks for behind it (R176). -/
theorem State.ask_readTurn (s : State) (r : Requester) (b : Burst) (n : Nat) (q : ReadReq)
    (h : s.readTurn r = some (n, q)) (hn : (s.ask r b).readWaits r = some q) : (s.ask r b).readTurn r = some (n, q) := by
  by_cases hc : (b.carries && (s.path.line r).contains b) = true
  · have e : s.ask r b = s := by unfold State.ask; rw [if_pos hc]
    rw [e]
    exact h
  · have e : (s.ask r b).path.turns[r.idx] = some (n, q) := by
      unfold State.ask
      rw [if_neg hc, ← h]
      exact Vector.getElem_set_self ..
    unfold State.readTurn
    rw [hn, Option.map_some, e]
    simp

/-- A block without bursts of its own makes its next read at the grant (R176). -/
theorem State.grantPart_read (s : State) (r : Requester) (n : Nat) (q : ReadReq) (hl : s.path.line r = [])
    (h : s.readTurn r = some (n, q)) : s.grantPart r = s.grantRead r q := by
  unfold State.grantPart
  rw [hl, h]
  cases n <;> rfl

/-- A block whose oldest request is a burst has it granted (R176). -/
theorem State.grantPart_burst (s : State) (r : Requester) (b : Burst) (rest : List Burst) (hl : s.path.line r = b :: rest)
    (h : ∀ q, s.readTurn r ≠ some (0, q)) : s.grantPart r = s.grantBurst r b rest := by
  unfold State.grantPart
  rw [hl]
  split
  · rename_i q hq
    exact absurd hq (h q)
  · rename_i hb _
    cases hb
    rfl
  · rename_i hb _; cases hb
  · rename_i hb _; cases hb

/-- A submission is discarded in IDLE, enters the intake while it has room, and waits with its minute otherwise. -/
theorem State.submit_spec (s : State) (k : AlarmKind) (sv : Severity) (sj : Subject) (v : Word) (m : Option Nat) :
    (s.run.part = .idle ∧ s.submit k sv sj v m = (s, none)) ∨
      (s.run.part ≠ .idle ∧ s.log.intake.length < Config.intakeDepth ∧
        s.submit k sv sj v m = ({ s with log := { s.log with
          intake := s.log.intake ++ [AlarmEntry.mk k sv sj (m.getD s.time.minute) v] } }, none)) ∨
      (s.run.part ≠ .idle ∧ ¬ s.log.intake.length < Config.intakeDepth ∧
        s.submit k sv sj v m = (s, some (.alarm k sv sj v (some (m.getD s.time.minute))))) := by
  unfold State.submit
  by_cases h : s.run.part = .idle
  · exact .inl ⟨h, by simp [h]⟩
  · by_cases g : s.log.intake.length < Config.intakeDepth
    · exact .inr (.inl ⟨h, g, by simp only [if_neg h, if_pos g]; rfl⟩)
    · exact .inr (.inr ⟨h, g, by simp only [if_neg h, if_neg g]; rfl⟩)

/-- With nothing left to do a block's work list is empty. -/
@[simp] theorem State.runTasks_nil (b : Blk) (s : State) : State.runTasks b [] s = s.setWork b [] := rfl

/-- A task whose turn passes lets the work go on. -/
theorem State.runTasks_go (b : Blk) (t : Task) (ts : List Task) (s s1 : State) (h : s.doTask t = (s1, none)) :
    State.runTasks b (t :: ts) s = State.runTasks b ts s1 := by
  simp [State.runTasks, h]

/-- A task that has to wait leaves what is left of it at the head of the work list. -/
theorem State.runTasks_wait (b : Blk) (t w : Task) (ts : List Task) (s s1 : State) (h : s.doTask t = (s1, some w)) :
    State.runTasks b (t :: ts) s = s1.setWork b (w :: ts) := by
  simp [State.runTasks, h]

/-- Work pushed on a block with none runs at once. -/
theorem State.push_idle (s : State) (b : Blk) (ts : List Task) (h : s.workOf b = []) :
    s.push b ts = State.runTasks b ts s := by
  simp [State.push, h]

/-- Work pushed on a block at work waits behind it. -/
theorem State.push_busy (s : State) (b : Blk) (ts : List Task) (h : s.workOf b ≠ []) :
    s.push b ts = s.setWork b (s.workOf b ++ ts) := by
  simp [State.push, h]

/-- Setting the empty work list of a block without work changes nothing. -/
theorem State.setWork_self (s : State) (b : Blk) : s.setWork b (s.workOf b) = s := by
  cases b with
  | engine f => exact congrArg (fun v => { s with engines := v }) (Vector.set_getElem_self f.isLt)
  | _ => rfl

/-- A quiet part stays as it is when the blocks that waited are called on. -/
theorem State.settle_quiet (s : State) (h : s.quiet) : s.settle = s := by
  have hb : ∀ b, s.mayGoOn b = false := fun b => by simp [State.mayGoOn, h.1 b]
  unfold State.settle
  induction allBlocks with
  | nil => rfl
  | cons b bs ih => simp [List.foldl_cons, hb, ih]

/-- The arrival taken: an owner whose arrival waits first acts on the state without it. -/
theorem State.arrive_spec (s : State) (t : Trigger) (w : Word) (g : State → State) (h : s.first t w) :
    s.arrive t w g = g s.popped := by
  obtain ⟨h1, h2⟩ := h
  cases ha : s.path.arrivals with
  | nil => simp [ha] at h2
  | cons x xs =>
    have hx : x = (t, w) := by simpa [ha] using h2
    subst hx
    simp [State.arrive, h1, ha, State.popped]

end Sys2Proof.Machine
end

