-- ==== Sys2Proof/Tests/Slice0.lean ====
section
/-! SUPPORT. Tests: terms that are no commands, the spec's worked examples, and for every statement states and operands that
meet its hypotheses together. -/

namespace Sys2Proof.Tests

-- The tests are checked one after another: side by side, their evaluations take more memory than a check has.
set_option Elab.async false

open Sys2Proof Sys2Proof.Machine

/-! ### Well-formedness: each check refuses a term -/

theorem test_run_word_is_refused : (Instr.run 2).illFormed = some .word := by decide
theorem test_commit_word_is_refused : (Instr.commit 2).illFormed = some .word := by decide
theorem test_periodic_interval_is_no_bad_action : (Instr.scanBadAction 0x00010002).illFormed = some .word := by decide
theorem test_subscriber_2048_is_refused : (Instr.orderArrival 2048 1).illFormed = some .subscriber := by decide
theorem test_latency_61_is_refused : (Instr.answerStartBit 0 61).illFormed = some .latency := by decide
theorem test_scanner_hands_no_notice : (Instr.noticeHanded .scanner).illFormed = some .noticeBlock := by decide
theorem test_order_unit_submits_no_alarm : (Instr.alarmSubmissionTaken .orderUnit).illFormed = some .alarmBlock := by decide
theorem test_well_formed_commands : [Instr.run 1, .commit 0x101, .scanBadAction 0x0E110002, .orderArrival 2047 1,
    .answerStartBit 7 60, .noticeHanded .correlator, .alarmSubmissionTaken (.engine 7)].all Instr.wf = true := by
  decide +kernel

/-- No word spells a command: the table gives its rows no bits. -/
theorem test_no_word_is_a_command : decodeTableWord 32 0x00000001 = none := rfl

/-! ### The spec's worked examples -/

/-- The call READ to position 5 (chapter 3, example). -/
theorem test_read_to_position_5 : callChars 5 .read [] = [0x85, 0x01, 0xF0] := by decide +kernel

/-- The CRC over the address character alone (the same example). -/
theorem test_crc_of_one_character : crc8 [0x85] = 0x92 := by decide

/-- Probe 12 with gain 1,000 and offset −200 (chapter 6, example). -/
theorem test_conversions_on_probe_12 :
    convert { gain := 1000, offset := -200 } 2867 = (500, false) ∧ convert { gain := 1000, offset := -200 } 0 = (-200, false) ∧
      convert { gain := 1000, offset := -200 } 4095 = (800, false) ∧ convert { gain := 65535, offset := 0 } 4095 = (32767, true) := by
  decide

/-- The CARRIER entry of 6.8. -/
def carrierEntry : ScanEntry :=
  { probe := 12, kind := .carrier, settle := 0, lset := -60, lclr := -40, hclr := 40, hset := 60, n := 2, link := none }

/-- The evaluation of slot 60 through 6.8: its second sample below L-set makes it LOW, a fallback clears the clear count, and
two samples running from L-clear up make it NORMAL. -/
theorem test_carrier_loss_example :
    ([-20, -75, -80].foldl (Eval.judge carrierEntry) Eval.normal).state = .low ∧
      ([-20, -75, -80, -30, -50, -35].foldl (Eval.judge carrierEntry) Eval.normal).clear = 1 ∧
      ([-20, -75, -80, -30, -50, -35, -20].foldl (Eval.judge carrierEntry) Eval.normal).state = .normal := by decide

/-- Tier 0 at 2,495 and tier 3 at 1,200 cents (7.9). -/
def exampleRates : Vector Nat 16 := ((Vector.replicate 16 0).set 0 2495).set 3 1200

/-- The record of 7.9 after its START SERVICE. -/
def exampleRecord : BillRec :=
  { state := .service, saturated := false, epoch := 6, period := 17, since := 1000, tiers := 1, began := 0, a := 0, o := 0,
    k := 0, charged := 499, refunded := 0, stCharge := 0, stCredit := 0, stNet := 0, stMinutes := 0 }

theorem test_accrual_to_the_retier : (exampleRecord.accrue 50000 exampleRates 10000).a = 22455000 := by decide

theorem test_outage_of_300_minutes :
    let r := ({ exampleRecord with state := .outage, since := 20000, began := 20000, tiers := 9 } : BillRec).accrue 50000 exampleRates 20300
    r.o = 1108500 ∧ (r.resolve 240).k = 1108500 ∧ (r.resolve 240).a = 0 := by decide

/-- The statement of 7.9: 3,334 and 26 cents, PPV net 499, for 43,200 minutes. -/
theorem test_statement_of_the_example :
    let r : BillRec := { exampleRecord with since := 40120, tiers := 9, a := 132639900, k := 1108500 }
    let x := r.close 43200 exampleRates 43200 43200 18
    x.stCharge = 3334 ∧ x.stCredit = 26 ∧ x.stNet = 499 ∧ x.stMinutes = 43200 ∧ x.period = 18 ∧ x.a = 0 ∧ x.k = 0 := by decide

/-- A record one epoch behind (7.9): the old rate to minute 14,112, the new one to 14,200. -/
theorem test_record_behind_an_epoch :
    let b := { Billing.reset with period := 17, epoch := 7, epochMin := 14112, prev := (Vector.replicate 16 0).set 0 2495
                                  cur := (Vector.replicate 16 0).set 0 2695 }
    let r := b.catchUp 14200 { exampleRecord with since := 14000 }
    r.a = 279440 ∧ r.epoch = 7 ∧ (r.accrue 14200 b.cur 14200).a = 516600 := by decide

/-- A billing record reads back as it was written. -/
theorem test_billing_record_reads_back : BillRec.ofWords exampleRecord.words = exampleRecord := by decide

/-- A tap answers the READ of its position, and the engine accepts the answer. -/
theorem test_tap_answers_a_read :
    let t : Tap := { serial := 0x12345678, pos := some 5, ports := Vector.replicate 4 PortState.off, tamper := true, low := false }
    (t.hear [0x85, 0x01, 0xF0]).2.map (answerCrcGood 5) = some true ∧ (t.hear [0x85, 0x01, 0xF1]).2 = none := by
  decide +kernel

/-- A FORGET reaches both addressed taps of a feeder, and a later IDENTIFY only the first (R55). -/
theorem test_forget_and_identify :
    let t (n : Nat) : Tap := { serial := 7, pos := some n, ports := Vector.replicate 4 PortState.off, tamper := false, low := false }
    let after := (hearAll (callChars 63 .forget []) [t 1, t 2]).1
    after.map (·.pos) = [none, none] ∧ (hearAll (callChars 0 .identify []) after).2.length = 1 := by
  decide +kernel

/-! ### States the statements are about -/

/-- The part in a part state, all else as after power-on. -/
def inPart (p : PartState) : State := { State.reset with run := { State.reset.run with part := p } }

/-- An arrival waits. -/
def arriving (s : State) (t : Trigger) (w : Word) : State := { s with path := { s.path with arrivals := [(t, w)] } }

def exampleMap : WindowMap :=
  { sub := 0x1000, bill := 0x2000, line := 0x3000, mirror := 0x4000, log := 0x6000, tele := 0x7000, ns := 3, s := 16 }

def exampleSettings : Settings :=
  { Settings.none with enable := 0xFF, window := 16, attempts := 3, tr := 60, missThr := 2, nmin := 3, tc := 240,
                       heartbeat := 30, escalation := 15, attention := 12 }

/-- The part RUNNING at minute 1,000 with its map and settings, the log and the billing numbers loaded, engines READY. -/
def running : State :=
  { inPart .running with
    time := { TimeBase.reset with minute := 1000, half := 7, clockSet := true }
    path := { MemPath.reset with map := some exampleMap, protActive := some 0 }
    cfg := exampleSettings
    engines := Vector.replicate 8 { Engine.reset with state := .ready }
    lineUp := { LineUp.reset with copy := some Copy.empty, active := some 0, bankState := #v[.active, .editable] }
    log := { AlarmLog.reset with loaded := true }
    bill := { Billing.reset with loaded := true, period := 5 } }

/-- The part STARTING from IDLE, with its map and settings. -/
def starting (ph : StartPhase) : State :=
  { running with run := { running.run with part := .starting, phase := ph, runMinute := some 1000 } }

/-- No engine of the running part has work in progress. -/
theorem running_engines_quiet (f : Feeder) : (running.eng f).work = [] := by
  revert f; decide +kernel

/-- Memory holds words at an address. -/
def holding (s : State) (a : Nat) (ws : List Word) : State := { s with mem := memWriteWords s.mem a ws }

/-- A burst holds the port. -/
def withBurst (s : State) (r : Requester) (b : Burst) (a : Nat) (ws : List Word) : State :=
  { s with path := { s.path with port := .burst r b a ws false } }

/-- The reads of a step of block `r` before the last have ended with the words of memory, and the last holds the port. -/
def reading (s : State) (r : Requester) (plan : List ReadReq) : State :=
  let x := plan.getLastD (0, 0)
  { s with path := { s.path with
      port := .burst r (.read x.1 x.2) x.1 [] false
      reads := s.path.reads.set r.idx
        (plan.dropLast.map fun y => { addr := y.1, len := y.2, words := memWords s.mem y.1 y.2 }) } }

/-- The alarm intake is full. -/
def intakeFull (s : State) : State :=
  { s with log := { s.log with intake := List.replicate 8 (AlarmEntry.mk .resumed .info .none 0 0) } }

/-! ### Every statement's hypotheses are met: the machine and the Memory Path -/

theorem test_meets_StepTakesTheFront :
    { running with pending := [.halfSecondTick, .sweepStep] }.pending = .halfSecondTick :: [.sweepStep] ∧
      State.reset.pending = [] := by decide

theorem test_meets_EveryStepKeepsMemoryCanonical :
    Memory.wf (holding State.reset 0xFFF80 [1, 2]).mem = true ∧
      step { holding State.reset 0xFFF80 [1, 2] with pending := [.halfSecondTick] } =
        .next (doHalfSecondTick (holding State.reset 0xFFF80 [1, 2])) := ⟨by decide +kernel, rfl⟩

theorem test_meets_EveryStepKeepsTheQueuesBounded :
    (intakeFull running).Bounded ∧
      step { intakeFull running with pending := [.halfSecondTick] } = .next (doHalfSecondTick (intakeFull running)) :=
  ⟨by simp only [State.Bounded]; decide +kernel, rfl⟩

theorem test_meets_OnlyThePortChangesMemory :
    writesMemory (.halt 2) = false ∧ (arriving running .control 2).path.arrivals ≠ [] ∧
      exec (.halt 2) (arriving running .control 2) = .next (doHalt 2 (arriving running .control 2)) :=
  ⟨by decide, by decide +kernel, rfl⟩

theorem test_meets_PowerOnAndResets :
    (arriving running .control 3).first .control 3 ∧ actionCode 3 = 3 :=
  ⟨⟨rfl, rfl⟩, by decide⟩

theorem test_meets_ComputerReads :
    Config.liveBase ≤ (0xFFFC0 : WordAddr).toNat ∧ (0xFFFBF : WordAddr).toNat < Config.liveBase ∧
      running.cycleReady = true := by decide +kernel

theorem test_meets_GuardedWrites :
    running.run.part ≠ .idle ∧ Config.activeBankAddr ≤ (0xFFF80 : WordAddr).toNat ∧
      (0xFFFBF : WordAddr).toNat < Config.liveBase ∧ running.path.armed = true ∧ running.path.pendingSub = none ∧
      running.log.intake.length < Config.intakeDepth ∧ Config.intakeDepth ≤ (intakeFull running).log.intake.length ∧
      { running with path := { running.path with armed := false } }.path.armed = false ∧
      { running with path := { running.path with pendingSub := some (AlarmEntry.mk .writeSuppressed .minor .none 0 0) } }.path.pendingSub
        = some (AlarmEntry.mk .writeSuppressed .minor .none 0 0) := by decide +kernel

/-- A word of each kind that the windows guard, in a map whose windows lie apart and within memory. -/
theorem test_meets_GuardedWrites_windows :
    running.path.map = some exampleMap ∧ exampleMap.windows.any Machine.outOfBounds = false ∧
      anyOverlap exampleMap.windows = false ∧ (0x1024 : WordAddr).toNat = exampleMap.sub + 16 * 2 + 4 ∧
      2 < exampleMap.ns ∧ exampleMap.bill ≤ (0x202F : WordAddr).toNat ∧
      (0x202F : WordAddr).toNat < exampleMap.bill + 16 * exampleMap.ns ∧ exampleMap.mirror ≤ (0x51FF : WordAddr).toNat ∧
      (0x51FF : WordAddr).toNat < exampleMap.mirror + 4608 ∧ exampleMap.log ≤ (0x6000 : WordAddr).toNat ∧
      (0x603F : WordAddr).toNat < exampleMap.log + 4 * exampleMap.s ∧
      (0x70AF : WordAddr).toNat < exampleMap.tele + 176 ∧
      (0x3000 : WordAddr).toNat = exampleMap.line + 608 * (0 : Bank).val + 0 ∧ running.path.protActive = some 0 ∧
      (0x3262 : WordAddr).toNat = exampleMap.line + 608 * (1 : Bank).val + 2 ∧
      (0x34BF : WordAddr).toNat = exampleMap.line + 608 * (1 : Bank).val + 607 ∧ 5 ≤ 607 % 8 := by decide +kernel

theorem test_meets_PassedWrites :
    Config.liveBase ≤ (0xFFFFF : WordAddr).toNat ∧ running.cycleReady = true ∧ State.reset.cycleReady = true ∧
      State.reset.path.map = none ∧ (0xFFEFF : WordAddr).toNat < Config.anchorBase ∧ (3 : BitVec 4) ≠ 0xF ∧
      running.run.held = false ∧ { running with run := { running.run with held := true } }.cycleReady = true := by
  decide +kernel

/-- An order word, a word of the computer's and a word of a bank, with a map held, and a bank that is VALIDATING. -/
theorem test_meets_PassedWrites_windows :
    let v : Validation := { bank := 1, part := 3, edited := false, minute := 1000
                            plan := Vector.replicate 8 { kind := .closed, tier := 0 }, slots := [], startup := false }
    let judged : State := { running with lineUp := { running.lineUp with validation := some v } }
    let write : Cycle := { addr := 0x1023, write := true, be := 0xF, data := 0x101, trigger := some (.order 2) }
    let on (s : State) : State := { s with path := { s.path with port := .cycle write } }
    running.path.map = some exampleMap ∧ exampleMap.windows.any Machine.outOfBounds = false ∧
      anyOverlap exampleMap.windows = false ∧ 2 < exampleMap.ns ∧ (0x1023 : WordAddr).toNat = exampleMap.sub + 16 * 2 + 3 ∧
      (0x1022 : WordAddr).toNat = exampleMap.sub + 16 * 2 + 2 ∧
      (0x3260 : WordAddr).toNat = exampleMap.line + 608 * (1 : Bank).val + 0 ∧
      (0x34BC : WordAddr).toNat = exampleMap.line + 608 * (1 : Bank).val + 604 ∧ 604 % 8 < 5 ∧
      running.path.protActive ≠ some 1 ∧ running.path.protSealed ≠ some 1 ∧ judged.lineUp.validation = some v ∧ v.bank = 1 ∧
      judged.cycleReady = true ∧ running.lineUp.validation = none ∧ (on running).path.port = .cycle write ∧
      write.trigger = some (.order 2) ∧ (on running).path.map.isSome = true ∧ (on running).run.part = .running ∧
      (on State.reset).path.map = none ∧ (on (inPart .halted)).run.part = .halted := by decide +kernel

theorem test_meets_CyclesAndBurstsCarried :
    let read : Cycle := { addr := 0, write := false, be := 0, data := 0, trigger := none }
    let write : Cycle := { addr := 0xFFF61, write := true, be := 0xF, data := 9, trigger := some .heartbeat }
    { running with path := { running.path with port := .cycle read } }.path.port = .cycle read ∧ read.write = false ∧
      { running with path := { running.path with port := .cycle write } }.path.port = .cycle write ∧ write.write = true ∧
      Memory.wf running.mem = true ∧ write.trigger = some .heartbeat ∧ running.run.held = false ∧
      (withBurst running .alarm .logAnchor 0xFFFB0 [5]).path.port = .burst .alarm .logAnchor 0xFFFB0 [5] false ∧
      (∀ x n, Burst.logAnchor ≠ .read x n) := by
  refine ⟨rfl, rfl, rfl, rfl, by decide +kernel, rfl, rfl, rfl, fun _ _ h => by cases h⟩

/-- A read burst that ends: the fifth of the configuration check with one to come, the last, and one of no step. -/
theorem test_meets_CyclesAndBurstsCarried_reads :
    let s := reading (starting .check) .runControl
    let made (t : State) := t.path.reads[Requester.runControl.idx].map fun x => (x.addr, x.len)
    let old := reading (starting .enter) .runControl configReads
    let one := reading running .billing [(0x2000, 16), (0x1008, 8)]
    (s (configReads.take 5)).path.port = .burst .runControl (.read 0xFFF40 16) 0xFFF40 [] false ∧
      (s (configReads.take 5)).readsDue .runControl = (made (s (configReads.take 5)) ++ [(0xFFF40, 16)]) ++ [(0xFFF50, 16)] ∧
      (s configReads).path.port = .burst .runControl (.read 0xFFF50 16) 0xFFF50 [] false ∧
      (s configReads).readsDue .runControl = made (s configReads) ++ [(0xFFF50, 16)] ∧
      old.path.port = .burst .runControl (.read 0xFFF50 16) 0xFFF50 [] false ∧ old.readsDue .runControl = [] ∧
      one.path.reads[Requester.billing.idx] = [{ addr := 0x2000, len := 16, words := memWords one.mem 0x2000 16 }] := by
  decide +kernel

theorem test_meets_PortGrants :
    let c : Cycle := { addr := 0, write := false, be := 0, data := 0, trigger := none }
    let s := { running with path := { running.path with cycle := some c } }
    let q := running.ask .alarm .logAnchor
    s.path.port = .free ∧ s.path.cycle = some c ∧ s.path.partNext = false ∧ q.path.port = .free ∧ q.path.cycle = none ∧
      q.nextRequester = some .alarm ∧ q.path.line .alarm = [.logAnchor] ∧ q.readTurn .alarm = none ∧
      s.nextRequester = none ∧
      (starting .check).nextRequester = some .runControl ∧ (starting .check).path.line .runControl = [] ∧
      (starting .check).path.reads[Requester.runControl.idx] = [] ∧
      (let s := reading (starting .check) .runControl (configReads.take 2)
       s.path.reads[Requester.runControl.idx].map (fun x => (x.addr, x.len)) = [(0xFFF00, 16)] ∧
         s.readsDue .runControl = [(0xFFF00, 16)] ++ (0xFFF10, 16) :: configReads.drop 2) := by
  decide +kernel

/-- A block with a write that it asked for before and after it presented a read, and the record read that begins a dispatch. -/
theorem test_meets_PortGrants_turns :
    let notice : State := { running with bill := { running.bill with queue := [.notice 0 .startService 1000] } }
    let behind := notice.ask .billing .cursor
    let before : State := { running.ask .billing .cursor with bill := notice.bill }
    let two : State := { before.ask .billing (.boundary false) with bill := notice.bill }
    let due : State := { running with order := { running.order with queue := [2, 1] } }
    notice.path.port = .free ∧ notice.nextRead .billing = some (0x2000, 16) ∧
      notice.readTurn .billing = some (0, (0x2000, 16)) ∧ behind.nextRead .billing = some (0x2000, 16) ∧
      behind.path.turns[Requester.billing.idx] = some (0, (0x2000, 16)) ∧ behind.nextRequester = some .billing ∧
      behind.path.cycle = none ∧ behind.readTurn .billing = some (0, (0x2000, 16)) ∧
      before.path.line .billing = [.cursor] ∧ before.path.turns[Requester.billing.idx] = none ∧
      before.readTurn .billing = some (1, (0x2000, 16)) ∧ two.path.turns[Requester.billing.idx] = some (1, (0x2000, 16)) ∧
      two.path.line .billing = [.cursor, .boundary false] ∧ two.readTurn .billing = some (1, (0x2000, 16)) ∧
      running.nextRead .billing = none ∧ due.nextRequester = some .orderUnit ∧ due.dispatchNext = true ∧
      due.readTurn .orderUnit = some (0, (0x1020, 16)) := by decide +kernel

/-- A read presented before another step comes due keeps its place, and a step begun goes on. -/
theorem test_meets_PortGrants_places :
    let notice : State := { running with bill := { running.bill with queue := [.notice 0 .startService 1000] } }
    let kept := notice.ask .billing .cursor
    let begun := reading running .billing [(0x2000, 16), (0x1008, 8)]
    let plans : List (List ReadReq) := [[(0x1002, 3)], [(0x2000, 16), (0x1008, 8)]]
    running.order.queue.length < Config.orderQueueDepth ∧ running.order.reports.length < Config.orderReportDepth ∧
      running.bill.queue.length < Config.noticeDepth ∧ kept.path.turns[Requester.billing.idx] = some (0, (0x2000, 16)) ∧
      (∀ p ∈ plans, kept.begun .billing p = false) ∧ (∃ p ∈ plans, p.head? = some (0x2000, 16)) ∧
      (kept.nextPlan .billing plans).head? = some (0x2000, 16) ∧ (∃ p ∈ plans, begun.begun .billing p = true) := by
  decide +kernel

/-- A write asked for while a read is presented goes behind it, and one asked for before goes first. -/
theorem test_requests_go_in_the_order_made :
    let notice : State := { running with bill := { running.bill with queue := [.notice 0 .startService 1000] } }
    let before : State := { running.ask .billing .cursor with bill := notice.bill }
    let two := doMemoryPortGrant (before.ask .billing (.boundary false))
    (doMemoryPortGrant (notice.ask .billing .cursor)).path.port = .burst .billing (.read 0x2000 16) 0x2000 [] false ∧
      two.path.port = .burst .billing .cursor Config.cursorAddr [0] false ∧
      (doMemoryPortGrant (doBurstComplete two)).path.port = .burst .billing (.read 0x2000 16) 0x2000 [] false := by
  decide +kernel

/-- The index leaves the queue with the grant of its record's read, and an arrival that comes then is noted. -/
theorem test_dispatch_takes_its_index :
    let due : State := { running with order := { running.order with queue := [2, 1] } }
    let s := doMemoryPortGrant due
    let t := doOrderArrival 2 0x103 (arriving s (.order 2) 0x103)
    s.order.queue = [1] ∧ s.order.taken = some { sub := 2, reorder := false } ∧ t.order.queue = [1] ∧
      t.order.taken = some { sub := 2, reorder := true } ∧ (doBadOrder t).order.queue = [1, 2] ∧
      (doBadOrder t).order.taken = none := by decide +kernel

theorem test_meets_ArrivalStandsForItsWrite :
    let s := running
    let s1 := doComputerWrite (BitVec.ofNat 20 (Config.commandBase + 1)) 0xF 7 s
    s.path.arrivals = [] ∧ s.path.cycle = none ∧ s.path.port = .free ∧ s.path.partNext = false ∧ s.run.held = false ∧
      exec (.computerWrite (BitVec.ofNat 20 (Config.commandBase + 1)) 0xF 7) s = .next s1 ∧
      exec .memoryPortGrant s1 = .next (doMemoryPortGrant s1) ∧
      exec .passedCycleCarried (doMemoryPortGrant s1) = .next (doPassedCycleCarried (doMemoryPortGrant s1)) :=
  ⟨rfl, rfl, rfl, rfl, rfl, rfl, rfl, rfl⟩

/-! ### Plant time and Run Control -/

/-- The clock set, one tick short of a minute event. -/
def lastTick (s : State) : State := { s with time := { s.time with half := 119 } }

theorem test_meets_TicksCount :
    State.reset.time.clockSet = false ∧ running.time.clockSet = true ∧ running.time.half < 119 ∧
      (lastTick { running with time := { running.time with minute := Config.minuteTop } }).time.half = 119 ∧
      { running with time := { running.time with minute := Config.minuteTop } }.time.minute = Config.minuteTop ∧
      Timer.stopped.running = false ∧ (Timer.start 2).running = true ∧ (Timer.start 2).count + 1 < (Timer.start 2).period ∧
      (Timer.start 1).count + 1 = (Timer.start 1).period := by decide +kernel

theorem test_meets_MinuteEvents :
    (lastTick running).time.clockSet = true ∧ (lastTick running).time.half = 119 ∧
      (lastTick running).time.minute ≠ Config.minuteTop ∧
      { lastTick running with run := State.reset.run }.run.part = .idle := by decide +kernel

/-- Event 9 in slot 71 on band 2, at 499 cents. -/
def eventSlot : Slot :=
  { cls := .event, channel := 40, band := 2, tune := 5, level := 480, event := 9, price := 499, start := 2000, stop := 2100 }

def withEvent (s : State) (st : EvState) : State :=
  { s with lineUp := { s.lineUp with copy := some { Copy.empty with
      slots := Copy.empty.slots.set 71 eventSlot, ev := Copy.empty.ev.set 71 st } } }

/-- The minute before event 9 starts, or one of its window, with its carrier in the state given. -/
def eventMinute (st : EvState) (minute : Nat) (carrier : EvalState) (p : PartState) : State :=
  let s := withEvent (lastTick running) st
  { s with time := { s.time with minute := minute }, run := { s.run with part := p }
           scan := s.scan.setSlot 71 { TeleSlot.cleared with eval := { Eval.normal with state := carrier } }
           lineUp := { s.lineUp with epoch := .scheduled, epochReq := minute + 1 } }

theorem test_meets_MinuteEvents_work :
    let s := eventMinute .scheduled 1999 .normal .running
    let e := eventMinute .running 2099 .low .halting
    let reports (x : State) : List OrderReport := (List.finRange 72).filterMap fun k =>
      changeReport x.active.ev[k] (x.active.slots[k].stateAt (x.time.minute + 1)) x.active.slots[k].event (x.time.minute + 1)
    s.time.clockSet = true ∧ s.time.half = 119 ∧ s.time.minute ≠ Config.minuteTop ∧ s.lineUp.work = [] ∧
      s.lineUp.copy = some s.active ∧ e.lineUp.copy = some e.active ∧ reports s = [.eventStart 9 2000] ∧
      reports e = [.eventEnd 9 2100] ∧ s.order.reports.length + 1 ≤ Config.orderReportDepth ∧
      s.run.part = .running ∧ e.run.part = .halting ∧ s.lineUp.epoch = .scheduled ∧
      s.lineUp.epochReq ≤ s.time.minute + 1 ∧ s.lineUp.switching = false ∧ s.bill.boundary.kind = .none ∧
      s.log.intake.length < Config.intakeDepth ∧ e.scan.slots[(71 : SlotId)].eval.state = .low ∧
      eventSlot.start ≤ e.time.minute ∧ e.time.minute < eventSlot.stop := by decide +kernel

theorem test_meets_MinuteEvents_states :
    Slot.dark.isEvent = false ∧ eventSlot.isEvent = true ∧ 1999 < eventSlot.start ∧ 2000 = eventSlot.start ∧
      2099 < eventSlot.stop ∧ eventSlot.stop = 2100 := by decide

theorem test_meets_TimeSets (p : PartState) :
    (arriving { running with run := { running.run with part := p } } .timeSet 1000).first .timeSet 1000 ∧
      (999 : Word).toNat < running.time.minute ∧ (1000 : Word).toNat = running.time.minute ∧
      running.time.minute < (1001 : Word).toNat :=
  ⟨⟨rfl, rfl⟩, by decide⟩

/-- A jump over the start of event 9 or over its whole window, an epoch falling due on the way. -/
theorem test_meets_TimeSets_jump :
    let s (p : PartState) (w : Word) := arriving (eventMinute .scheduled 1500 .normal p) .timeSet w
    let held : State := { s .running 2000 with bill := { (s .running 2000).bill with boundary := { kind := .close, minute := 1400, number := 6 } } }
    let reports (x : State) (n : Nat) : List OrderReport := (List.finRange 72).filterMap fun k =>
      changeReport x.active.ev[k] (x.active.slots[k].stateAt n) x.active.slots[k].event n
    (s .running 2000).first .timeSet 2000 ∧ (s .running 2000).time.minute < (2000 : Word).toNat ∧
      (s .running 2000).lineUp.copy = some (s .running 2000).active ∧ (s .running 2000).lineUp.work = [] ∧
      reports (s .running 2000) 2000 = [.eventStart 9 2000] ∧ reports (s .halting 2200) 2200 = [.eventEnd 9 2200] ∧
      (s .running 2000).order.reports.length + 1 ≤ Config.orderReportDepth ∧ (s .running 2000).run.part = .running ∧
      (s .halting 2200).run.part = .halting ∧ (s .running 2000).lineUp.epoch = .scheduled ∧
      (s .running 2000).lineUp.epochReq = 1501 ∧ (s .running 2000).lineUp.switching = false ∧
      (s .running 2000).bill.boundary.kind = .none ∧ held.bill.boundary.kind ≠ .none ∧
      held.log.intake.length < Config.intakeDepth := by
  refine ⟨⟨rfl, rfl⟩, ?_⟩
  decide +kernel

theorem test_meets_HeartbeatsAndSupervision :
    (arriving running .heartbeat 0).first .heartbeat 0 ∧ running.time.silent = false ∧ 0 < running.cfg.heartbeat ∧
      running.time.work = [] ∧ running.log.intake.length < Config.intakeDepth ∧
      { running with time := { running.time with silent := true } }.time.silent = true ∧
      0 < { running with time := { running.time with supervision := { Timer.stopped with due := 1 } } }.time.supervision.due :=
  ⟨⟨rfl, rfl⟩, by decide +kernel⟩

theorem test_meets_ControlCommands (p : PartState) (w : Word) :
    (arriving { running with run := { running.run with part := p } } .control w).first .control w ∧
      actionCode 1 = 1 ∧ actionCode 2 = 2 ∧ actionCode 0 = 0 ∧ 4 < actionCode 5 ∧ running.time.clockSet = true ∧
      State.reset.time.clockSet = false :=
  ⟨⟨rfl, rfl⟩, by decide +kernel⟩

theorem test_meets_ClearStatus : (arriving running .control 4).first .control 4 ∧ actionCode 4 = 4 :=
  ⟨⟨rfl, rfl⟩, by decide⟩

/-- The last-alive word is read, on a start from IDLE or from HALTED, no later than the RUN minute or later. -/
def lastAliveRead (halted : Bool) (v : Word) : State :=
  let s := holding { starting .lastAlive with run := { (starting .lastAlive).run with fromHalted := halted } } Config.lastAliveAddr [v]
  withBurst s .runControl .readLastAlive Config.lastAliveAddr []

theorem lastAliveRead_quiet (halted : Bool) (v : Word) : (lastAliveRead halted v).quiet := by
  refine ⟨fun b => ?_, rfl⟩
  cases b with
  | engine f => exact running_engines_quiet f
  | _ => rfl

/-- The last-alive word is no later than the RUN minute, or later. -/
theorem test_meets_ControlCommands_lastAlive (halted : Bool) :
    (lastAliveRead halted 1000).quiet ∧ (lastAliveRead halted 1001).quiet ∧
      (lastAliveRead halted 1000).run.part = .starting ∧ (lastAliveRead halted 1000).run.phase = .lastAlive ∧
      (lastAliveRead halted 1000).path.port = .burst .runControl .readLastAlive Config.lastAliveAddr [] false ∧
      (memWord (lastAliveRead halted 1000).mem Config.lastAliveAddr).toNat ≤ (lastAliveRead halted 1000).runMinute ∧
      (lastAliveRead halted 1001).runMinute < (memWord (lastAliveRead halted 1001).mem Config.lastAliveAddr).toNat ∧
      (lastAliveRead halted 1001).run.fromHalted = halted := by
  refine ⟨lastAliveRead_quiet _ _, lastAliveRead_quiet _ _, rfl, rfl, rfl, ?_⟩
  cases halted <;> decide +kernel

/-- A configuration of three subscribers that holds no fault, word 6 (Ns and S) and word 7 (rate, window) given. -/
def configured (s : State) (w0 w6 w7 : Word) : State :=
  holding s Config.anchorBase [w0, 0x2000, 0x3000, 0x4000, 0x6000, 0x7000, w6, w7, 0x0302003C, 0x001E00F0, 0x000C000F, 0, 0]

def goodConfig (s : State) : State := configured s 0x1000 0x00100003 0x031000FF

/-- The part at its configuration check, on a start from IDLE or from HALTED. -/
def checking (s : State) (halted : Bool) : State :=
  { s with run := { s.run with part := .starting, phase := .check, fromHalted := halted, runMinute := some 1000 } }

theorem test_meets_ConfigurationChecks :
    let m (s : State) := s.mem
    (readMap (m State.reset)).s < 16 ∧ 16 ≤ (readMap (m (configured State.reset 0x1000 0x00100000 0))).s ∧
      (readMap (m (configured State.reset 0x1000 0x10000000 0))).s ≤ 4096 ∧
      (readMap (m (configured State.reset 0x1000 0x00100000 0))).ns < 1 ∧
      (readMap (m (configured State.reset 0xFFEF0 0x00100002 0))).windows.any Machine.outOfBounds = true ∧
      (readMap (m (configured State.reset 0x2000 0x00100002 0))).windows.any Machine.outOfBounds = false ∧
      anyOverlap (readMap (m (configured State.reset 0x2000 0x00100002 0))).windows = true ∧
      anyOverlap (readMap (m (configured State.reset 0x1000 0x00100002 0x300))).windows = false ∧
      (readSettings (m (configured State.reset 0x1000 0x00100002 0x300))).rate = 3 ∧
      (readSettings (m (configured State.reset 0x1000 0x00100002 0x00070000))).rate ≠ 3 ∧
      (readSettings (m (configured State.reset 0x1000 0x00100002 0x00070000))).window < 8 ∧
      60 < (readSettings (m (configured State.reset 0x1000 0x00100002 0x003D0000))).window := by decide +kernel

theorem test_meets_ConfigurationChecks_starts :
    let cold := reading (checking (goodConfig running) false) .runControl configReads
    let resume := reading (checking (goodConfig { running with cfg := { exampleSettings with enable := 0xFF } }) true)
      .runControl configReads
    let bad := reading (checking running false) .runControl configReads
    let m (s : State) := s.seenBy .runControl
    bad.run.phase = .check ∧ bad.hasRead .runControl configReads = true ∧ configFault (m bad) ≠ .none ∧
      (checking running true).run.fromHalted = true ∧ cold.hasRead .runControl configReads = true ∧
      configFault (m cold) = .none ∧ cold.run.fromHalted = false ∧ Memory.wf cold.mem = true ∧
      (∀ y ∈ cold.path.reads[Requester.runControl.idx], y.words.length = y.len) ∧
      (cold.path.reads[Requester.runControl.idx][4]?.bind fun x => x.words[15]?) = some 0 ∧
      configFault (m resume) = .none ∧ resume.path.map = some (readMap (m resume)) ∧
      (readSettings (m resume)).enable = resume.cfg.enable ∧
      (readSettings (m resume)).enable ≠ { resume with cfg := { resume.cfg with enable := 1 } }.cfg.enable := by
  decide +kernel

/-- The later settings, each at its bounds, and an entry of the scan list outside the table. -/
theorem test_meets_ConfigurationChecks_settings :
    let m (w7 w8 w9 w10 w11 w12 e : Word) := (holding (holding State.reset Config.anchorBase
      [0x1000, 0x2000, 0x3000, 0x4000, 0x6000, 0x7000, 0x00100003, w7, w8, w9, w10, w11, w12]) (Config.anchorBase + 16) [e]).mem
    let fault (w7 w8 w9 w10 w11 w12 e : Word) := configFault (m w7 w8 w9 w10 w11 w12 e)
    fault 0x001000FF 0x0302003C 0 0 0 0 0 = .attempts ∧ fault 0x031000FF 0x0301003C 0 0 0 0 0 = .missThreshold ∧
      fault 0x031000FF 0x03020009 0 0 0 0 0 = .rollCallPeriod ∧
      fault 0x031000FF 0x0302003C 0x001E0000 0 0 0 0 ≠ .none ∧
      fault 0x031000FF 0x0302003C 0x001E00F0 0x000C000F 0 9 0 = .scanList ∧
      fault 0x031000FF 0x0302003C 0x001E00F0 0x000C000F 0 1 0x0000000D = .scanEntry ∧
      fault 0x031000FF 0x0302003C 0x001E00F0 0x000C000F 4 0 0 = .scanMode ∧
      fault 0x031000FF 0x0302003C 0x001E00F0 0x000C000F 0x00000002 0 0 = .scanMode ∧
      fault 0x031000FF 0x0302003C 0x001E00F0 0x000C000F 0x0E100002 0 0 = .none ∧
      readScanEntry (m 0 0 0 0 0 0 0x0F01000C) 0 = none ∧ readScanEntry (m 0 0 0 0 0 0 0x0F010000) 0 ≠ none := by
  decide +kernel

theorem test_meets_ConfigurationChecks_quiet :
    (withBurst (starting (.refusing 1)) .lineUp (.result 1) 0x3263 [5]).quiet := by
  refine ⟨fun b => ?_, rfl⟩
  cases b with
  | engine f => revert f; decide +kernel
  | _ => rfl

/-- Every entry of the running part is FREE. -/
theorem running_entry (e : EntryId) : running.entry e = Entry.free := by
  simp [State.entry, running, inPart, State.reset, Directory.reset]

/-- What memory holds, and where a start stands, leaves the entries as they are. -/
theorem holding_entry (s : State) (a : Nat) (ws : List Word) (e : EntryId) : (holding s a ws).entry e = s.entry e := rfl

theorem reading_entry (s : State) (r : Requester) (plan : List ReadReq) (e : EntryId) :
    (reading s r plan).entry e = s.entry e := rfl

theorem reading_claimOf (s : State) (r : Requester) (plan : List ReadReq) (sub : Nat) :
    (reading s r plan).claimOf sub = s.claimOf sub := rfl

/-- A step whose reads find what memory holds sees memory as it stands. -/
theorem reading_view (s : State) (r : Requester) (plan : List ReadReq) (h : Memory.wf s.mem = true) :
    (reading s r plan).seenBy r = s.mem := by
  refine State.seenBy_eq_mem _ r h ?_
  simp [reading]
  intro x hx
  obtain ⟨y, _, rfl⟩ := List.mem_map.mp (List.mem_of_mem_dropLast hx)
  rfl

/-- The parts of a cold start's check that follow: the bank's number, the bank, and the log. -/
theorem test_meets_ConfigurationChecks_banks :
    let number (n : Word) := reading (holding (starting .bankNumber) 0xFFF80 [n]) .lineUp bankNumberReads
    let bank (x : Word) := reading (holding (starting (.bank 1)) (0x3000 + 608 + 8 * 75) [x]) .lineUp (running.bankReads 1)
    let refusing := withBurst (starting (.refusing 1)) .lineUp (.result 1) 0x3263 [5]
    let log0 := { starting .log with run := { (starting .log).run with staged := some exampleSettings } }
    let log := reading log0 .alarm log0.logReads
    (number 2).hasRead .lineUp bankNumberReads = true ∧ 1 < (memWord (number 2).mem Config.activeBankAddr).toNat ∧
      (memWord (number 1).mem Config.activeBankAddr).toNat = (1 : Bank).val ∧
      (bank 0).hasRead .lineUp ((bank 0).bankReads 1) = true ∧ ((bank 0).view .lineUp).bankFault 1 = none ∧
      ((bank 0x1000).view .lineUp).bankFault 1 = some (.badChannel, some 71) ∧
      refusing.path.port = .burst .lineUp (.result 1) 0x3263 [5] false ∧ refusing.run.phase = .refusing 1 ∧
      log.run.phase = .log ∧ log.run.staged = some exampleSettings ∧ log.hasRead .alarm log.logReads = true := by
  refine ⟨by decide +kernel, by decide +kernel, by decide +kernel, by decide +kernel, ?_, ?_, by decide +kernel,
    by decide +kernel, by decide +kernel, by decide +kernel, by decide +kernel⟩
  all_goals rw [State.view, reading_view _ _ _ (by decide +kernel)]; decide +kernel

theorem starting_entry (ph : StartPhase) (e : EntryId) : (starting ph).entry e = running.entry e := rfl

/-- A subscriber that no port names has no claim. -/
theorem claimOf_other {s : State} {sub : Nat} (h : ∀ e, (s.entry e).ports.all (fun p => p.claim != some sub) = true) :
    s.claimOf sub = none := by
  unfold State.claimOf
  rw [List.findSome?_eq_none_iff]
  intro e _
  rw [Option.map_eq_none_iff, List.find?_eq_none]
  intro p _ hp
  have := Vector.all_eq_true.mp (h e) p.val p.isLt
  rw [beq_iff_eq] at hp
  simp_all

/-- No entry of a pool without claims is a subscriber's. -/
theorem claimOf_none {s : State} {sub : Nat} (h : ∀ e, (s.entry e).ports.all (fun p => p.claim.isNone) = true) :
    s.claimOf sub = none := by
  refine claimOf_other fun e => ?_
  have := h e
  simp only [Vector.all_eq_true, Option.isNone_iff_eq_none] at this ⊢
  intro i hi
  rw [this i hi]
  rfl

/-- No serial is found, and no position taken, in a pool of FREE entries. -/
theorem nobody {s : State} (h : ∀ e, s.entry e = Entry.free) (sn : Word) (f : Feeder) (pos : Nat) :
    s.entryOfSerial sn = none ∧ s.placeAt f pos = none := by
  constructor
  · exact List.find?_eq_none.mpr fun e _ => by rw [h]; simp [Entry.free]
  · exact List.find?_eq_none.mpr fun e _ => by rw [h]; simp [Entry.free]

/-- A tap's entry at a position of feeder 0. -/
def tapAt (serial : Word) (pos : Nat) (st : EntryState) : Entry :=
  { Entry.free with serial := serial, place := some { feeder := 0, pos := pos }, state := st }

theorem test_meets_StartUpLoads :
    let x := tapAt 77 5 .present
    let first := reading (starting (.load 0)) .directory (running.mirrorReads 0)
    let s := reading (holding (starting (.load 575)) (0x4000 + 8 * 575) x.mirror) .directory (running.mirrorReads 575)
    first.run.phase = .load (0 : Fin 576).val ∧ first.dir.work = [] ∧ first.hasRead .directory (first.mirrorReads 0) = true ∧
      memWords first.mem (first.map.mirror + 8 * 0) 8 = List.replicate 8 0 ∧
      s.hasRead .directory (s.mirrorReads 575) = true ∧
      Entry.ofMirror (memWords s.mem (s.map.mirror + 8 * 575) 8) = some x ∧
      x.place = some { feeder := 0, pos := 5 } ∧
      (reading (starting (.loads false true)) .billing billingLoadReads).hasRead .billing billingLoadReads = true ∧
      (let e := withEvent (starting (.loads true false)) .scheduled
       e.lossReads = [(0x3000 + 32 + 8 * 71 + 6, 1)] ∧ (reading e .scanner e.lossReads).hasRead .scanner e.lossReads = true) ∧
      s.entryOfSerial x.serial = none ∧ s.placeAt 0 5 = none := by
  intro x first s
  have h := nobody (s := s) (fun e => (reading_entry _ _ _ e).trans
    ((holding_entry _ _ _ e).trans ((starting_entry _ e).trans (running_entry e)))) x.serial 0 5
  exact ⟨rfl, by decide +kernel, by decide +kernel, by decide +kernel, by decide +kernel, by decide +kernel, rfl,
    by decide +kernel, by decide +kernel, h.1, h.2⟩

/-- A subscriber record as memory holds it. -/
def recordWords (r : SubRec) : List Word :=
  [0, r.serial, word (r.port.val + 2 ^ 16 * r.tiers.toNat), word (r.okind + 2 ^ 8 * r.oserial + 2 ^ 16 * r.oarg)] ++ r.partWords

/-- A record that holds nothing. -/
def emptyRecord : SubRec := SubRec.ofWords []

/-- An enrolled subscriber's record, its drop on port 0 of the tap with serial 77. -/
def enrolledRecord : SubRec := { emptyRecord with enrolled := true, serial := 77, tiers := 1 }

/-- The same with service wanted and the claim held. -/
def servedRecord : SubRec := { enrolledRecord with wantOn := true, claimHeld := true, claimSerial := 77 }

/-- The tap with serial 77 at position 5 of feeder 0, in the state given, and record 0 in memory. -/
def withTap (s : State) (st : EntryState) (r : SubRec) : State :=
  holding (s.setEntry 0 (tapAt 77 5 st)) 0x1000 (recordWords r)

theorem test_meets_SubscriberPassSteps :
    let s := reading (withTap (starting (.pass 0)) .present servedRecord) .orderUnit [running.readSub 0]
    let p := reading (starting (.pass 2)) .orderUnit [running.readSub 2]
    let strange := holding p (0x1000 + 16 * 2 + 8) [0x00030009]
    p.order.work = [] ∧ p.hasRead .orderUnit [p.readSub 2] = true ∧ (p.ownRec 2).enrolled = false ∧
      (p.ownRec 2).pending = false ∧
      strangeRecord (p.subWords 2) = false ∧ strangeRecord (strange.subWords 2) = true ∧
      (strange.ownRec 2).enrolled = false ∧ (strange.ownRec 2).pending = false ∧
      s.hasRead .orderUnit [s.readSub 0] = true ∧ (s.ownRec 0).enrolled = true ∧ s.passClaim (s.ownRec 0) = some (0, 0) ∧
      ∀ k : Fin 4, (s.ownRec 0).slots[k].used = false := by decide +kernel

/-- Record 0 as the pass reads it, with no tap in the pool. -/
def passing (s : State) (r : SubRec) : State := reading (holding s 0x1000 (recordWords r)) .orderUnit [running.readSub 0]

/-- The tap with serial 77, its port 0 claimed by subscriber 1. -/
def claimedTap : Entry :=
  { tapAt 77 5 .present with ports := (tapAt 77 5 .present).ports.set 0 { (tapAt 77 5 .present).ports[0] with claim := some 1 } }

/-- A claim that no tap answers to, one on a port of another subscriber, and wanted service without a claim. -/
theorem test_meets_SubscriberPassSteps_claims :
    let s := passing (starting (.pass 0)) servedRecord
    let taken := passing ((starting (.pass 0)).setEntry 0 claimedTap) servedRecord
    let without := passing (starting (.pass 0)) { servedRecord with claimHeld := false }
    s.entryOfSerial (s.ownRec 0).claimSerial = none ∧ s.claimOf 0 = none ∧ without.claimOf 0 = none ∧ taken.claimOf 0 = none ∧
      (s.ownRec 0).claimHeld = true ∧ (s.ownRec 0).wantOn = true ∧
      (s.ownRec 0).pending = false ∧ strangeRecord (s.subWords 0) = false ∧
      s.bill.queue.length < Config.noticeDepth ∧ taken.entryOfSerial (taken.ownRec 0).claimSerial = some 0 ∧
      (taken.tapPort 0 (taken.ownRec 0).claimPort).claim ≠ none ∧
      (without.ownRec 0).claimHeld = false ∧ (without.ownRec 0).wantOn = true ∧
      ∀ k : Fin 4, (s.ownRec 0).slots[k].used = false := by
  have h (r : SubRec) (e : EntryId) : (passing (starting (.pass 0)) r).entry e = Entry.free := running_entry e
  have k (e : EntryId) : (passing ((starting (.pass 0)).setEntry 0 claimedTap) servedRecord).entry e =
      if 0 = e then claimedTap else Entry.free := by
    rw [← running_entry e]
    exact State.entry_setEntry (starting (.pass 0)) 0 e _
  refine ⟨(nobody (h _) _ 0 0).1, claimOf_none fun e => ?_, claimOf_none fun e => ?_, claimOf_other fun e => ?_, ?_⟩
  · rw [h]; decide +kernel
  · rw [h]; decide +kernel
  · rw [k]; split <;> decide +kernel
  · decide +kernel

/-- Used slots: of an event that is live, ended, or in no slot, with room in the index and without, and a second slot. -/
theorem test_meets_SubscriberPassSteps_slots :
    let r (st : SlotState) : SubRec := enrolledRecord.setSlot 1 (Purchase.mk 9 499 st true 0)
    let two (st : SlotState) : SubRec := (r .booked).setSlot 2 (Purchase.mk 9 499 st true 0)
    let s (ev : EvState) (st : SlotState) : State := passing (withEvent (starting (.pass 0)) ev) (r st)
    let absent := passing (starting (.pass 0)) (r .opened)
    let full := { (s .running .booked).order with
      index := List.replicate 256 ({ sub := 1, event := 8, band := 2, state := .booked } : IndexEntry) }
    (s .ended .opened).claimOf 0 = none ∧ ((s .running .booked).ownRec 0).slots[(1 : Fin 4)].used = true ∧
      (∀ j : Fin 4, j ≠ 1 → ((s .running .booked).ownRec 0).slots[j].used = false) ∧ 256 ≤ full.index.length ∧
      (s .running .booked).order.index.length < 256 ∧ ((s .running .booked).ownRec 0).pending = false ∧
      strangeRecord ((s .running .opened).subWords 0) = false ∧ ((s .running .booked).ownRec 0).claimHeld = false ∧
      ((s .running .booked).ownRec 0).wantOn = false ∧ (s .running .booked).active.slotOfEvent 9 = some 71 ∧
      (s .running .booked).active.ev[(71 : SlotId)] ≠ .ended ∧ (s .ended .opened).active.ev[(71 : SlotId)] = .ended ∧
      ((s .ended .opened).ownRec 0).slots[(1 : Fin 4)].state = .opened ∧
      ((s .running .booked).ownRec 0).slots[(1 : Fin 4)].state = .booked ∧
      absent.active.slotOfEvent (absent.ownRec 0).slots[(1 : Fin 4)].event = none ∧
      (let d := passing (withEvent (starting (.pass 0)) .running) (two .opened)
       (d.ownRec 0).slots[(2 : Fin 4)].used = true ∧ (d.ownRec 0).slots[(2 : Fin 4)].state = .opened ∧
         (∀ m : Fin 4, m ≠ 1 → m ≠ 2 → (d.ownRec 0).slots[m].used = false) ∧ d.order.index.length + 1 < 256 ∧
         (d.ownRec 0).slots[(2 : Fin 4)].event = (d.ownRec 0).slots[(1 : Fin 4)].event) := by
  have h (e : EntryId) : (passing (withEvent (starting (.pass 0)) .ended)
    (enrolledRecord.setSlot 1 (Purchase.mk 9 499 .opened true 0))).entry e = Entry.free := running_entry e
  refine ⟨claimOf_none fun e => ?_, ?_⟩
  · rw [h]; decide +kernel
  · decide +kernel

/-- The read of words 2-4 with which a pass step that made a claim ends. -/
theorem test_meets_SubscriberPassSteps_read :
    let s0 := (withTap (starting (.pass 0)) .present servedRecord).makeClaim 0 0 0
    let x : PassItem := { i := 0, record := servedRecord, changed := false }
    let s := reading { s0 with order := { s0.order with work := [.recompute 0, .passNext x] } } .orderUnit [running.readTiers 0]
    s.order.work = [.recompute x.i, .passNext x] ∧ s.claimOf x.i = some (0, 0) ∧ x.record.pending = false ∧
      s.path.reads[Requester.orderUnit.idx] = [] ∧
      s.path.port = .burst .orderUnit (.read (s.map.sub + 16 * x.i + 2) 3) 0x1002 [] false := by decide +kernel

theorem test_meets_StartUpStates :
    let s (st : Word) := withBurst (holding (starting .lineupWait) (0x3000 + 608 + 2) [st]) .lineUp (.readPending 1) 0x3260 []
    let code (x : State) := bits (wordAt (x.bankPart 1 0) 2) 0 4
    (starting .lineup).run.phase = .lineup ∧ (starting .lineup).order.work = [] ∧ (starting .lineup).lineUp.active = some 0 ∧
      (starting .lineup).path.line .lineUp = [] ∧ (s 3).run.phase = .lineupWait ∧
      (s 3).path.port = .burst .lineUp (.readPending 1) 0x3260 [] false ∧
      code (s 3) = 3 ∧ code (s 4) = 4 ∧ code (s 1) ≠ 3 ∧ code (s 1) ≠ 4 ∧
      (starting (.states false true)).run.phase = .states false true ∧
      (starting (.states true false)).corr.work = [] := by decide +kernel

theorem test_meets_StartUpStates_quiet (st : Word) :
    (withBurst (holding (starting .lineupWait) (0x3000 + 608 + 2) [st]) .lineUp (.readPending 1) 0x3260 []).quiet := by
  refine ⟨fun b => ?_, rfl⟩
  cases b with
  | engine f => revert f; exact (by decide +kernel : ∀ f : Feeder, (running.eng f).work = [])
  | _ => rfl

/-- The pending bank's header is read behind what was written, and a bank that read VALIDATING is EDITABLE. -/
theorem test_lineup_starts_in_order :
    let s := doLineupStartup (starting .lineup)
    let t := doBurstComplete (withBurst (holding s (0x3000 + 608 + 2) [3]) .lineUp (.readPending 1) 0x3260 [])
    (s.path.line .lineUp).head? = some (.header 0) ∧ (s.path.line .lineUp).getLast? = some (.readPending 1) ∧
      (s.path.line .lineUp).length = 74 ∧ t.lineUp.bankState = #v[.active, .editable] ∧
      t.lineUp.results[(1 : Bank)] = resultField .aborted none ∧ t.run.phase = .states false false := by decide +kernel

/-- A tap of feeder 0 that is LOST, silent since the minute given. -/
def lostTap (serial : Word) (pos silent : Nat) : Entry :=
  { tapAt serial pos .lost with silentSince := silent }

/-- Three LOST taps of feeder 0 in a row, a PRESENT one beyond them, and a fourth LOST tap: one run of Nmin taps, and a short
one, on the one enabled feeder. -/
def outageStart : State :=
  let s := { starting (.states true false) with cfg := { exampleSettings with enable := 1 } }
  ((((s.setEntry 0 (lostTap 71 1 900)).setEntry 1 (lostTap 72 2 890)).setEntry 2 (lostTap 73 4 950)).setEntry 3
    (tapAt 74 6 .present)).setEntry 4 (lostTap 75 9 940)

theorem test_meets_StartUpStates_runs :
    outageStart.corr.outages = [] ∧ outageStart.corr.nextId = 1 ∧ outageStart.corr.listFull = false ∧
      (∀ f : Feeder, outageStart.corr.lowSupply[f] = 0) ∧
      outageStart.row 0 = [(1, 0), (2, 1), (4, 2), (6, 3), (9, 4)] ∧
      outageStart.runs 0 = [[(1, 0), (2, 1), (4, 2)], [(9, 4)]] ∧
      outageStart.rebuildList.outages = [Outage.mk 1 0 1 4 890 1000] := by decide +kernel

theorem test_meets_StartUpStates_rows (f : Feeder) : (outageStart.row f).Pairwise fun x y => x.1 < y.1 := by
  revert f; decide +kernel

theorem test_meets_ReconciliationSteps :
    let s := reading (starting (.recon 0)) .billing [running.readTiers 0]
    let last := reading (starting (.recon 2)) .billing [running.readTiers 2]
    let e := reading (withTap (starting (.recon 0)) .present enrolledRecord) .billing [running.readTiers 0, running.readBill 0]
    s.corr.work = [] ∧ s.bill.work = [] ∧ s.hasRead .billing (s.reconReads 0) = true ∧
      ((s.view .billing).subRec 0).enrolled = false ∧
      0 + 1 < s.map.ns ∧ s.bill.sweeping = false ∧ last.hasRead .billing (last.reconReads 2) = true ∧
      ((last.view .billing).subRec 2).enrolled = false ∧ last.map.ns ≤ 2 + 1 ∧ last.bill.cursor < last.map.ns ∧
      last.map.ns ≠ 1 ∧ e.reconReads 0 = [(0x1002, 3), (0x2000, 16)] ∧ e.hasRead .billing (e.reconReads 0) = true ∧
      ((e.view .billing).subRec 0).enrolled = true ∧
      (e.reconcile ((e.view .billing).subRec 0) 0 (e.bill.catchUp e.time.minute ((e.view .billing).billRec 0))).1 ≠
        (e.view .billing).billRec 0 := by decide +kernel

/-- Entries of the Notice Queue and steps of the pass come turn about. -/
theorem test_meets_ReconciliationSteps_entries :
    let s (owes : Bool) : State := { starting (.recon 1) with
      bill := { (starting (.recon 1)).bill with queue := [.notice 0 .startService 1000], owes := owes } }
    (s true).bill.loaded = true ∧ (s true).path.reads[Requester.billing.idx] = [] ∧ (s true).path.port = .free ∧
      (s true).bill.owes = true ∧ (s false).bill.owes = false ∧ (starting (.recon 1)).bill.queue = [] ∧
      (s true).nextRead .billing = some (0x1012, 3) ∧ (s false).nextRead .billing = some (0x2000, 16) := by decide +kernel

/-- A read of the pass presented before an entry came, and an entry that came with none presented. -/
theorem test_meets_ReconciliationSteps_placed :
    let s := (starting (.recon 1)).keepTurn .billing
    let kept : State := { s with bill := { s.bill with queue := [.notice 0 .startService 1000] } }
    let entry : State := { starting (.recon 1) with
      bill := { (starting (.recon 1)).bill with queue := [.notice 0 .startService 1000] } }
    kept.path.turns[Requester.billing.idx] = some (0, kept.readTiers 1) ∧ kept.run.phase = .recon 1 ∧ kept.corr.work = [] ∧
      kept.bill.work = [] ∧ kept.bill.loaded = true ∧ kept.path.reads[Requester.billing.idx] = [] ∧ kept.path.port = .free ∧
      kept.bill.owes = false ∧ entry.path.turns[Requester.billing.idx] = none ∧ entry.bill.owes = false := by decide +kernel

/-- A single subscriber, not enrolled, with a boundary outstanding. -/
theorem test_meets_ReconciliationSteps_single :
    let s0 := starting (.recon 0)
    let s := reading { s0 with
      path := { s0.path with map := some { exampleMap with ns := 1 } }
      bill := { s0.bill with boundary := { kind := .close, minute := 990, number := 6 } } } .billing [running.readTiers 0]
    s.run.phase = .recon 0 ∧ s.corr.work = [] ∧ s.bill.work = [] ∧ s.hasRead .billing (s.reconReads 0) = true ∧
      ((s.view .billing).subRec 0).enrolled = false ∧ s.map.ns = 1 ∧ s.bill.cursor = 0 ∧
      s.bill.boundary.kind ≠ .none ∧ s.lineUp.epoch ≠ .held := by decide +kernel

/-- A subscriber with service wanted, the tap of its claim covered by an outage or by none. -/
def reconciling (outages : List Outage) : State :=
  let s := (withTap (starting (.recon 0)) .lost servedRecord).makeClaim 0 0 0
  { s with corr := { s.corr with outages := outages } }

theorem test_meets_ReconciliationTable :
    let r (st : BillState) (tiers : BitVec 16) : BillRec := { BillRec.ofWords [] with state := st, tiers := tiers }
    (r .off 1).state = .off ∧ servedRecord.tiers = (r .service 1).tiers ∧ servedRecord.tiers ≠ (r .service 2).tiers ∧
      servedRecord.wantOn = true ∧ enrolledRecord.wantOn = false ∧ servedRecord.confirmed = .none ∧
      { servedRecord with confirmed := .on }.confirmed = .on ∧ { servedRecord with confirmed := .off }.confirmed ≠ .on ∧
      (reconciling []).tapCovered 0 = false ∧ (reconciling [Outage.mk 7 0 5 5 990 991]).tapCovered 0 = true := by
  decide +kernel

theorem test_meets_RunningAndHalted :
    let halting := { running with run := { running.run with part := .halting } }
    (starting .enter).run.phase = .enter ∧ (starting .enter).run.part = .starting ∧
      (starting .enter).log.intake.length < Config.intakeDepth ∧ (starting .enter).time.silent = false ∧
      (starting .enter).run.fromHalted = false ∧ 0 < (starting .enter).cfg.heartbeat ∧ halting.run.part = .halting ∧
      (∀ f : Feeder, (halting.eng f).txn = none) ∧ halting.order.work = [] ∧ halting.order.taken = none ∧ halting.bill.queue = [] ∧
      halting.bill.work = [] ∧ halting.lineUp.ask = .none ∧ halting.lineUp.switch = none ∧
      { halting with bill := { halting.bill with queue := [.closeReg 1000 6] } }.bill.queue ≠ [] := by decide +kernel

/-- A resume at its entry to RUNNING, its settings read, with a sequence of the scanner in progress or none. -/
def resuming (sequence : Bool) : State :=
  let s := starting .enter
  { s with run := { s.run with fromHalted := true, staged := some exampleSettings }
           scan := { s.scan with scanning := sequence } }

theorem test_meets_RunningAndHalted_resume (sequence : Bool) :
    (resuming sequence).run.phase = .enter ∧ (resuming sequence).run.part = .starting ∧
      (resuming sequence).run.fromHalted = true ∧ (resuming sequence).run.staged = some exampleSettings ∧
      (resuming sequence).scan.scanning = sequence ∧ (resuming sequence).log.intake.length < Config.intakeDepth ∧
      0 < exampleSettings.heartbeat := ⟨rfl, rfl, rfl, rfl, rfl, Nat.zero_lt_succ _, by decide⟩

/-! ### Subscribers and orders -/

theorem test_meets_OrderArrivals :
    let s := arriving running (.order 2) 0x00000101
    let full := { running.order with queue := List.replicate 32 0 }
    let flying := { running.order with inflight := [InFlight.mk 2 1 .connect 0 0 false false 0] }
    let o : OrderItem := { kind := .disconnect, sub := 2, record := SubRec.ofWords [], minute := 1000, entry := none
                           reorder := false }
    let waiting : State := { s with order := { s.order with work := [.notice (.notice 2 .stopService 1000), .applyOrder o] } }
    let read : State := { s with order := { s.order with taken := some { sub := 2, reorder := false } } }
    s.path.map.isSome = true ∧ 2 < s.map.ns ∧ s.first (.order 2) 0x00000101 ∧ read.dispatching 2 = true ∧
      bits 0x00000100 0 8 = 0 ∧ bits 0x00000101 0 8 ≠ 0 ∧ 2 ∈ { running.order with queue := [2] }.queue ∧
      2 ∉ running.order.queue ∧ (∃ x ∈ flying.inflight, x.sub = 2) ∧ (∀ x ∈ full.inflight, x.sub ≠ 2) ∧
      running.order.queue.length < 32 ∧ 2 ∉ full.queue ∧ 32 ≤ full.queue.length ∧ waiting.dispatching 2 = true ∧
      s.dispatching 2 = false ∧ (List.replicate 31 0).length < 32 :=
  ⟨rfl, by decide, ⟨rfl, rfl⟩, rfl, by decide, by decide, by decide, by decide, by decide, by decide, by decide,
    by decide +kernel, by decide, rfl, rfl, by decide⟩

/-- An order in the order word: kind, serial 1, argument. -/
def ordering (r : SubRec) (kind : Nat) (arg : Nat) : SubRec := { r with okind := kind, oserial := 1, oarg := arg }

/-- The dispatch of record 0 has begun and its record is being read, the tap in the state given. -/
def queued (st : EntryState) (r : SubRec) : State :=
  let s := withTap running st r
  reading { s with order := { s.order with taken := some { sub := 0, reorder := false } } } .orderUnit [running.readSub 0]

/-- The same, an order arrival of the index having come since. -/
def noted (s : State) : State := { s with order := { s.order with taken := some { sub := 0, reorder := true } } }

/-- Its tap is the only one. -/
theorem queued_entry (st : EntryState) (r : SubRec) (e : EntryId) :
    (queued st r).entry e = if 0 = e then tapAt 77 5 st else Entry.free := by
  rw [← running_entry e]
  exact (reading_entry _ _ _ e).trans (State.entry_setEntry running 0 e _)

/-- The same with the port claimed, and in the state last applied. -/
def claiming (r : SubRec) (applied : Option PortState) : State :=
  let s := (queued .present r).makeClaim 0 0 0
  s.setTapPort 0 0 { s.tapPort 0 0 with applied := applied }

/-- Nobody has claimed a port of it. -/
theorem queued_unclaimed (st : EntryState) (r : SubRec) (sub : Nat) : (queued st r).claimOf sub = none := by
  refine claimOf_none fun e => ?_
  rw [queued_entry]
  split
  · cases st <;> decide +kernel
  · decide +kernel

theorem test_meets_BacklogWalks :
    let s0 : State := { running with order := { running.order with backlog := true } }
    let s := reading s0 .orderUnit [running.readOrder 0]
    let e := reading { s0 with order := { s0.order with walk := some { next := 2, appended := false, full := false } } }
      .orderUnit [running.readOrder 2]
    let p := holding { e with order := { e.order with queue := List.replicate 31 1 } } 0x1020 (recordWords (ordering enrolledRecord 4 0))
    s.run.part = .running ∧ s.order.backlog = true ∧ s.hasRead .orderUnit [s.readOrder s.walkNext] = true ∧
      s.order.walk = none ∧
      s.order.queue.length < 8 ∧ 1 < s.map.ns ∧ e.hasRead .orderUnit [e.readOrder e.walkNext] = true ∧
      e.order.queue.length < 32 ∧
      e.map.ns ≤ 2 + 1 ∧ (e.ownRec 2).pending = false ∧ p.order.queue.length = 31 ∧ (p.ownRec 2).pending = true ∧
      p.knows 2 = false ∧ p.hasRead .orderUnit [p.readOrder p.walkNext] = true := by decide +kernel

/-- A walk in its middle step, and one at its end that begins again. -/
theorem test_meets_BacklogWalks_steps :
    let s (k : Walk) (r : SubRec) : State :=
      let s0 : State := holding { running with order := { running.order with backlog := true, walk := some k } }
        (0x1000 + 16 * k.next) (recordWords r)
      reading s0 .orderUnit [running.readOrder k.next]
    let pending := ordering enrolledRecord 4 0
    let at1 : Walk := { next := 1, appended := false, full := false }
    let at2 (a f : Bool) : Walk := { next := 2, appended := a, full := f }
    (s at1 pending).order.walk = some at1 ∧ at1.next + 1 < (s at1 pending).map.ns ∧ (s at1 pending).order.queue.length < 31 ∧
      (s at1 pending).hasRead .orderUnit [(s at1 pending).readOrder (s at1 pending).walkNext] = true ∧
      ((s at1 pending).ownRec 1).pending = true ∧ (s at1 pending).knows 1 = false ∧
      ((s at1 enrolledRecord).ownRec 1).pending = false ∧ (s (at2 true false) enrolledRecord).map.ns ≤ 2 + 1 ∧
      (s (at2 true false) enrolledRecord).hasRead .orderUnit [(s (at2 true false) enrolledRecord).readOrder 2] = true ∧
      (at2 true false).appended = true ∧ (at2 false true).full = true ∧
      ((s (at2 false false) pending).ownRec 2).pending = true ∧ (s (at2 false false) pending).knows 2 = false := by
  decide +kernel

theorem test_meets_RefusedOrders :
    (queued .present emptyRecord).order.taken = some { sub := 0, reorder := false } ∧ (queued .present emptyRecord).dispatchReady 0 = true ∧
      ((queued .present emptyRecord).dispatched 0).pending = false ∧
      ((queued .present (ordering enrolledRecord 10 0)).dispatched 0).pending = true ∧
      9 < ((queued .present (ordering enrolledRecord 10 0)).dispatched 0).okind ∧
      (queued .present (ordering emptyRecord 2 0)).dueOrder .connect 0 ∧
      ((queued .present (ordering emptyRecord 2 0)).dispatched 0).enrolled = false ∧
      (queued .present (ordering enrolledRecord 1 0)).dueOrder .enrol 0 ∧
      ((queued .present (ordering enrolledRecord 1 0)).view .orderUnit).judge .enrol 0
        ((queued .present (ordering enrolledRecord 1 0)).dispatched 0) = .refused .alreadyEnrolled ∧
      (noted (queued .present emptyRecord)).order.taken = some { sub := 0, reorder := true } ∧
      (noted (queued .present emptyRecord)).dispatchReady 0 = true ∧
      (noted (queued .present (ordering emptyRecord 2 0))).dueOrder .connect 0 true := by
  simp only [State.dueOrder]; decide +kernel

theorem test_meets_OrderRefusals :
    let p : Purchase := Purchase.mk 9 499 .opened true 0
    let r := servedRecord.setSlot 1 p
    let claimed := (withTap running .present enrolledRecord).makeClaim 0 0 1
    let own := (withTap running .present servedRecord).makeClaim 0 0 0
    running.entryOfSerial enrolledRecord.serial = none ∧ running.entryOfSerial servedRecord.serial = none ∧
      enrolledRecord.enrolled = true ∧ enrolledRecord.claimHeld = false ∧ claimed.entryOfSerial enrolledRecord.serial = some 0 ∧ (claimed.tapPort 0 enrolledRecord.port).claim = some 1 ∧
      enrolledRecord.wantOn = false ∧ servedRecord.claimHeld = true ∧
      own.entryOfSerial servedRecord.serial = some 0 ∧ own.claimOf 0 = some (0, servedRecord.port) ∧
      servedRecord.wantOn = true ∧ running.active.slotOfEvent servedRecord.oarg = none ∧
      enrolledRecord.slotOf enrolledRecord.oarg = none ∧ (ordering r 7 9).slotOf 9 = some 1 ∧
      (ordering r 7 9).slots[(1 : Fin 4)].state = .opened ∧ (running.billRec 0).state = .off ∧
      ((holding running 0x2000 [0, 0, 0, 0, 1]).billRec 0).state = .off ∧
      ((holding running 0x2000 [0, 0, 0, 0, 1]).billRec 0).a ≠ 0 := by
  refine ⟨(nobody running_entry _ 0 0).1, (nobody running_entry _ 0 0).1, ?_⟩
  decide +kernel

/-- A MOVE to a port that another subscriber claims, the port given up claimed elsewhere. -/
theorem test_meets_OrderRefusals_move :
    let r := { servedRecord with port := 1 }
    let s := ((withTap running .present r).makeClaim 0 0 0).makeClaim 0 1 2
    r.claimHeld = true ∧ s.entryOfSerial r.serial = some 0 ∧ s.claimOf 0 = some (0, 0) ∧
      ((0, 0) : EntryId × Port) ≠ (0, r.port) ∧ (s.tapPort 0 r.port).claim = some 2 := by decide +kernel

/-- A BUY and a REMOVE at each of their refusals. -/
theorem test_meets_OrderRefusals_purchases :
    let p : Purchase := Purchase.mk 8 499 .booked false 0
    let buy := ordering servedRecord 6 9
    let full := { buy with slots := Vector.replicate 4 p }
    let s (st : EvState) := withEvent running st
    buy.wantOn = true ∧ buy.oarg ≠ 0 ∧ (ordering servedRecord 6 0).oarg = 0 ∧ running.active.slotOfEvent 9 = none ∧
      (s .ended).active.slotOfEvent buy.oarg = some 71 ∧ (s .ended).active.ev[(71 : SlotId)] = .ended ∧
      (s .running).active.ev[(71 : SlotId)] ≠ .ended ∧ (buy.setSlot 1 { p with event := 9 }).slotOf 9 ≠ none ∧
      buy.slotOf 9 = none ∧ full.slotOf 9 = none ∧ (∀ j : Fin 4, full.slots[j].used = true) ∧
      buy.slots[(0 : Fin 4)].used = false ∧
      256 ≤ (List.replicate 256 ({ sub := 1, event := 8, band := 2, state := .booked } : IndexEntry)).length ∧
      enrolledRecord.wantOn = false ∧ (running.billRec 0).state = .off ∧ (running.billRec 0).a = 0 ∧
      (running.billRec 0).o = 0 ∧ (running.billRec 0).k = 0 ∧ (running.billRec 0).charged = 0 ∧
      (running.billRec 0).refunded = 0 ∧ (enrolledRecord.setSlot 1 p).slots[(1 : Fin 4)].used = true := by decide +kernel

theorem test_meets_OrdersDoneAtOnce :
    let plan : List ReadReq := [running.readSub 0, (0x2000, 12)]
    let remove := reading (claiming (ordering { servedRecord with wantOn := false } 9 0) none) .orderUnit plan
    let bill := (remove.view .orderUnit).billRec 0
    (queued .present (ordering enrolledRecord 4 0)).claimOf 0 = none ∧
      (reading (queued .present (ordering enrolledRecord 9 0)) .orderUnit plan).claimOf 0 = none ∧
      running.bill.queue.length < Config.noticeDepth ∧
      (queued .present (ordering emptyRecord 1 0)).dueOrder .enrol 0 ∧
      ((queued .present (ordering emptyRecord 1 0)).dispatched 0).enrolled = false ∧
      (queued .present (ordering enrolledRecord 4 0)).dueOrder .retier 0 ∧
      ((queued .present (ordering enrolledRecord 4 0)).dispatched 0).enrolled = true ∧
      remove.dueOrder .remove 0 ∧ (remove.dispatched 0).enrolled = true ∧ (remove.dispatched 0).wantOn = false ∧
      bill.state = .off ∧ bill.a = 0 ∧ bill.o = 0 ∧ bill.k = 0 ∧ bill.charged = 0 ∧ bill.refunded = 0 ∧
      (∀ k : Fin 4, (remove.dispatched 0).slots[k].used = false) ∧ remove.claimOf 0 = some (0, 0) ∧
      (reading (queued .present (ordering enrolledRecord 9 0)) .orderUnit plan).dueOrder .remove 0 := by
  refine ⟨queued_unclaimed _ _ _, (reading_claimOf _ _ _ _).trans (queued_unclaimed _ _ _), ?_⟩
  simp only [State.dueOrder]; decide +kernel

/-- DISCONNECT and RETIER of a subscriber that holds a claim, its port as wanted or not yet applied. -/
theorem test_meets_OrdersDoneAtOnce_claimed :
    let off := claiming (ordering servedRecord 3 0) (some PortState.off)
    let on := claiming (ordering servedRecord 3 0) none
    let same := claiming (ordering servedRecord 4 0) (some { on := true, mask := 0 })
    let other := claiming (ordering servedRecord 4 0) (some PortState.off)
    off.dueOrder .disconnect 0 ∧ (off.dispatched 0).enrolled = true ∧ (off.dispatched 0).wantOn = true ∧
      off.claimOf 0 = some (0, 0) ∧ (off.tapPort 0 0).applied = some PortState.off ∧
      on.dueOrder .disconnect 0 ∧ on.claimOf 0 = some (0, 0) ∧ (on.dispatched 0).wantOn = true ∧
      (on.tapPort 0 0).applied ≠ some PortState.off ∧ (on.entry 0).state ≠ .lost ∧
      (on.entry 0).place = some { feeder := 0, pos := 5 } ∧ (on.eng 0).state ≠ .off ∧ (on.eng 0).state ≠ .blocked ∧
      same.dueOrder .retier 0 ∧ same.claimOf 0 = some (0, 0) ∧ (same.dispatched 0).enrolled = true ∧
      (same.dispatched 0).wantOn = true ∧
      (same.tapPort 0 0).applied = some (same.wantedOf 0 true (same.dispatched 0).tiers (same.setBands 0 same.order.index)) ∧
      other.dueOrder .retier 0 ∧ other.claimOf 0 = some (0, 0) ∧ (other.entry 0).state ≠ .lost ∧
      (other.tapPort 0 0).applied ≠
        some (other.wantedOf 0 true (other.dispatched 0).tiers (other.setBands 0 other.order.index)) ∧
      (claiming (ordering { servedRecord with wantOn := false } 4 0) none).dueOrder .retier 0 := by
  simp only [State.dueOrder]; decide +kernel

theorem test_meets_ClaimsMadeAndMoved :
    let connect := queued .present (ordering enrolledRecord 2 0)
    let move := (queued .present (ordering { servedRecord with port := 1 } 5 0)).makeClaim 0 0 0
    connect.claimOf 0 = none ∧ connect.bill.queue.length < Config.noticeDepth ∧ (connect.dispatched 0).enrolled = true ∧
      connect.entryOfSerial (connect.dispatched 0).serial = some 0 ∧ (connect.tapPort 0 (connect.dispatched 0).port).claim = none ∧
      connect.dueOrder .connect 0 ∧ (connect.dispatched 0).claimHeld = false ∧ (connect.dispatched 0).wantOn = false ∧
      (connect.entry 0).state = .present ∧
      (connect.entry 0).place = some { feeder := 0, pos := 5 } ∧ (connect.eng 0).state = .ready ∧
      (connect.tapPort 0 (connect.dispatched 0).port).applied = none ∧
      move.dueOrder .move 0 ∧ (move.dispatched 0).enrolled = true ∧ (move.dispatched 0).claimHeld = true ∧
      move.entryOfSerial (move.dispatched 0).serial = some 0 ∧ (move.tapPort 0 (move.dispatched 0).port).claim = none ∧
      move.claimOf 0 = some (0, 0) ∧ ((0, 0) : EntryId × Port) ≠ (0, (move.dispatched 0).port) := by
  refine ⟨queued_unclaimed _ _ _, ?_⟩
  simp only [State.dueOrder]; decide +kernel

/-- A CONNECT of a subscriber with its claim held, service wanted or not, and a MOVE to a port already as wanted or not. -/
theorem test_meets_ClaimsMadeAndMoved_held :
    let on := claiming (ordering servedRecord 2 0) none
    let off := claiming (ordering { servedRecord with wantOn := false } 2 0) (some { on := true, mask := 0 })
    let fresh := claiming (ordering { servedRecord with wantOn := false } 2 0) none
    let move (a : Option PortState) : State :=
      let s := (queued .present (ordering { servedRecord with port := 1 } 5 0)).makeClaim 0 0 0
      s.setTapPort 0 1 { s.tapPort 0 1 with applied := a }
    let wanted (s : State) := s.wantedOf 0 true (s.dispatched 0).tiers (s.setBands 0 s.order.index)
    on.dueOrder .connect 0 ∧ (on.dispatched 0).claimHeld = true ∧ (on.dispatched 0).enrolled = true ∧
      on.claimOf 0 = some (0, 0) ∧ (on.dispatched 0).wantOn = true ∧ (on.entry 0).state ≠ .lost ∧
      (on.entry 0).place = some { feeder := 0, pos := 5 } ∧ (on.eng 0).state ≠ .off ∧ (on.eng 0).state ≠ .blocked ∧
      off.dueOrder .connect 0 ∧ (off.dispatched 0).wantOn = false ∧ off.claimOf 0 = some (0, 0) ∧
      (off.tapPort 0 0).applied = some (wanted off) ∧ fresh.dueOrder .connect 0 ∧
      (fresh.tapPort 0 0).applied ≠ some (wanted fresh) ∧
      (move (some { on := true, mask := 0 })).dueOrder .move 0 ∧
      (move (some { on := true, mask := 0 })).claimOf 0 = some (0, 0) ∧
      ((move (some { on := true, mask := 0 })).tapPort 0 1).applied = some (wanted (move (some { on := true, mask := 0 }))) ∧
      (move none).dueOrder .move 0 ∧ ((move none).tapPort 0 1).applied ≠ some (wanted (move none)) ∧
      ((move none).entry 0).state ≠ .lost ∧ ((move none).entry 0).place = some { feeder := 0, pos := 5 } ∧
      ((move none).eng 0).state ≠ .off ∧ ((move none).eng 0).state ≠ .blocked := by
  simp only [State.dueOrder]; decide +kernel

/-- The claim that a MOVE gives up is the subscriber's only one. -/
theorem test_meets_ClaimsMadeAndMoved_only (d : EntryId) (x : Port)
    (h : (((queued .present (ordering { servedRecord with port := 1 } 5 0)).makeClaim 0 0 0).tapPort d x).claim = some 0) :
    (d, x) = (0, 0) := by
  have he : ∀ d, ((queued .present (ordering { servedRecord with port := 1 } 5 0)).makeClaim 0 0 0).entry d =
      if 0 = d then
        { tapAt 77 5 .present with ports := (Vector.replicate 4 TapPort.fresh).set 0 ({ TapPort.fresh with claim := some 0 }) }
      else Entry.free := by
    intro d
    rw [State.makeClaim, State.setTapPort, State.entry_setEntry]
    split
    · rw [queued_entry, State.tapPort, queued_entry]; rfl
    · rw [queued_entry, if_neg ‹_›]
  rw [State.tapPort, he] at h
  split at h
  · subst d; revert x; decide +kernel
  · exact absurd h ((by decide +kernel : ∀ x : Port, Entry.free.ports[x].claim ≠ some 0) x)

/-- Bands of each kind, one event RUNNING, and an entry of its event. -/
theorem test_meets_WantedMasks :
    let s := withEvent running .running
    let c := { s.active with plan := ((Vector.replicate 8 BandPlan.closed).set 1 (BandPlan.mk .tier 3)).set 2 (BandPlan.mk .event 0) }
    let x : IndexEntry := { sub := 0, event := 9, band := 2, state := .opened }
    c.plan[(0 : Fin 8)].kind = .closed ∧ c.plan[(1 : Fin 8)].kind = .tier ∧ c.plan[(2 : Fin 8)].kind = .event ∧
      c.runningIn 2 = some 9 ∧ x.sub = 0 ∧ x.event = 9 ∧ x.state ≠ .settling ∧
      s.active.slots[(71 : SlotId)].isEvent = true ∧ s.active.slots[(71 : SlotId)].band = 2 ∧
      s.active.ev[(71 : SlotId)] = .running ∧ s.active.slotOfEvent 9 = some 71 ∧ s.active.slotOfEvent 8 = none ∧
      (∀ j : SlotId, j ≠ 71 → ¬ (s.active.slots[j].isEvent = true ∧ s.active.slots[j].band = 2 ∧
        s.active.ev[j] = .running)) ∧ x ∈ s.setBands 0 [x] ∧
      (s.setBands 0 [{ x with band := 5 }, { x with sub := 1, band := 5 }])[0]? = some x ∧
      ([{ x with band := 5 }, { x with sub := 1, band := 5 }] : List IndexEntry)[0]? = some { x with band := 5 } := by
  decide +kernel

theorem test_meets_PurchasesBookedAndCancelled :
    let booked := servedRecord.setSlot 3 (Purchase.mk 9 499 .booked false 0)
    let buy (st : EvState) (a : Option PortState) := withEvent (claiming (ordering servedRecord 6 9) a) st
    let s := buy .scheduled (some PortState.off)
    let r := buy .running none
    let bought : IndexEntry := { sub := 0, event := 9, band := 2, state := .booked }
    let cancel := claiming (ordering booked 7 9) none
    (s.dispatched 0).enrolled = true ∧ s.claimOf 0 = some (0, 0) ∧ s.dueOrder .buy 0 ∧ (s.dispatched 0).wantOn = true ∧
      (s.dispatched 0).oarg ≠ 0 ∧ s.active.slotOfEvent (s.dispatched 0).oarg = some 71 ∧
      (s.dispatched 0).slotOf (s.dispatched 0).oarg = none ∧ (s.dispatched 0).freeSlot = some 0 ∧
      s.order.index.length < Config.purchaseIndexDepth ∧ s.active.ev[(71 : SlotId)] = .scheduled ∧
      (s.tapPort 0 0).applied = some (s.tapPort 0 0).wanted ∧
      r.dueOrder .buy 0 ∧ r.claimOf 0 = some (0, 0) ∧ r.active.ev[(71 : SlotId)] = .running ∧
      (r.tapPort 0 0).applied ≠ some (r.wantedOf 0 true (r.dispatched 0).tiers (r.setBands 0 (r.order.index ++ [bought]))) ∧
      (r.entry 0).state ≠ .lost ∧ (r.entry 0).place = some { feeder := 0, pos := 5 } ∧ (r.eng 0).state ≠ .off ∧
      (r.eng 0).state ≠ .blocked ∧ (cancel.dispatched 0).enrolled = true ∧ cancel.claimOf 0 = some (0, 0) ∧
      cancel.dueOrder .cancel 0 ∧ (cancel.dispatched 0).slotOf (cancel.dispatched 0).oarg = some 3 ∧
      (cancel.dispatched 0).slots[(3 : Fin 4)].state = .booked := by
  simp only [State.dueOrder]; decide +kernel

theorem test_meets_Audits :
    let s (st : EntryState) := (queued st (ordering servedRecord 8 0)).makeClaim 0 0 0
    (s .lost).dueOrder .audit 0 ∧ ((s .lost).dispatched 0).enrolled = true ∧ ((s .lost).dispatched 0).claimHeld = true ∧
      (s .lost).claimOf 0 = some (0, 0) ∧ ((s .lost).entry 0).state = .lost ∧ (s .silent).dueOrder .audit 0 ∧
      (s .silent).claimOf 0 = some (0, 0) ∧ ((s .silent).dispatched 0).enrolled = true ∧
      ((s .silent).dispatched 0).claimHeld = true ∧ ((s .silent).entry 0).state ≠ .lost ∧
      ((s .silent).entry 0).place = some { feeder := 0, pos := 5 } ∧ ((s .silent).eng 0).state = .ready ∧
      (∀ x ∈ (s .lost).order.inflight, x.sub ≠ 0) ∧ (noted (s .lost)).dueOrder .audit 0 true ∧
      (noted (s .silent)).dueOrder .audit 0 true := by
  simp only [State.dueOrder]; decide +kernel

/-- The tap of entry 0 out of an order's reach: LOST, unplaced, on a feeder that is OFF, or on one that is BLOCKED. -/
def outOf (how : Fin 4) (s : State) : State :=
  match how with
  | 0 => s.setEntry 0 { s.entry 0 with state := .lost }
  | 1 => s.setEntry 0 { s.entry 0 with place := none }
  | 2 => s.setEng 0 { Engine.reset with state := .off }
  | 3 => s.setEng 0 { Engine.reset with state := .blocked }

theorem outOf_out (how : Fin 4) (s : State) (hp : (s.entry 0).place = some { feeder := 0, pos := 5 })
    (hl : (s.entry 0).state ≠ .lost) : (outOf how s).tapOut 0 (decide (how = 3)) := by
  match how with
  | 0 => exact .inl (by rw [outOf, State.entry_setEntry, if_pos rfl])
  | 1 => exact .inr (.inl (by rw [outOf, State.entry_setEntry, if_pos rfl]))
  | 2 => exact .inr (.inr ⟨_, hp, by rw [outOf, State.eng_setEng, if_pos rfl]⟩)
  | 3 => exact ⟨hl, _, hp, by rw [outOf, State.eng_setEng, if_pos rfl]⟩

theorem in_reach {s : State} {e : EntryId} {pl : Place} (hl : (s.entry e).state ≠ .lost) (hp : (s.entry e).place = some pl)
    (ho : (s.eng pl.feeder).state ≠ .off) (hb : (s.eng pl.feeder).state ≠ .blocked) : s.tapIn e := ⟨hl, pl, hp, ho, hb⟩

/-- DISCONNECT and RETIER of a tap out of reach in each way. -/
theorem test_meets_OrdersDoneAtOnce_out (how : Fin 4) :
    let d := outOf how (claiming (ordering servedRecord 3 0) none)
    let r := outOf how (claiming (ordering servedRecord 4 0) none)
    d.tapOut 0 (decide (how = 3)) ∧ r.tapOut 0 (decide (how = 3)) ∧ d.dueOrder .disconnect 0 ∧
      (d.dispatched 0).enrolled = true ∧ (d.dispatched 0).wantOn = true ∧ d.claimOf 0 = some (0, 0) ∧
      (d.tapPort 0 0).applied ≠ some PortState.off ∧ r.dueOrder .retier 0 ∧ (r.dispatched 0).enrolled = true ∧
      r.claimOf 0 = some (0, 0) ∧ (r.dispatched 0).wantOn = true ∧
      (r.tapPort 0 0).applied ≠ some (r.wantedOf 0 true (r.dispatched 0).tiers (r.setBands 0 r.order.index)) := by
  refine ⟨outOf_out how _ (by decide +kernel) (by decide +kernel), outOf_out how _ (by decide +kernel) (by decide +kernel), ?_⟩
  revert how
  simp only [State.dueOrder]; decide +kernel

/-- A first CONNECT whose wanted state is applied or not, in reach. -/
theorem test_meets_ClaimsMadeAndMoved_applied :
    let s := queued .present (ordering enrolledRecord 2 0)
    let w := s.wantedOf 0 true (s.dispatched 0).tiers (s.setBands 0 s.order.index)
    let a := s.setTapPort 0 0 { s.tapPort 0 0 with applied := some w }
    s.tapIn 0 ∧ (s.tapPort 0 (s.dispatched 0).port).applied ≠ some w ∧ a.claimOf 0 = none ∧ a.dueOrder .connect 0 ∧
      (a.tapPort 0 (a.dispatched 0).port).claim = none ∧ (a.dispatched 0).claimHeld = false ∧ (a.dispatched 0).wantOn = false ∧
      a.entryOfSerial (a.dispatched 0).serial = some 0 ∧
      (a.tapPort 0 (a.dispatched 0).port).applied =
        some { on := true, mask := a.passMask 0 (a.dispatched 0).tiers (a.setBands 0 a.order.index) } := by
  intro s w a
  refine ⟨in_reach (pl := { feeder := 0, pos := 5 }) (by decide +kernel) (by decide +kernel) (by decide +kernel)
    (by decide +kernel), by decide +kernel, claimOf_none fun e => ?_, ?_⟩
  · show ((s.setEntry 0 _).entry e).ports.all _ = true
    rw [State.entry_setEntry]
    split
    · decide +kernel
    · rw [queued_entry, if_neg ‹_›]; decide +kernel
  · simp only [State.dueOrder]; decide +kernel

/-- Its ports are as they were. -/
theorem outOf_ports (how : Fin 4) (s : State) (e : EntryId) : ((outOf how s).entry e).ports = (s.entry e).ports := by
  match how with
  | 0 | 1 => rw [outOf, State.entry_setEntry]; split <;> simp_all
  | 2 | 3 => rw [outOf, State.entry_setEng]

/-- Nobody has claimed a port of a tap out of reach. -/
theorem outOf_unclaimed (how : Fin 4) (r : SubRec) (sub : Nat) : (outOf how (queued .present r)).claimOf sub = none := by
  refine claimOf_none fun e => ?_
  rw [outOf_ports, queued_entry]
  split <;> decide +kernel

/-- A first CONNECT, a CONNECT with the claim held, and a MOVE, of a tap out of reach in each way. -/
theorem test_meets_ClaimsMadeAndMoved_out (how : Fin 4) :
    let c := outOf how (queued .present (ordering enrolledRecord 2 0))
    let h (on : Bool) := outOf how (claiming (ordering { servedRecord with wantOn := on } 2 0) none)
    let m := outOf how ((queued .present (ordering { servedRecord with port := 1 } 5 0)).makeClaim 0 0 0)
    let wanted (s : State) := s.wantedOf 0 true (s.dispatched 0).tiers (s.setBands 0 s.order.index)
    c.tapOut 0 (decide (how = 3)) ∧ (∀ on, (h on).tapOut 0 (decide (how = 3))) ∧ m.tapOut 0 (decide (how = 3)) ∧
      c.claimOf 0 = none ∧ c.dueOrder .connect 0 ∧ (c.tapPort 0 0).claim = none ∧
      c.entryOfSerial (c.dispatched 0).serial = some 0 ∧ (c.tapPort 0 0).applied ≠ some (wanted c) ∧
      (∀ on, (h on).dueOrder .connect 0 ∧ (h on).claimOf 0 = some (0, 0) ∧ ((h on).dispatched 0).claimHeld = true ∧
        ((h on).dispatched 0).wantOn = on ∧ ((h on).tapPort 0 0).applied ≠ some (wanted (h on))) ∧
      m.dueOrder .move 0 ∧ m.claimOf 0 = some (0, 0) ∧ m.entryOfSerial (m.dispatched 0).serial = some 0 ∧
      (m.tapPort 0 1).claim = none ∧ (m.tapPort 0 1).applied ≠ some (wanted m) := by
  refine ⟨outOf_out how _ (by decide +kernel) (by decide +kernel),
    fun on => outOf_out how _ (by cases on <;> decide +kernel) (by cases on <;> decide +kernel),
    outOf_out how _ (by decide +kernel) (by decide +kernel), outOf_unclaimed how _ _, ?_⟩
  revert how
  simp only [State.dueOrder]; decide +kernel

/-- A BUY of a RUNNING event and an AUDIT, of a tap out of reach in each way, and an AUDIT of one in reach. -/
theorem test_meets_PurchasesAndAudits_out (how : Fin 4) :
    let b := outOf how (withEvent (claiming (ordering servedRecord 6 9) none) .running)
    let bought : IndexEntry := { sub := 0, event := 9, band := 2, state := .booked }
    let a := outOf how (claiming (ordering servedRecord 8 0) none)
    b.tapOut 0 (decide (how = 3)) ∧ a.tapOut 0 (decide (how = 3)) ∧ (claiming (ordering servedRecord 8 0) none).tapIn 0 ∧
      b.dueOrder .buy 0 ∧ b.claimOf 0 = some (0, 0) ∧ (b.dispatched 0).wantOn = true ∧ (b.dispatched 0).enrolled = true ∧
      b.active.slotOfEvent (b.dispatched 0).oarg = some 71 ∧ b.active.ev[(71 : SlotId)] = .running ∧
      (b.dispatched 0).slotOf (b.dispatched 0).oarg = none ∧ (b.dispatched 0).freeSlot = some 0 ∧
      (b.tapPort 0 0).applied ≠ some (b.wantedOf 0 true (b.dispatched 0).tiers (b.setBands 0 (b.order.index ++ [bought]))) ∧
      a.dueOrder .audit 0 ∧ a.claimOf 0 = some (0, 0) ∧ (a.dispatched 0).claimHeld = true ∧ a.order.inflight = [] := by
  refine ⟨outOf_out how _ (by decide +kernel) (by decide +kernel), outOf_out how _ (by decide +kernel) (by decide +kernel),
    in_reach (pl := { feeder := 0, pos := 5 }) (by decide +kernel) (by decide +kernel) (by decide +kernel)
    (by decide +kernel), ?_⟩
  revert how
  simp only [State.dueOrder]; decide +kernel

/-- A report waits for the Order Unit, with one order in flight. -/
def reporting (r : OrderReport) (x : InFlight) : State :=
  { running with order := { running.order with reports := [r], inflight := [x] } }

theorem reporting_quiet (r : OrderReport) (x : InFlight) : (reporting r x).quiet := by
  refine ⟨fun b => ?_, rfl⟩
  cases b with
  | engine f => exact running_engines_quiet f
  | _ => rfl

/-- Its last read is on the port. -/
def reportRead (r : OrderReport) (x : InFlight) : State := reading (reporting r x) .orderUnit [running.readOwned x.sub]

theorem reportRead_quiet (r : OrderReport) (x : InFlight) : (reportRead r x).quiet :=
  ⟨fun b => (reporting_quiet r x).1 b, rfl⟩

theorem test_meets_ReportsOfTransactions (armed reorder : Bool) :
    let x : InFlight := InFlight.mk 0 1 .connect 0 0 armed reorder 3
    let a : InFlight := InFlight.mk 0 1 .audit 0 0 false reorder 3
    let s := (reportRead (.blocked 0) a).setEntry 0 (tapAt 77 5 .present)
    (reportRead (.start .setPort 0 0 4) x).quiet ∧ (reportRead (.start .setPort 0 0 4) x).order.inflight = [x] ∧
      x.kind ≠ .audit ∧ (reportRead (.start .setPort 0 0 4) x).order.reports = [.start .setPort x.e x.p 4] ∧
      (reportRead (.outcome .setPort 0 0 .failed) x).order.reports = [.outcome .setPort x.e x.p .failed] ∧
      x.armed = armed ∧ (reportRead (.lostTap 0) a).order.reports = [.lostTap a.e] ∧ a.armed = false ∧
      s.order.reports = [.blocked 0] ∧ (s.entry a.e).on 0 = true ∧ s.order.inflight = [a] ∧
      (reportRead (.lostTap 0) a).hasRead .orderUnit [s.readOwned a.sub] = true ∧
      (reportRead (.outcome .setPort 0 0 .failed) x).hasRead .orderUnit [s.readOwned x.sub] = true :=
  ⟨reportRead_quiet _ _, rfl, nofun, rfl, rfl, rfl, rfl, rfl, rfl, by cases reorder <;> decide +kernel, rfl,
    by cases reorder <;> decide +kernel, by cases armed <;> cases reorder <;> decide +kernel⟩

/-- A reordered order that leaves the In-flight Table: to the tail of a queue with room, the last room, and none. -/
theorem test_reordered_order_returns :
    let x : InFlight := InFlight.mk 2 1 .connect 0 0 true true 3
    let o (n : Nat) : OrderUnit := { running.order with
      queue := List.replicate n 1, inflight := [x], walk := some { next := 1, appended := false, full := false } }
    ((o 30).flown x []).queue = List.replicate 30 1 ++ [2] ∧ ((o 30).flown x []).walk = (o 30).walk ∧
      ((o 31).flown x []).walk = none ∧ ((o 32).flown x []).backlog = true ∧ ((o 32).flown x []).queue.length = 32 ∧
      ((o 32).flown x []).inflight = [] := by decide

theorem test_meets_AuditResults (armed reorder : Bool) (ports : Vector PortState 4) :
    let x : InFlight := InFlight.mk 0 1 .audit 0 0 armed reorder 3
    (reportRead (.start .read 0 2 4) x).quiet ∧ (reportRead (.start .read 0 2 4) x).order.inflight = [x] ∧
      x.kind = .audit ∧ (reportRead (.start .read 0 2 4) x).order.reports = [.start .read x.e 2 4] ∧ x.armed = armed ∧
      (reportRead (.outcome .read 0 2 (.readOk ports)) x).order.reports = [.outcome .read x.e 2 (.readOk ports)] ∧
      (reportRead (.outcome .read 0 2 .failed) x).order.reports = [.outcome .read x.e 2 .failed] ∧
      (reportRead (.outcome .read 0 2 .failed) x).hasRead .orderUnit [running.readOwned x.sub] = true :=
  ⟨reportRead_quiet _ _, rfl, rfl, rfl, rfl, rfl, rfl, by cases armed <;> cases reorder <;> decide +kernel⟩

/-- A SET PORT answer waits for the Order Unit, the port claimed by subscriber 0 with service wanted. -/
def confirming : State :=
  let s := (withTap running .present servedRecord).makeClaim 0 0 0
  reading { s with order := { s.order with reports := [.outcome .setPort 0 0 (.setOk { on := true, mask := 0xFF } 1000)] } }
    .orderUnit [running.readOwned 0]

theorem test_meets_Confirmations :
    confirming.quiet ∧ confirming.order.inflight = [] ∧
      confirming.order.reports = [.outcome .setPort 0 0 (.setOk { on := true, mask := 0xFF } 1000)] ∧
      (confirming.tapPort 0 0).claim = some 0 ∧ confirming.hasRead .orderUnit [confirming.readOwned 0] = true ∧ (∀ k : Fin 4, (confirming.ownRec 0).slots[k].used = false) ∧
      confirming.bill.queue.length < Config.noticeDepth := by
  refine ⟨⟨fun b => ?_, rfl⟩, rfl, rfl, by decide +kernel, by decide +kernel, by decide +kernel, by decide +kernel⟩
  cases b with
  | engine f => exact running_engines_quiet f
  | _ => rfl

/-- The same with event 9 RUNNING, bought, and an order in flight on the port or none. -/
def opening (answer : PortState) (inflight : List InFlight) (r : SubRec) : State :=
  let s := withEvent ((withTap running .present r).makeClaim 0 0 0) .running
  reading { s with order := { s.order with reports := [.outcome .setPort 0 0 (.setOk answer 1000)], inflight := inflight
                                           index := [{ sub := 0, event := 9, band := 2, state := .booked }] } }
    .orderUnit [running.readOwned 0]

theorem opening_quiet (answer : PortState) (inflight : List InFlight) (r : SubRec) : (opening answer inflight r).quiet := by
  refine ⟨fun b => ?_, rfl⟩
  cases b with
  | engine f => exact running_engines_quiet f
  | _ => rfl

theorem test_meets_PurchasesOpened :
    let r := servedRecord.setSlot 2 (Purchase.mk 9 499 .booked false 0)
    let s (a : PortState) := opening a [] r
    let x : InFlight := InFlight.mk 0 1 .connect 0 0 true false 3
    let f := opening { on := true, mask := 4 } [x] servedRecord
    (s { on := true, mask := 4 }).order.reports = [.outcome .setPort 0 0 (.setOk { on := true, mask := 4 } 1000)] ∧
      ((s PortState.off).tapPort 0 0).claim = some 0 ∧ (s PortState.off).order.inflight = [] ∧
      (s PortState.off).bill.queue.length + 2 ≤ Config.noticeDepth ∧
      (∀ j : Fin 4, j ≠ 2 → ((s PortState.off).ownRec 0).slots[j].used = false) ∧
      ((s PortState.off).ownRec 0).slots[(2 : Fin 4)].used = true ∧
      ((s PortState.off).ownRec 0).slots[(2 : Fin 4)].state = .booked ∧
      (s PortState.off).active.eventState ((s PortState.off).ownRec 0).slots[(2 : Fin 4)].event = .running ∧
      (s PortState.off).order.index = [{ sub := 0, event := 9, band := 2, state := .booked }] ∧
      ((s PortState.off).ownRec 0).slots[(2 : Fin 4)].event = 9 ∧ (4 : BitVec 8).getLsbD 2 = true ∧
      PortState.off.on = false ∧ f.order.inflight = [x] ∧ x.armed = true ∧ x.kind ≠ .audit ∧
      f.hasRead .orderUnit [f.readOwned 0] = true ∧ (f.tapPort 0 0).claim = some 0 ∧ (∀ k : Fin 4, (f.ownRec 0).slots[k].used = false) ∧
      f.bill.queue.length < Config.noticeDepth := by decide +kernel

/-- One purchase of event 9 in the Purchase Index, with a report about the event. -/
def walking (r : OrderReport) (st : IndexState) : State :=
  let s := (withTap running .present (servedRecord.setSlot 2 (Purchase.mk 9 499 .booked false 0))).makeClaim 0 0 0
  { s with order := { s.order with reports := [r], index := [{ sub := 0, event := 9, band := 2, state := st }] } }

theorem walking_quiet (r : OrderReport) (st : IndexState) : (walking r st).quiet := by
  refine ⟨fun b => ?_, rfl⟩
  cases b with
  | engine f => exact running_engines_quiet f
  | _ => rfl

theorem test_meets_EventWalks (st : IndexState) :
    (walking (.eventStart 9 1000) st).quiet ∧
      (walking (.eventStart 9 1000) st).order.index = [{ sub := 0, event := 9, band := 2, state := st }] ∧
      (walking (.eventStart 9 1000) st).bill.queue.length < Config.noticeDepth ∧
      (walking (.eventStart 9 1000) st).claimOf 0 = some (0, 0) ∧
      (walking (.eventEnd 9 1000) st).order.reports = [.eventEnd 9 1000] ∧
      ((walking (.eventEnd 9 1000) st).ownRec 0).bookedSlotOf 9 = some 2 ∧
      (walking (.eventDrop 9 1000) st).order.reports = [.eventDrop 9 1000] := by
  refine ⟨walking_quiet _ _, rfl, ?_, ?_, rfl, ?_, rfl⟩ <;> cases st <;> decide +kernel

/-- The record of a wanted state still to be computed is being read, or that of a booked slot to be freed. -/
theorem test_meets_EventWalks_computed :
    let s := reading { confirming with order := { confirming.order with work := [.recompute 0] } } .orderUnit [running.readTiers 0]
    let w := walking (.eventEnd 9 1000) .booked
    let f := reading { w with order := { w.order with work := [.freeBooked 0 9, .recompute 0] } } .orderUnit [running.readOwned 0]
    s.order.work = [.recompute 0] ∧ s.claimOf 0 = some (0, 0) ∧
      s.path.port = .burst .orderUnit (.read (s.map.sub + 16 * 0 + 2) 3) 0x1002 [] false ∧
      s.path.reads[Requester.orderUnit.idx] = [] ∧ f.order.work = [.freeBooked 0 9, .recompute 0] ∧
      f.path.port = .burst .orderUnit (.read (f.map.sub + 16 * 0 + 4) 12) 0x1004 [] false ∧
      f.path.reads[Requester.orderUnit.idx] = [] ∧ (f.ownRec 0).bookedSlotOf 9 = some 2 := by
  decide +kernel

theorem test_meets_BillingArrivals :
    let opened := reading (withTap running .present (servedRecord.setSlot 2 (Purchase.mk 9 499 .opened true 65535)))
      .orderUnit [running.readOwned 0]
    let s := { opened with order := { opened.order with billing := [.settle 0 9]
                                                        index := [{ sub := 0, event := 9, band := 7, state := .settling }] } }
    let q : QEntry := .closeReg 1000 6
    { opened.order with billing := [.overlap 0 9 1] }.billing = [.overlap 0 9 1] ∧ (opened.ownRec 0).slotOf 9 = some 2 ∧
      opened.hasRead .orderUnit [opened.readOwned 0] = true ∧ s.hasRead .orderUnit [s.readOwned 0] = true ∧
      (running.ownRec 0).slotOf 9 = none ∧ s.order.billing = [.settle 0 9] ∧
      s.order.index = [{ sub := 0, event := 9, band := 7, state := .settling }] ∧ (s.ownRec 0).openSlotOf 9 = some 2 ∧
      confirming.claimOf 0 = some (0, 0) ∧
      (reading confirming .orderUnit [running.readTiers 0]).hasRead .orderUnit [confirming.readTiers 0] = true ∧
      { running.order with billing := [.refresh 0] }.billing = [.refresh 0] ∧
      { running.order with work := [.notice q] }.work = [.notice q] ∧ { running.bill with regWait := some q }.regWait = some q ∧
      running.bill.queue.length < Config.noticeDepth := by decide +kernel

/-! ### The line-up -/

/-- The running part with bank 1 in the state given, and a commit word. -/
def committing (st : BankState) (w : Word) : State :=
  arriving { running with lineUp := running.lineUp.setBank 1 st } .commit w

theorem test_meets_Commits (p : PartState) :
    (arriving { running with run := { running.run with part := p } } .commit 0x101).first .commit 0x101 ∧
      actionCode 0x101 = 1 ∧ commitBank 0x101 = some 1 ∧ actionCode 0x102 = 2 ∧ commitBank 0x102 = some 1 ∧
      actionCode 0x100 = 0 ∧ 2 < actionCode 0x103 ∧ commitBank 0x201 = none ∧
      commitBank 0x001 = some 0 ∧ (committing .sealed 0x001).lineUp.bankState[(0 : Bank)] = .active ∧
      (committing .sealed 0x101).lineUp.bankState[(1 : Bank)] = .sealed ∧
      (committing .validating 0x101).lineUp.bankState[(1 : Bank)] = .validating ∧
      (committing .editable 0x101).lineUp.bankState[(1 : Bank)] = .editable ∧
      (committing .sealed 0x102).lineUp.switching = false ∧
      { (committing .sealed 0x102).lineUp with ask := .taken 5 }.switching = true :=
  ⟨⟨rfl, rfl⟩, by decide +kernel⟩

/-- A validation of bank 1 whose part has just been read. -/
def validating (part minute : Nat) (edited : Bool) (m : List Word) : State :=
  let v : Validation := { bank := 1, part := part, edited := edited, minute := minute, plan := Vector.replicate 8 BandPlan.closed,
                          slots := [], startup := false }
  holding (withBurst { running with lineUp := { running.lineUp with validation := some v } } .lineUp (.readBank 1 part) 0 [])
    (0x3000 + 608 + 8 * part) m

theorem validating_quiet (part minute : Nat) (edited : Bool) (m : List Word) : (validating part minute edited m).quiet := by
  refine ⟨fun b => ?_, rfl⟩
  cases b with
  | engine f => exact running_engines_quiet f
  | _ => rfl

theorem test_meets_Validations :
    (∀ part minute edited m, (validating part minute edited m).quiet) ∧
      (validating 75 1001 false [0x1000]).path.port = .burst .lineUp (.readBank 1 75) 0 [] false ∧
      slotFault (Vector.replicate 8 BandPlan.closed) [] (validating 75 1001 false [0x1000]).eventChanged
        (Slot.ofWords ((validating 75 1001 false [0x1000]).bankPart 1 75)) = some .badChannel ∧
      slotFault (Vector.replicate 8 BandPlan.closed) [] (validating 75 1001 false []).eventChanged
        (Slot.ofWords ((validating 75 1001 false []).bankPart 1 75)) = none ∧
      (validating 75 1001 false []).time.minute < 1001 :=
  ⟨validating_quiet, by decide +kernel, by decide +kernel, by decide +kernel, by decide⟩

/-- The parts before the last: the band plan good or not, the rates, and slots that pass or fail. -/
theorem test_meets_Validations_parts :
    let slot : Slot := { eventSlot with cls := .dark }
    planGood ((validating 1 0 false [2]).bankPart 1 1) = true ∧ planGood ((validating 1 0 false [3]).bankPart 1 1) = false ∧
      Slot.ofWords ((validating 4 0 false []).bankPart 1 4) = some Slot.dark ∧
      slotFault (Vector.replicate 8 BandPlan.closed) [] (validating 4 0 false []).eventChanged (some Slot.dark) = none ∧
      slotFault (Vector.replicate 8 BandPlan.closed) [] (validating 4 0 false [0x1000]).eventChanged
        (Slot.ofWords ((validating 4 0 false [0x1000]).bankPart 1 4)) = some .badChannel ∧
      (validating 4 0 true [0x1000]).lineUp.validation.map (·.edited) = some true ∧
      (validating 4 0 false []).lineUp.validation.map (·.part) = some (4 + (0 : SlotId).val) ∧ slot.cls = .dark := by
  decide +kernel

/-- A slot at each of its checks, in order, the lower slots given. -/
theorem test_meets_SlotChecks :
    let y := eventSlot
    let plan : Vector BandPlan 8 := (Vector.replicate 8 BandPlan.closed).set 2 (BandPlan.mk .event 0)
    y.cls ≠ .dark ∧ y.cls = .event ∧ ({ y with channel := 1 } : Slot).channel < 2 ∧ 158 < ({ y with channel := 159 } : Slot).channel ∧
      2 ≤ y.channel ∧ y.channel ≤ 158 ∧ y.tune ≠ 0 ∧ ({ y with tune := 0 } : Slot).tune = 0 ∧
      plan[Fin.ofNat 8 y.band].kind = .event ∧ plan[Fin.ofNat 8 1].kind ≠ .tier ∧ ({ y with cls := .regular } : Slot).cls = .regular ∧
      y.event ≠ 0 ∧ y.start < y.stop ∧ y.stop ≤ y.start + 720 ∧ ({ y with stop := 2721 } : Slot).start + 720 < 2721 ∧
      (∃ z ∈ [{ y with channel := 41, start := 1900, stop := 2001 }], z.cls = .event ∧ z.band = y.band ∧
        y.start < z.stop ∧ z.start < y.stop) ∧
      (∃ z ∈ [{ y with channel := 41, band := 3 }], z.cls = .event ∧ z.event = y.event) ∧
      (withEvent running .running).active.ev[(71 : SlotId)] = .running ∧
      (withEvent running .running).eventChanged { y with start := 1999 } = true ∧
      (withEvent running .running).eventChanged y = false := by decide +kernel

theorem test_meets_Switches :
    let s0 := { running with lineUp := { running.lineUp with ask := .answered 1000 } }
    let w : Switch := { bank := 1, minute := 1000, staging := Copy.empty, made := false }
    let on : State := { running with lineUp := { running.lineUp with switch := some w } }
    let t := withBurst on .lineUp .switchAnchor 0xFFF80 [1, 1, 1000]
    let q := (on.ask .lineUp .prevRates).ask .lineUp .switchAnchor
    let last := on.ask .lineUp .switchAnchor
    s0.lineUp.ask = .answered 1000 ∧ s0.lineUp.active = some 0 ∧ s0.lineUp.switch = none ∧
      t.quiet ∧ t.lineUp.switch = some w ∧ t.path.port = .burst .lineUp .switchAnchor 0xFFF80 [1, 1, 1000] false ∧
      q.path.port = .free ∧ q.path.cycle = none ∧ q.lineUp.switch = some w ∧
      q.path.line .lineUp = .prevRates :: [.switchAnchor] ∧ last.path.line .lineUp = .switchAnchor :: [] ∧
      q.nextRequester = some .lineUp ∧ last.nextRequester = some .lineUp ∧ q.readTurn .lineUp = none ∧
      last.readTurn .lineUp = none ∧
      (reading s0 .lineUp (s0.bankReads (Bank.other 0))).hasRead .lineUp (s0.bankReads (Bank.other 0)) = true := by
  refine ⟨rfl, rfl, rfl, ⟨fun b => ?_, rfl⟩, rfl, rfl, rfl, rfl, rfl, by decide +kernel, by decide +kernel, by decide +kernel,
    by decide +kernel, by decide +kernel, by decide +kernel, by decide +kernel⟩
  cases b with
  | engine f => exact running_engines_quiet f
  | _ => rfl

/-- A switch at the end of its anchor burst, from a copy with event 9 to one without it or with it. -/
def switching (old new : Copy) : State :=
  let w : Switch := { bank := 1, minute := 1000, staging := new, made := false }
  withBurst { running with lineUp := { running.lineUp with copy := some old, switch := some w } } .lineUp .switchAnchor
    0xFFF80 [1, 1, 1000]

theorem switching_quiet (old new : Copy) : (switching old new).quiet := by
  refine ⟨fun b => ?_, rfl⟩
  cases b with
  | engine f => exact running_engines_quiet f
  | _ => rfl

/-- A copy with event 9 in slot 71, in the state given. -/
def eventCopy (st : EvState) : Copy := (withEvent running st).active

/-- An event dropped, one carried whose state has changed, and one whose start has moved. -/
theorem test_meets_SwitchReports :
    let old := eventCopy .scheduled
    let new := eventCopy .running
    let moved : Copy := { new with slots := new.slots.set 71 { eventSlot with start := 1990 } }
    (switchReports old Copy.empty 1000).length = 1 ∧ (switchReports old new 1000).length = 1 ∧
      (switching old new).order.reports.length + 1 ≤ Config.orderReportDepth ∧
      (switching old new).bill.queue.length < Config.noticeDepth ∧
      (switching old new).lineUp.switch = some { bank := 1, minute := 1000, staging := new, made := false } ∧
      (switching old new).path.port = .burst .lineUp .switchAnchor 0xFFF80 [1, 1, 1000] false ∧
      old.slots[(71 : SlotId)].isEvent = true ∧ old.ev[(71 : SlotId)] = .scheduled ∧ new.ev[(71 : SlotId)] = .running ∧
      Copy.empty.slotOfEvent 9 = none ∧ new.slotOfEvent 9 = some 71 ∧ carries old Copy.empty 71 = false ∧
      carries old new 71 = true ∧ carries new moved 71 = false ∧
      changeReport .scheduled .running 9 1000 = some (.eventStart 9 1000) ∧
      (∀ i : SlotId, i ≠ 71 → ¬ (old.slots[i].isEvent = true ∧ old.slots[i].event = 9)) := by decide +kernel

/-! ### The tap line -/

/-- A character as received with its stop bit at space, and the characters of a call. -/
theorem test_meets_CallsCarryTheirCrc :
    ((charLevels 0x85).set 9 false)[9]? = some false ∧ ([0x85, 0x01, 0xF0] : List Byte)[1]? = some 0x01 ∧
      charLevels 0x85 = [false, true, false, true, false, false, false, false, true, true] ∧
      startBitRecognised true false false = true ∧ startBitRecognised false false false = false := by decide

/-- The tap with serial 0x12345678, addressed at a position or not. -/
def aTap (pos : Option Nat) : Tap :=
  { serial := 0x12345678, pos := pos, ports := Vector.replicate 4 PortState.off, tamper := true, low := false }

/-- A SET PORT to port 2 of position 5, an IDENTIFY and an ASSIGN, as a tap takes them. -/
theorem test_meets_CallsCarryTheirCrc_taps :
    (aTap (some 5)).pos = some 5 ∧ (aTap none).pos = none ∧ (aTap none).gateOpen = false ∧
      ((aTap (some 5)).hear (callChars 5 .setPort (setPortPayload 2 { on := true, mask := 0x0F }))).1.ports[(2 : Port)] =
        { on := true, mask := 0x0F } ∧
      ((aTap none).hear (callChars 0 .identify [])).2.map (fun rx => serialOfChars (rx.drop 1).dropLast) = some 0x12345678 ∧
      ((aTap none).hear (callChars 0 .assign (assignPayload 7 0x12345678))).1.pos = some 7 ∧
      ((aTap none).hear (callChars 0 .assign (assignPayload 7 0x12345679))).1.pos = none := by
  decide +kernel

/-- Calls that R56 has unanswered: a wrong CRC, a wrong address check, an unknown command, a wrong payload length, port 4,
and position 63. -/
theorem test_meets_CallsCarryTheirCrc_bad :
    let withCrc (cs : List Byte) : List Byte := cs ++ [crc8 cs]
    crc8 ([0x85, 0x01, 0xF1] : List Byte).dropLast ≠ ([0x85, 0x01, 0xF1] : List Byte).getLastD 0 ∧
      (0x05 : Byte) ≠ addrChar ((0x05 : Byte).toNat % 64) ∧ (withCrc [0x05, 0x01])[0]? = some 0x05 ∧
      (withCrc [0x85, 0x06])[1]? = some 0x06 ∧ (0x06 : Byte) ∉ ([0x01, 0x32, 0x03, 0x54, 0x05] : List Byte) ∧
      (withCrc [0x85, 0x32, 0x00]).length ≠ (0x32 : Byte).toNat / 16 + 3 ∧
      3 < (charAt (withCrc [0x85, 0x32, 0x04, 0x00, 0x00]) 2).toNat ∧
      62 < (charAt (withCrc [0x00, 0x54, 0x3F, 0, 0, 0, 0]) 2).toNat ∧
      ((aTap (some 5)).hear (withCrc [0x85, 0x32, 0x04, 0x00, 0x00])).2 = none := by decide +kernel

/-- Feeder 0's engine talks, its transaction in the phase given. -/
def talking (cmd : TapCmd) (ph : Phase) (attempt : Nat) (rx : List Byte) : State :=
  running.setEng 0 { Engine.reset with
    state := .talking
    txn := some { newTxn cmd 5 0 0 PortState.off false [] 3 with phase := ph, attempt := attempt, rx := rx } }

/-- A feeder with no tap placed on any feeder, and one with the tap of entry 0 alone. -/
theorem row_free {s : State} (h : ∀ e, s.entry e = Entry.free) (f : Feeder) : s.row f = [] := by
  have : ((List.finRange 576).filterMap fun e =>
      match (s.entry e).place with
      | some pl => if pl.feeder = f then some (pl.pos, e) else none
      | none => none) = [] := by
    rw [List.filterMap_eq_nil_iff]
    intro e _
    rw [h]; rfl
  exact (congrArg (List.foldr insertPos []) this).trans rfl

theorem row_one {s : State} {f : Feeder} {n : Nat} (h0 : (s.entry 0).place = some { feeder := f, pos := n })
    (h : ∀ e, 0 ≠ e → s.entry e = Entry.free) : s.row f = [(n, 0)] := by
  have : ((List.finRange 576).filterMap fun e =>
      match (s.entry e).place with
      | some pl => if pl.feeder = f then some (pl.pos, e) else none
      | none => none) = [(n, 0)] := by
    rw [List.finRange_succ, List.filterMap_cons_some (b := (n, 0)) (by rw [h0]; simp), List.filterMap_eq_nil_iff.mpr]
    intro e he
    obtain ⟨k, -, rfl⟩ := List.mem_map.mp he
    rw [h _ (Fin.succ_ne_zero k).symm]; rfl
  exact (congrArg (List.foldr insertPos []) this).trans rfl

/-- With entry 0 set, every other entry of the running part is FREE. -/
theorem others_free (x : Entry) (e : EntryId) (h : 0 ≠ e) : (running.setEntry 0 x).entry e = Entry.free := by
  rw [State.entry_setEntry, if_neg h, running_entry]

theorem row_set (x : Entry) (n : Nat) (h : x.place = some { feeder := 0, pos := n }) :
    (running.setEntry 0 x).row 0 = [(n, 0)] :=
  row_one (by rw [State.entry_setEntry, if_pos rfl, h]) (others_free x)

/-- The roll call of a feeder says nothing of its row. -/
theorem row_setRoll (s : State) (r : RollCall) : (s.setRoll 0 r).row 0 = s.row 0 := rfl

theorem set_entry0 (x : Entry) : (running.setEntry 0 x).entry 0 = x := by rw [State.entry_setEntry, if_pos rfl]

theorem no_inflight {s : State} (h : s.order.inflight = []) (f : Feeder) : s.inFlightWork f = none := by
  unfold State.inFlightWork; rw [h]; rfl

theorem no_roll_work {s : State} {f : Feeder} (h : s.row f = []) (hd : (s.roll f).due = none) : s.rollWork f = none := by
  unfold State.rollWork; rw [h, hd]; rfl

theorem test_meets_TransactionStarts_inflight :
    let s : State := { running.setEntry 0 (tapAt 77 5 .present) with
      order := { running.order with inflight := [InFlight.mk 0 1 .connect 0 0 false false 0] } }
    s.inFlightWork 0 = some (.setPort 0 0) := by
  intro s
  have he : (s.entry 0).on 0 = true := by
    show ((running.setEntry 0 (tapAt 77 5 .present)).entry 0).on 0 = true
    rw [set_entry0]; rfl
  have hi : s.order.inflight = [InFlight.mk 0 1 .connect 0 0 false false 0] := rfl
  have ha : s.armedOrQueued (InFlight.mk 0 1 .connect 0 0 false false 0) = false := by rfl
  unfold State.inFlightWork
  rw [hi, List.find?_cons_of_pos (by rw [ha, he]; rfl)]
  rfl

/-- An armed order is passed over, and the one behind it is chosen; and an empty table gives no work. -/
theorem test_meets_TransactionStarts_order :
    let x (armed : Bool) : InFlight := InFlight.mk 0 1 .connect 0 0 armed false 0
    let s : State := { running.setEntry 0 (tapAt 77 5 .present) with order := { running.order with inflight := [x true, x false] } }
    s.order.inflight = [x true] ++ x false :: [] ∧ s.armedOrQueued (x true) = true ∧ s.armedOrQueued (x false) = false ∧
      (s.entry 0).on 0 = true ∧ running.order.inflight = [] := by
  refine ⟨rfl, rfl, rfl, ?_, rfl⟩
  show ((running.setEntry 0 (tapAt 77 5 .present)).entry 0).on 0 = true
  rw [set_entry0]; rfl

theorem test_meets_TransactionStarts_dirty :
    let s := running.setEntry 0 (tapAt 77 5 .present)
    s.inFlightWork 0 = none ∧ s.dirtyWork 0 = some (.setPort 0 0) ∧ s.workChoice 0 = some (.setPort 0 0) := by
  intro s
  have h1 : s.inFlightWork 0 = none := no_inflight (by rw [State.setEntry_order]; rfl) 0
  have h2 : s.dirtyWork 0 = some (.setPort 0 0) := by
    unfold State.dirtyWork
    rw [row_set _ 5 rfl, List.findSome?_cons, set_entry0]
    simp only [State.tapPort, s, set_entry0]
    decide
  exact ⟨h1, h2, by unfold State.workChoice; rw [h1, h2]; rfl⟩

/-- The tap of entry 0 has nothing to apply, and a verification READ is owed. -/
def toVerify : Entry :=
  { tapAt 77 5 .present with ports := Vector.replicate 4 { TapPort.fresh with applied := some PortState.off }, verify := true }

theorem read_work {s : State} (hr : s.row 0 = [(5, 0)]) (he : s.entry 0 = toVerify) :
    s.dirtyWork 0 = none ∧ s.rollWork 0 = some (.read 0 false) := by
  have hc : ∀ p : Port, (toVerify.ports[p]).dirty = false := by decide +kernel
  have hv : toVerify.verify = true := rfl
  constructor
  · unfold State.dirtyWork
    rw [hr, List.findSome?_cons, he, List.findSome?_nil]
    simp only [State.tapPort, he, hc]
    rfl
  · unfold State.rollWork
    rw [hr, List.find?_cons_of_pos (by rw [he, hv])]

theorem test_meets_TransactionStarts_read :
    (running.setEntry 0 toVerify).dirtyWork 0 = none ∧ (running.setEntry 0 toVerify).rollWork 0 = some (.read 0 false) :=
  read_work (row_set toVerify 5 rfl) (set_entry0 toVerify)

/-- A verification READ is owed, and a paced READ is due where none is, its cycle going on or at its end. -/
theorem test_meets_TransactionStarts_roll (n : Nat) :
    let v := running.setEntry 0 toVerify
    let s := running.setRoll 0 { RollCall.cleared with due := some (5, 0), list := [(5, 0)], cursor := n, period := 2 }
    (v.entry 0).on 0 = true ∧ (v.entry 0).verify = true ∧ (∀ e, (s.entry e).verify = false) ∧
      s.rollWork 0 = some (.read 0 true) ∧ (s.roll 0).cursor = n ∧ (s.roll 0).list.length = 1 := by
  intro v s
  have he : ∀ e, s.entry e = Entry.free := running_entry
  have hr : s.roll 0 = { RollCall.cleared with due := some (5, 0), list := [(5, 0)], cursor := n, period := 2 } := by
    simp only [s, State.roll_setRoll, if_pos]
  refine ⟨by rw [set_entry0]; rfl, by rw [set_entry0]; rfl, fun e => by rw [he]; rfl, ?_, by rw [hr], by rw [hr]; rfl⟩
  unfold State.rollWork
  rw [row_free he, hr]; rfl

theorem test_meets_TransactionStarts_probe :
    let s := running.setRoll 0 { RollCall.cleared with probeOwed := true }
    s.inFlightWork 0 = none ∧ s.dirtyWork 0 = none ∧ s.rollWork 0 = none ∧ (s.roll 0).probeOwed = true ∧
      s.workChoice 0 = some .probe := by
  intro s
  have hp : s.row 0 = [] := row_free (s := s) (fun e => running_entry e) 0
  have hr : s.roll 0 = { RollCall.cleared with probeOwed := true } := by
    simp only [s, State.roll_setRoll, if_pos]
  have h1 : s.inFlightWork 0 = none := no_inflight (by rw [State.setRoll_order]; rfl) 0
  have h2 : s.dirtyWork 0 = none := by unfold State.dirtyWork; rw [hp]; rfl
  have h3 : s.rollWork 0 = none := no_roll_work hp (by rw [hr]; rfl)
  refine ⟨h1, h2, h3, by rw [hr], ?_⟩
  unfold State.workChoice
  rw [h1, h2, h3, hr]; rfl

theorem test_meets_TransactionStarts_chooses : running.mayChoose 0 = true ∧
    running.order.reports.length < Config.orderReportDepth := by decide +kernel

theorem test_meets_AttemptsFail (cmd : TapCmd) (ph : Phase) (attempt : Nat) (rx : List Byte) :
    let x : Txn := { newTxn cmd 5 0 0 PortState.off false [] 3 with phase := ph, attempt := attempt, rx := rx }
    ((talking cmd ph attempt rx).eng 0).txn = some x ∧ x.ended = false ∧ x.phase = ph ∧ x.cmd = cmd ∧ x.attempt = attempt ∧
      x.rx = rx ∧ x.limit = 3 ∧ ((talking cmd ph attempt rx).eng 0).state = .talking ∧
      (answerCrcGood 5 [0, 1] && gateGood .setPort [0, 1]) = false := by
  refine ⟨?_, rfl, rfl, rfl, rfl, rfl, rfl, ?_, by decide +kernel⟩ <;> simp [talking]

/-- Feeder 0 enumerates, its IDENTIFY at the last attempt. -/
theorem test_meets_AttemptsFail_enumerating :
    let x : Txn := { newTxn .identify 0 0 0 PortState.off false [] 3 with phase := .awaiting, attempt := 3 }
    let s := running.setEng 0 { Engine.reset with state := .enumerating, enum := some (Enum.start .extend), txn := some x }
    (s.eng 0).txn = some x ∧ x.ended = false ∧ x.cmd ≠ .forget ∧ x.limit ≤ x.attempt ∧ (s.eng 0).state = .enumerating := by
  refine ⟨?_, rfl, nofun, by decide, ?_⟩ <;> simp

theorem test_meets_AttemptsGoOn (cmd : TapCmd) (ph : Phase) (rx : List Byte) :
    let x : Txn := { newTxn cmd 5 0 0 PortState.off false [] 3 with phase := ph, attempt := 1, rx := rx }
    ((talking cmd ph 1 rx).eng 0).txn = some x ∧ x.ended = false ∧ x.phase = ph ∧ x.probe = false ∧
      ((talking cmd ph 1 rx).eng 0).state = .talking ∧ 1 < 16 ∧ 16 ≤ running.cfg.window ∧ x.cmd = cmd ∧
      (answerCrcGood 5 ([0] ++ [crc8 [addrChar 5, 0]]) && gateGood .read ([0] ++ [crc8 [addrChar 5, 0]])) = true := by
  refine ⟨?_, rfl, rfl, rfl, ?_, by decide, by decide, rfl, by decide +kernel⟩ <;> simp [talking]

/-- The gap of a transaction that has ended, and the quiet gap of an engine without one. -/
theorem test_meets_AttemptsGoOn_gaps :
    let x : Txn := { newTxn .read 5 0 0 PortState.off false [] 3 with phase := .gap, attempt := 3, ended := true }
    let s := running.setEng 0 { Engine.reset with state := .talking, txn := some x }
    let q := running.setEng 0 { Engine.reset with state := .enumerating, enum := some (Enum.start .extend), quiet := true }
    (s.eng 0).txn = some x ∧ x.ended = true ∧ x.phase = .gap ∧ (s.eng 0).state = .talking ∧ (q.eng 0).txn = none := by
  refine ⟨?_, rfl, rfl, ?_, ?_⟩ <;> simp [Engine.reset]

/-- A probe at the end of a good answer's tail. -/
theorem test_meets_AttemptsGoOn_probe :
    let c : List Byte := [0, 78, 0, 0, 0]
    let x : Txn := { newTxn .identify 0 0 0 PortState.off true [] 1 with phase := .tail, rx := c ++ [crc8 (addrChar 0 :: c)] }
    let s := running.setEng 0 { Engine.reset with state := .talking, txn := some x }
    (s.eng 0).txn = some x ∧ x.ended = false ∧ x.phase = .tail ∧ x.probe = true ∧ (s.eng 0).state = .talking ∧
      (answerCrcGood x.addr x.rx && gateGood x.cmd x.rx) = true := by
  refine ⟨?_, rfl, rfl, rfl, ?_, by decide +kernel⟩ <;> simp

theorem talking_quiet (cmd : TapCmd) (ph : Phase) (n : Nat) (rx : List Byte) : (talking cmd ph n rx).quiet := by
  refine ⟨fun b => ?_, rfl⟩
  cases b with
  | engine f =>
    show ((talking cmd ph n rx).eng f).work = []
    rw [talking, State.eng_setEng]
    split
    · rfl
    · exact running_engines_quiet f
  | _ => rfl

theorem test_meets_LineFaults :
    (talking .read .awaiting 1 []).quiet ∧ (talking .read .awaiting 1 []).run.part = .running ∧
      (talking .read .awaiting 1 []).order.reports.length + 2 ≤ Config.orderReportDepth ∧
      (talking .read .awaiting 1 []).log.intake.length + 2 ≤ Config.intakeDepth ∧
      ((talking .read .awaiting 1 []).eng 0).outcome = none ∧
      ((talking .read .awaiting 1 []).eng 0).driving = false ∧ ((talking .read .calling 1 []).eng 0).driving = true ∧
      ((talking .read .calling 1 []).eng 0).state = .talking ∧ ((talking .read .calling 1 []).eng 0).enum = none ∧
      ((talking .read .calling 1 []).eng 0).request = none ∧
      (let b := running.setEng 0 { Engine.reset with state := .blocked, checking := true }
       (b.eng 0).state = .blocked ∧ (b.eng 0).checking = true ∧
         0 < (b.setBlockedCheck 0 { Timer.stopped with due := 1 }).time.blockedCheck[(0 : Feeder)].due) :=
  ⟨talking_quiet _ _ _ _, by decide +kernel⟩

/-- A READY feeder with a request, and an enumerating one, as their line sticks or their output does not rest. -/
def sticking (st : EngState) (en : Option Enum) (req : Option EnumMode) : State :=
  running.setEng 0 { Engine.reset with state := st, enum := en, request := req }

theorem sticking_quiet (st : EngState) (en : Option Enum) (req : Option EnumMode) : (sticking st en req).quiet := by
  refine ⟨fun b => ?_, rfl⟩
  cases b with
  | engine f =>
    show ((sticking st en req).eng f).work = []
    rw [sticking, State.eng_setEng]
    split
    · rfl
    · exact running_engines_quiet f
  | _ => rfl

theorem test_meets_LineFaults_states :
    let r := sticking .ready none (some .extend)
    let e := sticking .enumerating (some (Enum.start .extend)) none
    (r.eng 0).state = .ready ∧ (r.eng 0).enum = none ∧ (r.eng 0).request = some .extend ∧ (r.eng 0).driving = false ∧
      (r.eng 0).outcome = none ∧ (e.eng 0).state = .enumerating ∧ (e.eng 0).enum = some (Enum.start .extend) ∧
      (e.eng 0).request = none ∧ (Enum.start .extend).mode = .extend ∧ (e.eng 0).driving = false ∧
      e.corr.reports.length < Config.corrReportDepth ∧ e.order.reports.length + 2 ≤ Config.orderReportDepth ∧
      e.log.intake.length + 2 ≤ Config.intakeDepth := by decide +kernel

/-- A READY feeder whose blocked report finds no room, and a blocked one whose report still waits when its line clears. -/
theorem test_meets_LineFaults_waiting :
    let s : State := { running with order := { running.order with reports := List.replicate 32 (.blocked 1) } }
    let w : List Task := [.orderReport (.blocked 0), .alarm .feederBlocked .critical (.feeder 0) 0 none]
    let c := running.setEng 0 { Engine.reset with state := .blocked, checking := true, work := w }
    (s.eng 0).state = .ready ∧ (s.eng 0).txn = none ∧ (s.eng 0).outcome = none ∧ (s.eng 0).enum = none ∧
      (s.eng 0).request = none ∧ s.order.reports.length = Config.orderReportDepth ∧
      s.log.intake.length < Config.intakeDepth ∧ s.run.part = .running ∧
      (c.eng 0).checking = true ∧ (c.eng 0).state = .blocked ∧ (c.eng 0).work ≠ [] := by decide +kernel

/-! ### The Tap Directory -/

/-- An outcome of feeder 0's engine waits for the directory, the tap with serial 77 in the state given at position 5. -/
def answered (cmd : TapCmd) (addr : Nat) (res : OutRes) (st : EntryState) : State :=
  (running.setEntry 0 (tapAt 77 5 st)).setEng 0 { Engine.reset with
    state := .ready
    outcome := some { cmd := cmd, addr := addr, entry := 0, port := 3, sent := PortState.off, probe := false, attempts := 1,
                      res := res } }

theorem test_meets_TapOutcomes :
    let res : OutRes := .ok 6 false false true [77, 0, 0, 0, 1, 0xFF, 0, 0, 0]
    let other : OutRes := .ok 6 false false true [78, 0, 0, 0, 1, 0xFF, 0, 0, 0]
    let o (cmd : TapCmd) (addr : Nat) (r : OutRes) : Outcome :=
      { cmd := cmd, addr := addr, entry := 0, port := 3, sent := PortState.off, probe := false, attempts := 1, res := r }
    let s := answered .read 5 res .lost
    s.dir.work = [] ∧ (s.eng 0).outcome = some (o .read 5 res) ∧ s.isCurrent 0 (o .read 5 res) = true ∧
      s.order.reports.length + 1 < Config.orderReportDepth ∧ (s.entry 0).state = .lost ∧ s.run.part ≠ .idle ∧
      s.log.intake = [] ∧ s.corr.reports.length < Config.corrReportDepth ∧ (o .read 5 res).probe = false ∧
      serialOfChars [77, 0, 0, 0, 1, 0xFF, 0, 0, 0] = (s.entry 0).serial ∧
      ((answered .setPort 5 res .present).eng 0).outcome = some (o .setPort 5 res) ∧
      ((answered .read 5 (.failed .noAnswer) .present).eng 0).outcome = some (o .read 5 (.failed .noAnswer)) ∧
      (o .read 5 res).toTap = true ∧ ((answered .read 5 (.failed .noAnswer) .present).entry 0).state ≠ .lost ∧
      FailKind.noAnswer ≠ .lineBlocked ∧
      ((answered .read 5 other .present).eng 0).outcome = some (o .read 5 other) ∧
      serialOfChars [78, 0, 0, 0, 1, 0xFF, 0, 0, 0] ≠ ((answered .read 5 other .present).entry 0).serial ∧
      ((answered .read 5 (.failed .lineBlocked) .present).eng 0).outcome = some (o .read 5 (.failed .lineBlocked)) ∧
      (answered .read 5 (.failed .lineBlocked) .present).isCurrent 0 (o .read 5 (.failed .lineBlocked)) = true ∧
      (answered .read 6 res .present).isCurrent 0 (o .read 6 res) = false := by decide +kernel

/-- A probe of feeder 0 has ended. -/
def probed (res : OutRes) : State :=
  running.setEng 0 { Engine.reset with
    state := .talking
    outcome := some { cmd := .identify, addr := 0, entry := 0, port := 0, sent := PortState.off, probe := true, attempts := 1,
                      res := res } }

theorem probed_quiet (res : OutRes) : (probed res).quiet := by
  refine ⟨fun b => ?_, rfl⟩
  cases b with
  | engine f =>
    show ((probed res).eng f).work = []
    rw [probed, State.eng_setEng]
    split
    · rfl
    · exact running_engines_quiet f
  | _ => rfl

theorem test_meets_RollCalls_paced :
    let due := (running.setEntry 0 (tapAt 77 62 .present)).setPacing 0 { Timer.stopped with due := 1 }
    0 < due.time.pacing[(0 : Feeder)].due := by
  intro due
  simp only [due, State.setPacing_time]
  decide

theorem probed_eng (res : OutRes) : (probed res).eng 0 = { Engine.reset with
      state := .talking
      outcome := some { cmd := .identify, addr := 0, entry := 0, port := 0, sent := PortState.off, probe := true, attempts := 1,
                        res := res } } := by
  rw [probed, State.eng_setEng, if_pos rfl]

theorem probed_free (res : OutRes) (e : EntryId) : (probed res).entry e = Entry.free := by
  rw [probed, State.entry_setEng, running_entry]

theorem test_meets_RollCalls_probe (res : OutRes) :
    let s := probed res
    s.quiet ∧ s.dir.work = [] ∧ (s.eng 0).state = .talking ∧ (s.eng 0).txn = none ∧
      (s.eng 0).outcome.map (·.probe) = some true ∧ (s.eng 0).outcome.map (·.res) = some res ∧ s.run.part = .running ∧
      s.corr.reports.length < Config.corrReportDepth := by
  intro s
  refine ⟨probed_quiet _, rfl, ?_, ?_, ?_, ?_, rfl, Nat.zero_lt_succ _⟩ <;> simp only [s, probed_eng] <;> rfl

theorem free_entry0 {s : State} (h : ∀ e, s.entry e = Entry.free) : s.freeEntry = some 0 := by
  unfold State.freeEntry
  rw [List.finRange_succ, List.find?_cons_of_pos]
  rw [h]; rfl

theorem chosen_new {s : State} {sn : Word} {e : EntryId} (hs : s.entryOfSerial sn = none) (hf : s.freeEntry = some e) :
    (s.chooseEntry sn).isSome = true := by
  unfold State.chooseEntry
  rw [hs, hf]
  rfl

theorem test_meets_RollCalls_found (res : OutRes) : ((probed res).chooseEntry 78).isSome = true :=
  chosen_new (nobody (probed_free res) 78 0 0).1 (free_entry0 (probed_free res))

/-- Where a FRESH enumeration places a tap. -/
theorem choosePos_fresh (s : State) (en : Enum) (sn : Word) (h : en.mode = .fresh) : s.choosePos 0 en sn = en.next := by
  unfold State.choosePos
  rw [h]

/-- Where an EXTEND places a new tap. -/
theorem choosePos_above {s : State} {en : Enum} {sn : Word} {n : Nat} (h : en.mode = .extend)
    (hs : s.entryOfSerial sn = none) (hr : s.row 0 = [(n, 0)]) : s.choosePos 0 en sn = n + 1 := by
  unfold State.choosePos
  rw [h, hs, hr]; rfl

theorem test_meets_EnumerateWords (p : PartState) :
    (arriving { running with run := { running.run with part := p } } .enumerate 0x00000101).first .enumerate 0x00000101 ∧
      enumModeField 0x00000101 = 1 ∧ enumModeField 0x00000201 = 2 ∧ enumModeField 0x00000301 ≠ 1 ∧
      enumModeField 0x00000301 ≠ 2 ∧ enumFeeders 0x00000100 = [] ∧ enumFeeders 0x00000181 = [0, 7] ∧
      (∀ g : Feeder, running.enumRefused g = false) ∧
      (running.setEng 7 { Engine.reset with state := .blocked }).enumRefused 7 = true ∧
      (∀ g : Feeder, running.openOutageOn g = false) ∧
      { running with corr := { running.corr with outages := [Outage.mk 1 7 1 3 0 0] } }.openOutageOn 7 = true :=
  ⟨⟨rfl, rfl⟩, by decide +kernel⟩

/-- Feeder 0's engine enumerates, with an outcome of a call; one tap is placed at position 5. -/
def enumerating (cmd : TapCmd) (res : OutRes) (mode : EnumMode) : State :=
  (running.setEntry 0 (tapAt 77 5 .present)).setEng 0 { Engine.reset with
    state := .enumerating
    enum := some { Enum.start mode with forgot := true, next := 6, serial := 78, pos := 6 }
    outcome := some { cmd := cmd, addr := 0, entry := 0, port := 0, sent := PortState.off, probe := false, attempts := 1,
                      res := res } }

theorem enumerating_quiet (cmd : TapCmd) (res : OutRes) (mode : EnumMode) : (enumerating cmd res mode).quiet := by
  refine ⟨fun b => ?_, rfl⟩
  cases b with
  | engine f =>
    show ((enumerating cmd res mode).eng f).work = []
    rw [enumerating, State.eng_setEng]
    split
    · rfl
    · exact running_engines_quiet f
  | _ => rfl

/-- No entry but the placed one holds a serial. -/
theorem enumerating_serial (cmd : TapCmd) (res : OutRes) (mode : EnumMode) :
    (enumerating cmd res mode).entryOfSerial 78 = none := by
  refine List.find?_eq_none.mpr fun e _ => ?_
  rw [enumerating, State.entry_setEng, State.entry_setEntry, running_entry]
  split
  · decide +kernel
  · decide +kernel

theorem enumerating_row (cmd : TapCmd) (res : OutRes) (mode : EnumMode) : (enumerating cmd res mode).row 0 = [(5, 0)] := by
  refine row_one ?_ fun e h => ?_
  · rw [enumerating, State.entry_setEng, State.entry_setEntry, if_pos rfl]; rfl
  · rw [enumerating, State.entry_setEng, others_free _ _ h]

theorem enumerating_free (cmd : TapCmd) (res : OutRes) (mode : EnumMode) :
    (enumerating cmd res mode).freeEntry = some 1 := by
  unfold State.freeEntry
  rw [List.finRange_succ, List.find?_cons_of_neg, List.finRange_succ, List.map_cons, List.find?_cons_of_pos]
  · rfl
  · rw [enumerating, State.entry_setEng, State.entry_setEntry, if_neg (by decide), running_entry]; rfl
  · rw [enumerating, State.entry_setEng, State.entry_setEntry, if_pos rfl]; simp [tapAt]

theorem enumerating_eng (cmd : TapCmd) (res : OutRes) (mode : EnumMode) : (enumerating cmd res mode).eng 0 =
    { Engine.reset with
      state := .enumerating
      enum := some { Enum.start mode with forgot := true, next := 6, serial := 78, pos := 6 }
      outcome := some { cmd := cmd, addr := 0, entry := 0, port := 0, sent := PortState.off, probe := false, attempts := 1,
                        res := res } } := by
  rw [enumerating, State.eng_setEng, if_pos rfl]

theorem test_meets_EnumerationSteps (cmd : TapCmd) (res : OutRes) (mode : EnumMode) :
    let s := enumerating cmd res mode
    s.quiet ∧ s.run.part = .running ∧ s.corr.reports.length < Config.corrReportDepth ∧ s.order.reports = [] ∧
      s.log.intake = [] ∧ (s.eng 0).state = .enumerating ∧ (s.eng 0).outcome.map (·.res) = some res ∧
      (s.eng 0).outcome.map (·.cmd) = some cmd ∧ (s.eng 0).enum.map (·.mode) = some mode ∧ s.row 0 = [(5, 0)] ∧
      s.entryOfSerial 78 = none ∧ s.freeEntry = some 1 ∧ (s.eng 0).enum.map (·.again) = some false := by
  intro s
  refine ⟨enumerating_quiet _ _ _, rfl, Nat.zero_lt_succ _, rfl, rfl, ?_, ?_, ?_, ?_, enumerating_row _ _ _,
    enumerating_serial _ _ _, enumerating_free _ _ _, ?_⟩ <;> simp only [s, enumerating_eng] <;> rfl

/-- The answer of an IDENTIFY of before a halt, not yet taken at the resume. -/
def resumedEnum (mode : EnumMode) : State :=
  let s := enumerating .identify (.ok 7 true false false [78, 0, 0, 0]) mode
  s.setEng 0 (s.eng 0).noDue

theorem test_meets_EnumerationSteps_again (mode : EnumMode) :
    let s := resumedEnum mode
    s.quiet ∧ (s.eng 0).enum.map (·.again) = some true ∧ (s.eng 0).state = .enumerating ∧ s.run.part = .running ∧
      (s.eng 0).outcome.map (·.cmd) = some .identify ∧ (s.chooseEntry 78).isSome = true := by
  intro s
  refine ⟨⟨fun b => ?_, rfl⟩, ?_, ?_, rfl, ?_, ?_⟩
  · cases b with
    | engine f =>
      show ((resumedEnum mode).eng f).work = []
      rw [resumedEnum, State.eng_setEng, enumerating_eng]
      split
      · rfl
      · exact (enumerating_quiet .identify _ mode).1 (.engine f)
    | _ => rfl
  · simp only [s, resumedEnum, State.eng_setEng, enumerating_eng]; rfl
  · simp only [s, resumedEnum, State.eng_setEng, enumerating_eng]; rfl
  · simp only [s, resumedEnum, State.eng_setEng, enumerating_eng]; rfl
  · exact chosen_new (s := resumedEnum mode) (enumerating_serial .identify (.ok 7 true false false [78, 0, 0, 0]) mode)
      (enumerating_free .identify (.ok 7 true false false [78, 0, 0, 0]) mode)

theorem test_meets_EnumerationSteps_request (m : EnumMode) :
    let r := running.setEng 0 { Engine.reset with state := .ready, request := some m }
    (r.eng 0).state = .ready ∧ (r.eng 0).request = some m ∧ r.openOutageOn 0 = false ∧ running.row 0 = [] := by
  intro r
  refine ⟨?_, ?_, rfl, row_free running_entry 0⟩ <;> simp only [r, State.eng_setEng, if_true]

theorem test_meets_EnumerationSteps_fields (cmd : TapCmd) (res : OutRes) (mode : EnumMode) :
    (enumerating cmd res mode).choosePos 0 { Enum.start .extend with forgot := true, next := 6, serial := 78, pos := 6 } 78 = 6 ∧
      serialOfChars [78, 0, 0, 0] = 78 ∧ (charAt [6] 0).toNat = 6 :=
  ⟨choosePos_above rfl (enumerating_serial _ _ _) (enumerating_row _ _ _), by decide, by decide⟩

/-- The known serial of the placed tap, and what an enumeration's end finds pending. -/
theorem test_meets_EnumerationSteps_known (cmd : TapCmd) (res : OutRes) (mode : EnumMode) :
    let s := enumerating cmd res mode
    s.entryOfSerial 77 = some 0 ∧ s.pendingFor 0 = [] ∧ (s.row 0).length ≤ Config.orderReportDepth ∧
      s.corr.reports.length + (s.row 0).length ≤ Config.corrReportDepth ∧ (s.pendingFor 0).length < Config.intakeDepth ∧
      s.choosePos 0 { Enum.start .fresh with next := 6 } 77 = 6 ∧ serialOfChars [77, 0, 0, 0] = 77 := by
  intro s
  have he : s.entry 0 = tapAt 77 5 .present := by rw [show s.entry 0 = (running.setEntry 0 _).entry 0 from rfl, set_entry0]
  have hp : s.pendingFor 0 = [] := by
    refine List.filter_eq_nil_iff.mpr fun e _ => ?_
    rw [show s.entry e = (running.setEntry 0 (tapAt 77 5 .present)).entry e from rfl]
    by_cases h : 0 = e
    · subst h; rw [set_entry0]; decide +kernel
    · rw [others_free _ e h]; decide +kernel
  refine ⟨?_, hp, ?_, ?_, ?_, choosePos_fresh _ _ _ rfl, by decide⟩
  · unfold State.entryOfSerial
    rw [List.finRange_succ, List.find?_cons_of_pos (by rw [he]; decide +kernel)]
  · rw [enumerating_row]; decide
  · rw [enumerating_row]; show 0 + 1 ≤ 32; decide
  · rw [hp]; decide

/-- An ASSIGN of position 6 has been answered: the chosen entry's tap is new, pending from this feeder, or placed elsewhere. -/
def assigning (x : Entry) (serial : Word) (choice : Option (EntryId × Pick)) : State :=
  (running.setEntry 0 x).setEng 0 { Engine.reset with
    state := .enumerating
    enum := some { Enum.start .fresh with forgot := true, next := 6, serial := serial, pos := 6, choice := choice }
    outcome := some { cmd := .assign, addr := 0, entry := 0, port := 0, sent := PortState.off, probe := false, attempts := 1,
                      res := .ok 7 true false false [6] } }

theorem assigning_quiet (x : Entry) (serial : Word) (choice : Option (EntryId × Pick)) :
    (assigning x serial choice).quiet := by
  refine ⟨fun b => ?_, rfl⟩
  cases b with
  | engine f =>
    show ((assigning x serial choice).eng f).work = []
    rw [assigning, State.eng_setEng]
    split
    · rfl
    · exact running_engines_quiet f
  | _ => rfl

theorem test_meets_EnumerationSteps_assigned :
    let pending : Entry := { tapAt 77 5 .silent with place := none, pending := some { feeder := 0, pos := 3 } }
    let moved : Entry := { tapAt 77 5 .present with place := some { feeder := 4, pos := 2 } }
    let p := assigning pending 77 (some (0, .held))
    let m := assigning moved 77 (some (0, .held))
    let n := assigning (tapAt 77 5 .present) 78 (some (1, .free))
    let again := assigning (tapAt 77 5 .present) 78 (some (0, .free))
    (p.entry 0).serial = 77 ∧ (p.entry 0).state = .silent ∧ (p.entry 0).place = none ∧
      (p.entry 0).pending.map (·.feeder) = some 0 ∧ (m.entry 0).state = .present ∧
      (m.entry 0).place = some { feeder := 4, pos := 2 } ∧ (4 : Feeder) ≠ 0 ∧ (n.entry 1).state = .free ∧
      again.choiceStands 78 (0, .free) = false ∧ again.freeEntry = some 1 ∧ (charAt [6] 0).toNat = 6 ∧
      (n.eng 0).enum.map (·.choice) = some (some (1, .free)) ∧ (n.eng 0).state = .enumerating := by decide +kernel

theorem test_meets_EnumerationSteps_new (choice : Option (EntryId × Pick)) :
    (assigning (tapAt 77 5 .present) 78 choice).entryOfSerial 78 = none := by
  refine List.find?_eq_none.mpr fun e _ => ?_
  rw [assigning, State.entry_setEng, State.entry_setEntry, running_entry]
  split <;> decide +kernel

/-- Every entry of the pool the same. -/
def pooled (x : Entry) (s : State) : State := { s with dir := { s.dir with pool := Vector.replicate 576 x } }

theorem pooled_entry (x : Entry) (s : State) (e : EntryId) : (pooled x s).entry e = x := by
  simp [pooled, State.entry]

/-- A serial that the pool's one entry does not hold is nobody's, and no entry can be had for it. -/
theorem pooled_full (x : Entry) (s : State) (sn : Word) (hs : x.serial ≠ sn) (hf : x.state ≠ .free) (hr : x.reusable = false) :
    (pooled x s).entryOfSerial sn = none ∧ (pooled x s).chooseEntry sn = none := by
  have h1 : (pooled x s).entryOfSerial sn = none :=
    List.find?_eq_none.mpr fun e _ => by rw [pooled_entry]; simp [hs]
  have h2 : (pooled x s).freeEntry = none :=
    List.find?_eq_none.mpr fun e _ => by rw [pooled_entry]; simp [hf]
  have h3 : (pooled x s).freeOnDemand = none := by
    unfold State.freeOnDemand
    simp only [pooled_entry, hr, Bool.false_eq_true, if_false]
    exact (fun l => by induction l with | nil => rfl | cons _ _ ih => exact ih : ∀ l : List EntryId, l.foldl (fun a _ => a) (none : Option EntryId) = none) _
  exact ⟨h1, by unfold State.chooseEntry; rw [h1, h2, h3]; rfl⟩

/-- In a pool without FREE entries: none that can be taken, and two spare ones that were silent as long. -/
theorem test_meets_EnumerationSteps_entries :
    let spare : Entry := { tapAt 70 5 .lost with place := none, lastAnswer := 10 }
    let s := pooled (tapAt 77 5 .present) running
    let t := (s.setEntry 3 spare).setEntry 4 spare
    s.entryOfSerial 78 = none ∧ t.entryOfSerial 78 = none ∧ (∀ e, (s.entry e).state = .present) ∧
      (∀ e, t.entry e = if 4 = e then spare else if 3 = e then spare else tapAt 77 5 .present) ∧ spare.state = .lost ∧
      spare.reusable = true ∧ (running.entry 0).state = .free := by
  intro spare s t
  have ht : ∀ e, t.entry e = if 4 = e then spare else if 3 = e then spare else tapAt 77 5 .present := fun e => by
    simp only [t, s, State.entry_setEntry, pooled_entry]
  refine ⟨(pooled_full _ _ _ (by decide) (by decide) (by decide)).1, List.find?_eq_none.mpr fun e _ => ?_,
    fun e => by rw [pooled_entry]; rfl, ht, rfl, by decide +kernel, by decide +kernel⟩
  rw [ht]
  split
  · decide
  · split <;> decide

/-- The tap found holds a place on the feeder, or on another, in a row with taps and in one without. -/
theorem test_meets_EnumerationSteps_positions :
    let away : Entry := { tapAt 77 9 .present with place := some { feeder := 4, pos := 9 } }
    let s := running.setEntry 0 (tapAt 77 5 .present)
    let t := running.setEntry 0 away
    s.entryOfSerial 77 = some 0 ∧ (s.entry 0).place = some { feeder := 0, pos := 5 } ∧ t.entryOfSerial 77 = some 0 ∧
      (t.entry 0).on 0 = false ∧ (s.entry 0).on 0 = true ∧ ∀ e, (t.entry e).on 0 = false := by
  intro away s t
  refine ⟨by decide +kernel, by decide +kernel, by decide +kernel, by decide +kernel, by decide +kernel, fun e => ?_⟩
  by_cases h : 0 = e
  · subst h; rw [set_entry0]; decide +kernel
  · rw [others_free _ e h]; decide +kernel

/-- Feeder 0 enumerates, an answer of a call with it, over a pool without room. -/
def fullEnum (cmd : TapCmd) (res : OutRes) (mode : EnumMode) : State :=
  pooled { tapAt 77 5 .present with place := some { feeder := 3, pos := 5 } } (enumerating cmd res mode)

theorem fullEnum_quiet (cmd : TapCmd) (res : OutRes) (mode : EnumMode) : (fullEnum cmd res mode).quiet :=
  ⟨fun b => (enumerating_quiet cmd res mode).1 b, rfl⟩

/-- An IDENTIFY and an ASSIGN for whose serial no entry can be had, the choice lost or none made, and an ASSIGN that echoes
another position. -/
theorem test_meets_EnumerationSteps_refused (mode : EnumMode) :
    let i := fullEnum .identify (.ok 7 true false false [78, 0, 0, 0]) mode
    let a := fullEnum .assign (.ok 7 true false false [6]) mode
    let w := enumerating .assign (.ok 7 true false false [7]) mode
    i.quiet ∧ a.quiet ∧ w.quiet ∧ i.chooseEntry (serialOfChars [78, 0, 0, 0]) = none ∧ i.order.reports = [] ∧ i.log.intake = [] ∧
      i.run.part = .running ∧ i.corr.reports.length < Config.corrReportDepth ∧ (i.eng 0).state = .enumerating ∧
      a.chooseEntry 78 = none ∧ a.choiceStands 78 (1, .free) = false ∧ (charAt [6] 0).toNat = 6 ∧
      ((a.eng 0).enum.map (·.pos)) = some 6 ∧ 1 + (i.pendingFor 0).length < Config.intakeDepth ∧
      (charAt [7] 0).toNat ≠ 6 ∧ ((w.eng 0).enum.map (·.pos)) = some 6 := by
  intro i a w
  have full (cmd : TapCmd) (res : OutRes) : (fullEnum cmd res mode).chooseEntry 78 = none :=
    (pooled_full _ _ _ (by decide) (by decide) (by decide)).2
  have hp : i.pendingFor 0 = [] := List.filter_eq_nil_iff.mpr fun e _ => by
    rw [show i = fullEnum .identify (.ok 7 true false false [78, 0, 0, 0]) mode from rfl, fullEnum, pooled_entry]; decide
  have he (cmd : TapCmd) (res : OutRes) : (fullEnum cmd res mode).eng 0 = (enumerating cmd res mode).eng 0 := rfl
  refine ⟨fullEnum_quiet _ _ _, fullEnum_quiet _ _ _, enumerating_quiet _ _ _, full _ _, rfl, rfl, rfl, Nat.zero_lt_succ _, ?_,
    full _ _, ?_, by decide, ?_, by rw [hp]; decide, by decide, ?_⟩
  · rw [he, enumerating_eng]
  · have h1 : (a.entry 1).state = .present := by
      rw [show a = fullEnum .assign (.ok 7 true false false [6]) mode from rfl, fullEnum, pooled_entry]; rfl
    unfold State.choiceStands
    dsimp only
    rw [h1]
    exact Bool.false_and _
  · rw [he, enumerating_eng]; rfl
  · rw [enumerating_eng]; rfl

/-- Feeder 0 enumerates at its last position: the next one is 63, and the highest occupied one is 62. -/
def atTheTop (mode : EnumMode) : State :=
  (running.setEntry 0 (tapAt 77 62 .present)).setEng 0 { Engine.reset with
    state := .enumerating, enum := some { Enum.start mode with forgot := true, next := 63 }
    outcome := some { cmd := .identify, addr := 0, entry := 0, port := 0, sent := PortState.off, probe := false, attempts := 1,
                      res := .ok 7 true false false [78, 0, 0, 0] } }

theorem atTheTop_entry (mode : EnumMode) (e : EntryId) : (atTheTop mode).entry e =
    (running.setEntry 0 (tapAt 77 62 .present)).entry e := by rw [atTheTop, State.entry_setEng]

theorem test_meets_EnumerationSteps_full (mode : EnumMode) :
    let s := atTheTop mode
    s.quiet ∧ (s.eng 0).enum = some { Enum.start mode with forgot := true, next := 63 } ∧ (s.chooseEntry 78).isSome = true ∧
      s.choosePos 0 { Enum.start mode with forgot := true, next := 63 } 78 = 63 ∧ serialOfChars [78, 0, 0, 0] = 78 := by
  intro s
  have hs : s.entryOfSerial 78 = none := List.find?_eq_none.mpr fun e _ => by
    rw [atTheTop_entry]
    by_cases h : 0 = e
    · subst h; rw [set_entry0]; decide +kernel
    · rw [others_free _ e h]; decide +kernel
  have hf : s.freeEntry = some 1 := by
    unfold State.freeEntry
    rw [List.finRange_succ, List.find?_cons_of_neg, List.finRange_succ, List.map_cons, List.find?_cons_of_pos]
    · rfl
    · rw [atTheTop_entry, others_free _ _ (by decide)]; rfl
    · rw [atTheTop_entry, set_entry0]; simp [tapAt]
  have hr : s.row 0 = [(62, 0)] :=
    row_one (by rw [atTheTop_entry, set_entry0]; rfl) fun e h => (atTheTop_entry mode e).trans (others_free _ e h)
  refine ⟨⟨fun b => ?_, rfl⟩, ?_, chosen_new hs hf, ?_, by decide⟩
  · cases b with
    | engine f =>
      show ((atTheTop mode).eng f).work = []
      rw [atTheTop, State.eng_setEng]
      split
      · rfl
      · exact running_engines_quiet f
    | _ => rfl
  · rw [show s = atTheTop mode from rfl, atTheTop, State.eng_setEng, if_pos rfl]
  · cases mode with
    | fresh => exact choosePos_fresh _ _ _ rfl
    | extend =>
      exact choosePos_above rfl hs hr

/-- A FRESH ends with a pending entry of its feeder, and a reused choice stands. -/
theorem test_meets_EnumerationSteps_pending :
    let pending : Entry := { tapAt 77 5 .silent with place := none, pending := some { feeder := 0, pos := 3 } }
    let p := assigning pending 78 none
    let r := assigning { tapAt 77 5 .lost with place := none } 78 (some (0, .reused))
    0 ∈ p.pendingFor 0 ∧ (r.entry 0).reusable = true ∧ r.entryOfSerial 78 = none ∧
      (r.eng 0).enum.map (·.choice) = some (some (0, .reused)) := by
  intro pending p r
  refine ⟨List.mem_filter.mpr ⟨List.mem_finRange _, by decide +kernel⟩, by decide +kernel, ?_, by decide +kernel⟩
  refine List.find?_eq_none.mpr fun e _ => ?_
  rw [show r = assigning { tapAt 77 5 .lost with place := none } 78 (some (0, .reused)) from rfl, assigning,
    State.entry_setEng, State.entry_setEntry, running_entry]
  split <;> decide +kernel

/-! ### Outages and the alarm log -/

/-- The correlator's state of the running part, and the tap of entry 0, changed. -/
def correlating (st : EntryState) (g : Correlator → Correlator) : State :=
  { running.setEntry 0 (tapAt 77 5 st) with corr := g running.corr }

theorem correlating_entry (st : EntryState) (g : Correlator → Correlator) (e : EntryId) :
    (correlating st g).entry e = (running.setEntry 0 (tapAt 77 5 st)).entry e := rfl

theorem correlating_entry0 (st : EntryState) (g : Correlator → Correlator) :
    (correlating st g).entry 0 = tapAt 77 5 st := (correlating_entry st g 0).trans (set_entry0 _)

theorem correlating_row (st : EntryState) (g : Correlator → Correlator) : (correlating st g).row 0 = [(5, 0)] :=
  row_one (by rw [correlating_entry0]; rfl) fun e h => (correlating_entry st g e).trans (others_free _ e h)

/-- A row of one tap is one run when the tap is LOST, and none otherwise. -/
theorem runs_one {s : State} (hr : s.row 0 = [(5, 0)]) (h : (s.entry 0).state = .lost) : s.runs 0 = [[(5, 0)]] := by
  unfold State.runs
  rw [hr]
  simp only [List.foldr, State.runStep, h, if_true, List.isEmpty_cons]
  rfl

theorem runs_none {s : State} {f : Feeder} (hr : s.row f = []) : s.runs f = [] := by
  unfold State.runs
  rw [hr]; rfl

theorem runs_back {s : State} (hr : s.row 0 = [(5, 0)]) (h : (s.entry 0).state ≠ .lost) : s.runs 0 = [] := by
  unfold State.runs
  rw [hr]
  simp only [List.foldr, State.runStep, if_neg h]
  rfl

/-- A feeder but feeder 0 has no taps. -/
theorem row_other {s : State} {n : Nat} (h0 : (s.entry 0).place = some { feeder := 0, pos := n })
    (h : ∀ e, 0 ≠ e → s.entry e = Entry.free) (f : Feeder) (hf : 0 ≠ f) : s.row f = [] := by
  have : ((List.finRange 576).filterMap fun e =>
      match (s.entry e).place with
      | some pl => if pl.feeder = f then some (pl.pos, e) else none
      | none => none) = [] := by
    rw [List.filterMap_eq_nil_iff]
    intro e _
    by_cases he : 0 = e
    · subst he; rw [h0]; simp [hf]
    · rw [h e he]; rfl
  exact (congrArg (List.foldr insertPos []) this).trans rfl

theorem correlating_quiet (st : EntryState) (g : Correlator → Correlator) (h : (g running.corr).work = []) :
    (correlating st g).quiet := by
  refine ⟨fun b => ?_, rfl⟩
  cases b with
  | engine f => exact running_engines_quiet f
  | correlator => exact h
  | _ => rfl

/-- The report at the head of the correlator's queue. -/
def corrReporting (r : CorrReport) (c : Correlator) : Correlator := { c with reports := [r] }

theorem test_meets_CorrelatorReports_marks (r : CorrReport) :
    (correlating .present (corrReporting r)).quiet ∧ (correlating .present (corrReporting r)).corr.reports = [r] ∧
      (correlating .present (corrReporting r)).runs 0 = [] ∧ (correlating .present (corrReporting r)).corr.outages = [] :=
  ⟨correlating_quiet _ _ rfl, rfl, runs_back (correlating_row _ _) (by rw [correlating_entry0]; decide), rfl⟩

/-- A lost report whose run is below the threshold, and one at it with a low-supply tap on the feeder. -/
theorem test_meets_CorrelatorReports_lost (low : Vector Nat 8) :
    let s := correlating .lost fun c => { corrReporting (.lost 0 0 5 990) c with lowSupply := low }
    s.quiet ∧ s.corr.reports = [.lost 0 0 5 990] ∧ (s.entry 0).state = .lost ∧
      (s.entry 0).place = some { feeder := 0, pos := 5 } ∧ s.corr.enumerating[(0 : Feeder)] = false ∧
      s.runAt 0 5 = some [(5, 0)] ∧ s.corr.outages = [] ∧ (low[(0 : Feeder)] = 0 → s.threshold 0 = 3) ∧
      (low[(0 : Feeder)] = 8 → s.threshold 0 = 1) := by
  intro s
  have he : s.entry 0 = tapAt 77 5 .lost := correlating_entry0 _ _
  have hl : s.corr.lowSupply = low := rfl
  have hn : s.cfg.nmin = 3 := rfl
  refine ⟨correlating_quiet _ _ rfl, rfl, by rw [he]; rfl, by rw [he]; rfl, rfl, ?_, rfl, ?_, ?_⟩
  · unfold State.runAt
    rw [runs_one (correlating_row _ _) (by rw [correlating_entry0]; rfl)]
    rfl
  · intro h; unfold State.threshold; rw [hl, h, hn]; rfl
  · intro h; unfold State.threshold; rw [hl, h]; rfl

/-- The last tap of outage 7 has returned, or is vacated. -/
theorem test_meets_CorrelatorReports_closed (st : EntryState) (h : st ≠ .lost) (r : CorrReport) :
    let o := Outage.mk 7 0 5 5 990 991
    let s := correlating st fun c => { corrReporting r c with outages := [o] }
    s.quiet ∧ s.corr.reports = [r] ∧ s.corr.outages = [o] ∧ o.covers 0 5 = true ∧ (∀ g, s.runs g = []) ∧
      State.partsOf { s with corr := { s.corr with reports := [] } } o 5 = ([], []) ∧ (s.entry 0).state ≠ .lost ∧ (s.entry 0).place = some { feeder := 0, pos := 5 } := by
  intro o s
  have he : s.entry 0 = tapAt 77 5 st := correlating_entry0 _ _
  have hr : s.row 0 = [(5, 0)] := correlating_row _ _
  refine ⟨correlating_quiet _ _ rfl, rfl, rfl, by decide, fun g => ?_, ?_, by rw [he]; exact h, by rw [he]; rfl⟩
  · by_cases hg : 0 = g
    · subst hg; exact runs_back hr (by rw [he]; exact h)
    · exact runs_none (row_other (by rw [he]; rfl) (fun e hn => (correlating_entry _ _ e).trans (others_free _ e hn)) g hg)
  · unfold State.partsOf
    rw [show State.row { s with corr := { s.corr with reports := [] } } o.feeder = [(5, 0)] from hr]
    rfl

/-- Three taps of feeder 0 at positions 1 to 3, in the states given. -/
def threeTaps (a b c : EntryState) (g : Correlator → Correlator) : State :=
  { ((running.setEntry 0 (tapAt 77 1 a)).setEntry 1 (tapAt 78 2 b)).setEntry 2 (tapAt 79 3 c) with corr := g running.corr }

theorem threeTaps_entry (a b c : EntryState) (g : Correlator → Correlator) (e : EntryId) :
    (threeTaps a b c g).entry e = if 2 = e then tapAt 79 3 c else if 1 = e then tapAt 78 2 b
      else if 0 = e then tapAt 77 1 a else Entry.free := by
  rw [show (threeTaps a b c g).entry e =
    (((running.setEntry 0 (tapAt 77 1 a)).setEntry 1 (tapAt 78 2 b)).setEntry 2 (tapAt 79 3 c)).entry e from rfl]
  rw [State.entry_setEntry, State.entry_setEntry, State.entry_setEntry, running_entry]

theorem threeTaps_quiet (a b c : EntryState) (g : Correlator → Correlator) (h : (g running.corr).work = []) :
    (threeTaps a b c g).quiet := by
  refine ⟨fun b => ?_, rfl⟩
  cases b with
  | engine f => exact running_engines_quiet f
  | correlator => exact h
  | _ => rfl

theorem finRange_three : List.finRange 576 = 0 :: 1 :: 2 :: (List.finRange 573).map fun k => k.succ.succ.succ := by
  rw [List.finRange_succ, List.finRange_succ, List.finRange_succ]
  simp only [List.map_cons, List.map_map]
  rfl

/-- The three taps make up the row of feeder 0, and no other feeder has any. -/
theorem threeTaps_row (a b c : EntryState) (g : Correlator → Correlator) (f : Feeder) :
    (threeTaps a b c g).row f = if f = 0 then [(1, 0), (2, 1), (3, 2)] else [] := by
  have hr : ∀ k : Fin 573, ((threeTaps a b c g).entry k.succ.succ.succ).place = none := by
    intro k
    rw [threeTaps_entry, if_neg, if_neg, if_neg]
    · rfl
    all_goals exact fun h => absurd (congrArg Fin.val h) (by simp)
  have h0 : ((threeTaps a b c g).entry 0).place = some { feeder := 0, pos := 1 } := by rw [threeTaps_entry]; rfl
  have h1 : ((threeTaps a b c g).entry 1).place = some { feeder := 0, pos := 2 } := by rw [threeTaps_entry]; rfl
  have h2 : ((threeTaps a b c g).entry 2).place = some { feeder := 0, pos := 3 } := by rw [threeTaps_entry]; rfl
  unfold State.row
  rw [finRange_three, List.filterMap_cons, List.filterMap_cons, List.filterMap_cons, h0, h1, h2,
    List.filterMap_eq_nil_iff.mpr fun e he => by
      obtain ⟨k, -, rfl⟩ := List.mem_map.mp he
      rw [hr k]]
  revert f; decide +kernel

theorem threeTaps_lost (g : Correlator → Correlator) :
    (threeTaps .lost .lost .lost g).runs 0 = [[(1, 0), (2, 1), (3, 2)]] := by
  unfold State.runs
  rw [threeTaps_row]
  simp only [if_true, List.foldr, State.runStep, threeTaps_entry]
  rfl

/-- A lost report whose run three outages at most cover: none, with room or without, one that grows, and two that merge. -/
theorem test_meets_OutageSections_lost (os : List Outage) (full : Bool) :
    let g (c : Correlator) : Correlator := { corrReporting (.lost 1 0 2 990) c with outages := os, listFull := full }
    let s := threeTaps .lost .lost .lost g
    let run : Row := [(1, 0), (2, 1), (3, 2)]
    let a := Outage.mk 7 0 1 1 870 900
    let b := Outage.mk 9 0 3 3 860 900
    s.quiet ∧ s.log.intake.length + 2 ≤ Config.intakeDepth ∧ s.corr.reports = [.lost 1 0 2 990] ∧ s.corr.outages = os ∧
      s.corr.listFull = full ∧ (s.entry 1).state = .lost ∧ (s.entry 1).place = some { feeder := 0, pos := 2 } ∧
      s.corr.enumerating[(0 : Feeder)] = false ∧ s.runAt 0 2 = some run ∧ s.threshold 0 = run.length ∧
      s.runs 0 = [run] ∧ (∀ f, f ≠ 0 → s.runs f = []) ∧ Row.firstPos run ≤ Row.lastPos run ∧
      (os = [] ∨ os = List.replicate 16 (Outage.mk 3 7 1 1 0 0) → s.corrWork.covering 0 run = []) ∧
      (os = [a] → s.corrWork.covering 0 run = [a]) ∧ (os = [a, b] → s.corrWork.covering 0 run = [a, b]) ∧ a.id < b.id ∧
      16 ≤ (List.replicate 16 (Outage.mk 3 7 1 1 0 0)).length := by
  intro g s run a b
  refine ⟨threeTaps_quiet _ _ _ _ rfl, ?_, rfl, rfl, rfl, ?_, ?_, rfl, ?_, rfl, threeTaps_lost _, ?_, by decide, ?_, ?_, ?_,
    by decide, by decide⟩
  · show 0 + 2 ≤ 8; decide
  · simp only [s, threeTaps_entry]; decide +kernel
  · simp only [s, threeTaps_entry]; decide +kernel
  · unfold State.runAt; rw [threeTaps_lost]; rfl
  · intro f hf
    exact runs_none (by rw [threeTaps_row, if_neg hf])
  · rintro (rfl | rfl) <;> rfl
  · rintro rfl; rfl
  · rintro rfl; rfl

/-- Nobody has a port of the three taps, so that no notice needs room. -/
theorem test_meets_OutageSections_room (a b c : EntryState) (g : Correlator → Correlator) (kind : NoticeKind) (minute : Nat) :
    (threeTaps a b c g).rowNotices [(1, 0), (2, 1), (3, 2)] kind minute = [] ∧
      (threeTaps a b c g).bill.queue.length + 0 ≤ Config.noticeDepth := by
  refine ⟨?_, Nat.zero_le _⟩
  simp only [State.rowNotices, State.tapNotices, State.tapPort, threeTaps_entry, List.flatMap_cons, List.flatMap_nil]
  rfl

/-- The tap at one end of outage 7, or between its others, has returned or is vacated. -/
theorem test_meets_OutageSections_returned (r : CorrReport) (a b c : EntryState) :
    let o := Outage.mk 7 0 1 3 900 950
    let s := threeTaps a b c fun c => { corrReporting r c with outages := [o], nextId := 8 }
    let u : State := { s with corr := { s.corr with reports := [] } }
    s.quiet ∧ s.corr.outages = [o] ∧ s.corr.reports = [r] ∧ o.covers 0 1 = true ∧ o.covers 0 2 = true ∧
      o.covers 0 3 = true ∧ u.partsOf o 1 = ([], [(2, 1), (3, 2)]) ∧ u.partsOf o 2 = ([(1, 0)], [(3, 2)]) ∧
      u.partsOf o 3 = ([(1, 0), (2, 1)], []) ∧ (s.entry 1).state = b ∧
      (s.entry 1).place = some { feeder := 0, pos := 2 } ∧ o.id < s.corr.nextId ∧ o.start ≤ 1000 := by
  intro o s u
  have hr : u.row 0 = [(1, 0), (2, 1), (3, 2)] := (threeTaps_row a b c (fun _ => u.corr) 0).trans (if_pos rfl)
  have hp : ∀ n, u.partsOf o n = (([(1, 0), (2, 1), (3, 2)] : Row).filter (fun x => decide (x.1 < n)),
      ([(1, 0), (2, 1), (3, 2)] : Row).filter fun x => decide (n < x.1)) := by
    intro n
    unfold State.partsOf
    rw [show u.row o.feeder = [(1, 0), (2, 1), (3, 2)] from hr]
    rfl
  refine ⟨threeTaps_quiet _ _ _ _ rfl, rfl, rfl, by decide, by decide, by decide, ?_, ?_, ?_, ?_, ?_, (show 7 < 8 by decide), by decide⟩
  · rw [hp]; decide
  · rw [hp]; decide
  · rw [hp]; decide
  · simp only [s, threeTaps_entry]; rfl
  · simp only [s, threeTaps_entry]; rfl

theorem threeTaps_one (g : Correlator → Correlator) : (threeTaps .lost .present .present g).runs 0 = [[(1, 0)]] := by
  unfold State.runs
  rw [threeTaps_row]
  simp only [if_true, List.foldr, State.runStep, threeTaps_entry]
  rfl

/-- The parts of an outage of feeder 0 about a position, with no vacate report waiting. -/
theorem threeTaps_parts (a b c : EntryState) (g : Correlator → Correlator) (r : CorrReport) (os : List Outage) (o : Outage)
    (hf : o.feeder = 0) (n : Nat) :
    let s := threeTaps a b c fun x => { corrReporting r (g x) with outages := os }
    State.partsOf { s with corr := { s.corr with reports := [] } } o n =
      ((([(1, 0), (2, 1), (3, 2)] : Row).filter fun x => o.covers 0 x.1).filter (fun x => decide (x.1 < n)),
        (([(1, 0), (2, 1), (3, 2)] : Row).filter fun x => o.covers 0 x.1).filter fun x => decide (n < x.1)) := by
  intro s
  unfold State.partsOf
  rw [hf, show State.row { s with corr := { s.corr with reports := [] } } 0 = [(1, 0), (2, 1), (3, 2)] from
    (threeTaps_row a b c (fun _ => { s.corr with reports := [] }) 0).trans (if_pos rfl)]
  rfl

/-- The middle tap of a covered run returns with 16 outages open. -/
theorem test_meets_OutageSections_fullSplit (full : Bool) :
    let o := Outage.mk 7 0 1 3 900 950
    let after := List.replicate 15 (Outage.mk 20 7 1 1 0 0)
    let s := threeTaps .lost .present .lost fun x =>
      { corrReporting (.back 1 0 2 990) { x with listFull := full } with outages := o :: after }
    s.quiet ∧ s.corr.outages = [] ++ o :: after ∧ s.corr.outages.length = 16 ∧ s.corr.reports = [.back 1 0 2 990] ∧
      (s.entry 1).state ≠ .lost ∧ (s.entry 1).place = some { feeder := 0, pos := 2 } ∧ o.covers 0 2 = true ∧
      (∀ x ∈ ([] : List Outage) ++ after, x.id ≠ o.id) ∧ s.corr.listFull = full ∧ s.run.part ≠ .idle ∧
      State.partsOf { s with corr := { s.corr with reports := [] } } o 2 = ([(1, 0)], [(3, 2)]) := by
  intro o after s
  refine ⟨threeTaps_quiet _ _ _ _ rfl, rfl, rfl, rfl, ?_, ?_, by decide, by decide, rfl, nofun, ?_⟩
  · simp only [s, threeTaps_entry]; decide +kernel
  · simp only [s, threeTaps_entry]; rfl
  · exact (threeTaps_parts .lost .present .lost (fun x => { x with listFull := full }) _ (o :: after) o rfl 2).trans
      (by decide +kernel)

/-- The last tap of outage 7 returns, and a run that waits for a record is at its threshold. -/
theorem test_meets_OutageSections_walk :
    let o := Outage.mk 7 0 3 3 900 950
    let low (x : Correlator) : Correlator := { x with lowSupply := x.lowSupply.set 0 1, nextId := 8, listFull := true }
    let s := threeTaps .lost .present .present fun x => { corrReporting (.back 2 0 3 990) (low x) with outages := [o] }
    s.quiet ∧ s.corr.outages = [] ++ o :: [] ∧ s.corr.reports = [.back 2 0 3 990] ∧ (s.entry 2).state ≠ .lost ∧
      (s.entry 2).place = some { feeder := 0, pos := 3 } ∧ o.covers 0 3 = true ∧ o.start ≤ 990 ∧
      State.partsOf { s with corr := { s.corr with reports := [] } } o 3 = ([], []) ∧ s.runs 0 = [[(1, 0)]] ∧
      (∀ f, f ≠ 0 → s.runs f = []) ∧ s.corr.enumerating[(0 : Feeder)] = false ∧ s.threshold 0 = 1 ∧
      Row.firstPos [(1, 0)] ≤ Row.lastPos [(1, 0)] ∧ s.corr.outages.length ≤ 16 ∧
      s.rowNotices [(1, 0)] (.outageBegin 8) 1000 = [] ∧ s.tapNotices 2 (.outageEnd 7) 990 = [] := by
  intro o low s
  refine ⟨threeTaps_quiet _ _ _ _ rfl, rfl, rfl, ?_, ?_, by decide, by decide, ?_, threeTaps_one _, ?_, rfl, rfl, by decide,
    by decide +kernel, ?_, ?_⟩
  · simp only [s, threeTaps_entry]; decide +kernel
  · simp only [s, threeTaps_entry]; rfl
  · exact (threeTaps_parts .lost .present .present low _ [o] o rfl 3).trans (by decide +kernel)
  · exact fun f hf => runs_none (by rw [threeTaps_row, if_neg hf])
  · simp only [s, State.rowNotices, State.tapNotices, State.tapPort, threeTaps_entry, List.flatMap_cons, List.flatMap_nil]; rfl
  · simp only [s, State.tapNotices, State.tapPort, threeTaps_entry]; rfl

/-- A run of a feeder whose first supply goes low, or whose enumeration ends: at the threshold and below it, covered or not. -/
theorem test_meets_OutageSections_examined (b c : EntryState) (r : CorrReport) (os : List Outage) :
    let s := threeTaps .lost b c fun x => { corrReporting r x with outages := os }
    let o := Outage.mk 7 0 1 1 870 900
    s.quiet ∧ s.corr.reports = [r] ∧ s.corr.outages = os ∧ s.corr.lowSupply[(0 : Feeder)] = 0 ∧
      s.corr.enumerating[(0 : Feeder)] = false ∧ s.threshold 0 = 3 ∧ s.run.part ≠ .idle ∧
      (b = .lost → c = .lost → s.runs 0 = [[(1, 0), (2, 1), (3, 2)]]) ∧
      (b = .present → c = .present → s.runs 0 = [[(1, 0)]]) ∧
      (os = [o] → s.corrWork.covering 0 [(1, 0), (2, 1), (3, 2)] = [o]) := by
  intro s o
  refine ⟨threeTaps_quiet _ _ _ _ rfl, rfl, rfl, rfl, rfl, rfl, nofun, ?_, ?_, ?_⟩
  · rintro rfl rfl; exact threeTaps_lost _
  · rintro rfl rfl; exact threeTaps_one _
  · rintro rfl; rfl

/-- The alarm log of the running part changed. -/
def logging (g : AlarmLog → AlarmLog) : State := { running with log := g running.log }

theorem test_meets_LogEntriesAndConsumer :
    let a := AlarmEntry.mk .resumed .info .none 0 0
    let full (l : AlarmLog) : AlarmLog := { l with intake := [a], producer := 3, consumer := 65523, dropped := 2 }
    let w : State := { running with corr := { running.corr with work := [.alarm .outageOpen .critical (.outage 1) 0 (some 9)] } }
    let b := withBurst (logging fun l => { l with writing := some a }) .alarm .logEntry 0x6000 [1, 2, 3, 4]
    w.run.part ≠ .idle ∧ w.log.intake.length < Config.intakeDepth ∧
      (logging fun l => { l with intake := [a] }).log.loaded = true ∧ (logging fun l => { l with intake := [a] }).log.writing = none ∧
      (logging fun l => { l with intake := [a] }).log.unconsumed < running.map.s ∧
      (logging full).log.unconsumed = running.map.s ∧
      (logging fun l => { l with dropped := 2 }).log.unconsumed < running.map.s ∧
      b.path.port = .burst .alarm .logEntry 0x6000 [1, 2, 3, 4] false ∧ b.log.writing = some a := by decide +kernel

theorem test_meets_LogEntriesAndConsumer_quiet (a : AlarmEntry) (n : Nat) (ws : List Word) :
    (withBurst (logging fun l => { l with writing := some a }) .alarm .logEntry n ws).quiet := by
  refine ⟨fun b => ?_, rfl⟩
  cases b with
  | engine f => exact running_engines_quiet f
  | _ => rfl

/-- The log presents the burst of an entry, and that of its anchor. -/
theorem test_meets_LogEntriesAndConsumer_bursts :
    let a := AlarmEntry.mk .resumed .info .none 1000 7
    let e := (logging fun l => { l with writing := some a, producer := 65535, slot := 15 }).ask .alarm .logEntry
    let n := (logging fun l => { l with producer := 1, slot := 1 }).ask .alarm .logAnchor
    e.path.port = .free ∧ e.path.cycle = none ∧ e.nextRequester = some .alarm ∧ e.readTurn .alarm = none ∧
      e.path.line .alarm = [.logEntry] ∧ e.log.writing = some a ∧ e.log.producer < 65536 ∧ n.path.port = .free ∧
      n.path.cycle = none ∧ n.nextRequester = some .alarm ∧ n.readTurn .alarm = none ∧ n.path.line .alarm = [.logAnchor] := by
  decide +kernel

/-- The lines of the log: an entry written, a consumer value, a minute event and a time set, with a critical entry in the log. -/
theorem test_meets_LinesAndContact :
    let l := logging fun l => { l with producer := 1, critical := [(0, 980)] }
    let m := lastTick l
    l.log.critical = [(0, 980)] ∧ 980 + l.cfg.escalation < l.time.minute ∧ l.run.part ≠ .idle ∧ l.log.loaded = true ∧
      m.time.clockSet = true ∧ m.time.half = 119 ∧ m.time.minute ≠ Config.minuteTop ∧ l.run.part ≠ .starting ∧
      l.time.minute ≤ (1001 : Word).toNat ∧ (arriving l .timeSet 1001).first .timeSet 1001 ∧
      (arriving l .logConsumer 1).first .logConsumer 1 :=
  ⟨rfl, by decide +kernel, by decide, rfl, rfl, rfl, by decide, by decide, by decide, ⟨rfl, rfl⟩, ⟨rfl, rfl⟩⟩

theorem test_meets_LogConsumers (p : PartState) (w : Word) :
    (arriving { running with run := { running.run with part := p } } .logConsumer w).first .logConsumer w ∧
      State.reset.log.loaded = false ∧ running.log.loaded = true ∧
      (bits 4 0 16 + 65536 - (logging fun l => { l with producer := 4 }).log.consumer) % 65536 ≤
        (logging fun l => { l with producer := 4 }).log.unconsumed ∧
      (logging fun l => { l with producer := 4 }).log.unconsumed <
        (bits 5 0 16 + 65536 - (logging fun l => { l with producer := 4 }).log.consumer) % 65536 :=
  ⟨⟨rfl, rfl⟩, by decide +kernel⟩

/-! ### Telemetry -/

theorem test_meets_ScanWords (p : PartState) (w : Word) :
    (arriving { running with run := { running.run with part := p } } .scan w).first .scan w ∧
      actionCode 0 = 0 ∧ actionCode 1 = 1 ∧ actionCode 3 = 3 ∧
      scanModeGood (actionCode 4) (intervalField 4) = false ∧ scanModeGood (actionCode 2) (intervalField 2) = false ∧
      intervalField 0x00010002 = 1 ∧ intervalField 0x0E100002 = 3600 ∧ actionCode 0x00010002 = 2 ∧
      scanModeGood (actionCode 0x0E110002) (intervalField 0x0E110002) = false :=
  ⟨⟨rfl, rfl⟩, by decide +kernel⟩

def supplyEntry : ScanEntry :=
  { probe := 0, kind := .supply, settle := 4, lset := 100, lclr := 120, hclr := 380, hset := 400, n := 2, link := none }

/-- The scanner of the running part, its scan list one supply entry, changed. -/
def scanning (g : Scanner → Scanner) : State :=
  { running with cfg := { exampleSettings with scanList := [supplyEntry] }, scan := g running.scan }

theorem scanning_quiet (g : Scanner → Scanner) (h : (g running.scan).work = []) : (scanning g).quiet := by
  refine ⟨fun b => ?_, rfl⟩
  cases b with
  | engine f => exact running_engines_quiet f
  | scanner => exact h
  | _ => rfl

theorem test_meets_Sequences (code : BitVec 12) :
    let t (b : Bool) : State := { scanning fun x => { x with mode := .periodic, scanning := b } with
      time := { running.time with scan := { Timer.start 2 with due := 1 } } }
    let x : Sample := { i := 0, entry := supplyEntry, slot := none, converting := true, old := false }
    let r : SwitchReport := { outgoing := Copy.empty, carried := [] }
    let l : State := { running with lineUp := { running.lineUp with
      outgoing := some r, work := [.switchReportOut, .alarm .epochSwitched .info .none 0 none, .switchDone] } }
    (∀ b, 0 < (t b).time.scan.due ∧ (t b).scan.mode = .periodic ∧ (t b).scan.scanning = b) ∧
      (scanning fun x => { x with startDue := true }).run.part = .running ∧
      (scanning fun x => { x with startDue := true }).scan.scanning = false ∧
      (scanning fun x => { x with startDue := true }).scan.work = [] ∧
      (scanning fun x => { x with startDue := true }).cfg.scanList = [supplyEntry] ∧ supplyEntry.kind ≠ .carrier ∧
      (scanning fun y => { y with sample := some x }).scan.sample = some x ∧ x.converting = true ∧
      (scanning fun y => { y with sample := some x }).scan.cut = false ∧ (scanning fun y => { y with sample := some x }).quiet ∧
      exec (.conversionEnd code) (scanning fun y => { y with sample := some x }) =
        .next (doConversionEnd code (scanning fun y => { y with sample := some x })) ∧
      l.lineUp.outgoing = some r :=
  ⟨fun b => ⟨Nat.one_pos, rfl, rfl⟩, rfl, rfl, rfl, rfl, by decide, rfl, rfl, rfl, scanning_quiet _ rfl, rfl, rfl⟩

/-- A probe entry about to become LOW, HIGH or NORMAL again, its link feeder 3, its sample converting. -/
def judging (st : EvalState) (lo hi : Int) : State :=
  let en := { supplyEntry with lset := lo, lclr := lo, hclr := hi, hset := hi, link := some 3 }
  scanning fun y => { y with
    sample := some { i := 0, entry := en, slot := none, converting := true, old := false }
    entries := y.entries.set 0 { TeleEntry.cleared with eval := { Eval.normal with state := st, low := 1, high := 1, clear := 1 } } }

theorem test_meets_Sequences_alarms :
    let judged (st : EvalState) (lo hi : Int) : Option EvalState := match exec (.conversionEnd 0) (judging st lo hi) with
      | .next t => some t.scan.entries[(0 : ScanId)].eval.state
      | _ => none
    (judging .normal 100 400).run.part ≠ .idle ∧ (judging .normal 100 400).log.intake.length < Config.intakeDepth ∧
      (judging .normal 100 400).corr.reports.length < Config.corrReportDepth ∧
      (judging .normal 100 400).scan.entries[(0 : ScanId)].eval.state = .normal ∧
      judged .normal 100 400 = some .low ∧ judged .normal (-400) (-100) = some .high ∧ judged .low (-100) 100 = some .normal ∧
      judged .high (-100) 100 = some .normal ∧ judged .normal (-100) 100 = some .normal := by decide +kernel

/-- A CARRIER sample on slot 71, of the copy in force or of the outgoing one. -/
def carrierSample (old : Bool) : Sample :=
  { i := 2, entry := carrierEntry, slot := some (71, eventSlot), converting := true, old := old }

/-- The switch report waits, event 9 carried or not, the sample given in progress at entry `next` of the scan list. -/
def reported (carried : List Nat) (x : Option Sample) (mode : ScanMode) (list : List ScanEntry) : State :=
  let s := withEvent running .running
  { s with
    cfg := { exampleSettings with scanList := list }
    scan := { (s.scan.setSlot 71 { TeleSlot.cleared with loss := 4 }) with sample := x, mode := mode, scanning := x.isSome }
    lineUp := { s.lineUp with
      outgoing := some { outgoing := eventCopy .running, carried := carried }
      work := [.switchReportOut, .alarm .epochSwitched .info .none 7 none, .switchDone] } }

theorem test_meets_SwitchReportTaken :
    let s := reported [9] none .continuous [supplyEntry]
    let n := reported [] (some (carrierSample true)) .once [carrierEntry]
    s.lineUp.work = [.switchReportOut, .alarm .epochSwitched .info .none 7 none, .switchDone] ∧
      s.lineUp.outgoing = some { outgoing := eventCopy .running, carried := [9] } ∧
      s.active.slots[(71 : SlotId)].isEvent = true ∧ s.active.slots[(71 : SlotId)].event ∈ [9] ∧
      (eventCopy .running).slotOfEvent 9 = some 71 ∧ s.active.slots[(70 : SlotId)].isEvent = false ∧
      (eventCopy .running).slots[(71 : SlotId)].isEvent = true ∧ 9 ∉ ([] : List Nat) ∧ s.scan.sample = none ∧
      s.scan.mode = .continuous ∧ s.scan.scanning = false ∧ n.scan.sample = some (carrierSample true) ∧
      (carrierSample true).slot = some (71, eventSlot) ∧ (carrierSample true).old = true ∧ n.scan.cut = false ∧
      n.cfg.scanList.drop n.scan.next = [carrierEntry] ∧ carrierEntry.kind = .carrier ∧ supplyEntry.kind ≠ .carrier ∧
      n.active.slots[(71 : SlotId)].isLit = true ∧
      (∀ j : SlotId, n.active.slots[j].isLit = true → (71 : SlotId) ≤ j) ∧
      (reported [] (some (carrierSample true)) .once []).cfg.scanList.drop 0 = [] ∧ s.run.part ≠ .idle ∧
      s.log.intake.length < Config.intakeDepth := by decide +kernel

/-- A slot's carrier in each state, its sample converting. -/
def sampling (st : EvalState) (old : Bool) : State :=
  let s := withEvent (scanning fun x => { x with sample := some (carrierSample old) }) .running
  { s with scan := s.scan.setSlot 71 { TeleSlot.cleared with eval := { Eval.normal with state := st, low := 1, high := 1, clear := 1 } } }

theorem sampling_quiet (st : EvalState) (old : Bool) : (sampling st old).quiet := by
  refine ⟨fun b => ?_, rfl⟩
  cases b with
  | engine f => exact running_engines_quiet f
  | _ => rfl

/-- Levels far below, far above and at the expected one, on a probe that converts a code to itself. -/
theorem test_meets_CarrierSamples :
    (sampling .normal false).scan.sample = some (carrierSample false) ∧ (carrierSample false).converting = true ∧
      (carrierSample false).slot = some (71, eventSlot) ∧
      (({ Eval.normal with low := 1 }).judge carrierEntry (400 - 480)).state = .low ∧
      (({ Eval.normal with high := 1 }).judge carrierEntry (600 - 480)).state = .high ∧
      (({ Eval.normal with state := .low, clear := 1 }).judge carrierEntry (480 - 480)).state = .normal ∧
      (Eval.normal.judge carrierEntry (480 - 480)).state = .normal ∧ (sampling .normal true).run.part ≠ .idle ∧
      (sampling .normal true).log.intake.length < Config.intakeDepth ∧
      (sampling .normal true).scan.slots[(71 : SlotId)].eval.state = .normal := by decide +kernel

/-- A sample below L-set, one between the thresholds, and ones past the clear thresholds. -/
theorem test_meets_Conversions :
    let x := Eval.normal
    (99 : Int) < supplyEntry.lset ∧ supplyEntry.n ≤ { x with low := 1 }.low + 1 ∧ supplyEntry.lset ≤ 100 ∧
      (400 : Int) ≤ supplyEntry.hset ∧ ({ x with low := 1 }.judge supplyEntry 99).state = .low ∧
      ({ x with state := .low, clear := 1 }.judge supplyEntry 120).state = .normal ∧
      ({ x with state := .high, clear := 1 }.judge supplyEntry 380).state = .normal := by decide

/-- Samples at each row of the table, counts below N and at it, and sequences of N and of fewer samples. -/
theorem test_meets_Conversions_table :
    let x := Eval.normal
    let low := { x with state := .low }
    let high := { x with state := .high }
    supplyEntry.n = 2 ∧ x.state = .normal ∧ (99 : Int) < supplyEntry.lset ∧ x.low + 1 < supplyEntry.n ∧
      supplyEntry.n ≤ { x with low := 1 }.low + 1 ∧ supplyEntry.lset ≤ 401 ∧ supplyEntry.hset < 401 ∧
      x.high + 1 < supplyEntry.n ∧ supplyEntry.n ≤ { x with high := 1 }.high + 1 ∧ low.state = .low ∧
      supplyEntry.lclr ≤ 120 ∧ (119 : Int) < supplyEntry.lclr ∧ low.clear + 1 < supplyEntry.n ∧
      supplyEntry.n ≤ { low with clear := 1 }.clear + 1 ∧ high.state = .high ∧ (380 : Int) ≤ supplyEntry.hclr ∧
      supplyEntry.hclr < 381 ∧ ([401, 402] : List Int).length = supplyEntry.n ∧ supplyEntry.lset ≤ supplyEntry.hset ∧
      (∀ v ∈ ([401, 402] : List Int), supplyEntry.hset < v) ∧ (∀ v ∈ ([99, 98] : List Int), v < supplyEntry.lset) ∧
      ([401] : List Int).length < supplyEntry.n := by decide

/-! ### Billing -/

theorem test_meets_CloseOuts (p : PartState) (w : Word) :
    (arriving { running with run := { running.run with part := p } } .closeOut w).first .closeOut w ∧
      running.bill.boundary.kind = .none ∧ running.bill.periodStart < running.time.minute ∧
      { running with bill := { running.bill with periodStart := 1000 } }.time.minute ≤ 1000 ∧
      { running.bill with boundary := { kind := .close, minute := 990, number := 6 } }.boundary.kind ≠ .none :=
  ⟨⟨rfl, rfl⟩, by decide +kernel⟩

/-- The Billing Unit of the running part changed. -/
def billing (g : Billing → Billing) : State := { running with bill := g running.bill }

theorem test_meets_CloseOutsAndRegistrations (q : QEntry) (ws : List Word) (n : Nat) :
    let s := withBurst (billing fun b => { b with closing := some q }) .billing .closeAnchor n ws
    s.quiet ∧ s.bill.closing = some q ∧ s.path.port = .burst .billing .closeAnchor n ws false ∧
      s.bill.queue.length < Config.noticeDepth ∧ Config.noticeDepth ≤ (List.replicate 16 q).length := by
  refine ⟨⟨fun b => ?_, rfl⟩, rfl, rfl, Nat.zero_lt_succ _, by rw [List.length_replicate]; decide⟩
  cases b with
  | engine f => exact running_engines_quiet f
  | _ => rfl

theorem test_meets_Registrations :
    (billing fun b => { b with queue := [.closeReg 1000 6] }).entryReady = true ∧ running.map.ns ≠ 1 ∧
      (billing fun b => { b with queue := [.epochReg 1000 1] }).entryReady = true := by decide +kernel

/-- A registration with one subscriber, whose record is enrolled or not, of the period given; an epoch is HELD or not. -/
def registering (q : QEntry) (enrolled : Bool) (period : Nat) (epoch : EpochState) : State :=
  let s := holding (holding (billing fun b => { b with
      queue := [q], boundary := { kind := .close, minute := 990, number := 6 } })
    0x2000 { BillRec.ofWords [] with period := period }.words) 0x1000 (recordWords { servedRecord with enrolled := enrolled })
  let s1 := { s with path := { s.path with map := some { exampleMap with ns := 1 } }, lineUp := { s.lineUp with epoch := epoch } }
  reading s1 .billing (s1.stepReads 0)

theorem test_meets_Registrations_single :
    let s := registering (.closeReg 1000 6) true 5 .none
    let b := { s.bill with queue := [], period := 6, periodStart := 1000, prevLen := 1000, cursor := 0, sweeping := true, owes := true }
    let u := registering (.closeReg 1000 6) false 5 .held
    let e := registering (.epochReg 1000 1) true 5 .none
    s.entryReady = true ∧ s.map.ns = 1 ∧ s.bill.queue = .closeReg 1000 6 :: [] ∧ s.hasRead .billing (s.stepReads 0) = true ∧
      ((s.view .billing).subRec 0).enrolled = true ∧ b.behind ((s.view .billing).billRec 0) ≠ .current ∧
      u.entryReady = true ∧ u.hasRead .billing (u.stepReads 0) = true ∧ ((u.view .billing).subRec 0).enrolled = false ∧
      u.lineUp.epoch = .held ∧ s.lineUp.epoch ≠ .held ∧ s.bill.boundary.kind = .close ∧ s.run.part ≠ .idle ∧
      s.log.intake.length < Config.intakeDepth ∧ e.entryReady = true ∧ e.bill.queue = .epochReg 1000 1 :: [] ∧
      e.hasRead .billing (e.stepReads 0) = true := by decide +kernel

/-- The sweep stands at Ns, over a CLOSE boundary. -/
theorem test_meets_SweepEnds :
    let s := billing fun b => { b with
      sweeping := true, cursor := 3, boundary := { kind := .close, minute := 990, number := 5 } }
    s.sweepReady = true ∧ s.map.ns ≤ s.bill.cursor ∧ s.bill.boundary.kind = .close ∧ s.run.part ≠ .idle ∧
      s.log.intake.length < Config.intakeDepth ∧ s.lineUp.epoch ≠ .held ∧
      { s.lineUp with epoch := .held }.epoch = .held ∧ BoundaryKind.epoch ≠ .close := by decide +kernel

/-- A billing record of the period and epoch in force. -/
def billed (st : BillState) : BillRec :=
  { BillRec.ofWords [] with state := st, period := 5, since := 900, tiers := 1 }

/-- A notice heads the Notice Queue; record 0's billing record is in the state given, and the last read of the step holds the
port. -/
def noticing (st : BillState) (kind : NoticeKind) : State :=
  let s := holding (holding (billing fun b => { b with queue := [.notice 0 kind 1000] }) 0x2000 (billed st).words) 0x1000
    (recordWords { servedRecord with slots := #v[{ event := 9, price := 250, state := .opened, charged := true, overlap := 0 },
      Purchase.free, Purchase.free, Purchase.free] })
  reading s .billing (s.entryReads (.notice 0 kind 1000))

/-- In each state the record of the statement is the one written here, brought to minute 1,000. -/
theorem test_meets_ServiceNotices :
    let rec0 (st : BillState) (kind : NoticeKind) : BillRec := ((noticing st kind).view .billing).billRec 0
    let reads (st : BillState) (kind : NoticeKind) : Bool :=
      (noticing st kind).hasRead .billing ((noticing st kind).entryReads (.notice 0 kind 1000))
    (noticing .off .awaitService).entryReady = true ∧
      (noticing .off .awaitService).bill.queue = .notice 0 .awaitService 1000 :: [] ∧
      rec0 .off .awaitService = billed .off ∧ running.bill.behind (billed .off) = .current ∧
      rec0 .awaiting .startService = billed .awaiting ∧ rec0 .service (.outageBegin 7) = billed .service ∧
      rec0 .outage (.outageBegin 7) = billed .outage ∧ (billed .service).since ≤ 1000 ∧
      reads .off .awaitService = true ∧ reads .awaiting .startService = true ∧ reads .service (.outageBegin 7) = true := by
  decide +kernel

theorem test_meets_NoticesHandled :
    let settle (event : Nat) := noticing .service (.ppvSettle event false)
    (((settle 9).view .billing).subRec 0).slotOf 9 = some 0 ∧ (((settle 8).view .billing).subRec 0).slotOf 8 = none ∧
      (settle 9).entryReady = true ∧
      (settle 9).entryReads (.notice 0 (.ppvSettle 9 false) 1000) = [(0x2000, 16), (0x1008, 8)] ∧
      (settle 9).hasRead .billing ((settle 9).entryReads (.notice 0 (.ppvSettle 9 false) 1000)) = true ∧
      (noticing .outage .move).entryReady = true ∧
      (noticing .outage .move).entryReads (.notice 0 .move 1000) = [(0x2000, 16), (0x1008, 8)] ∧
      (noticing .outage .move).hasRead .billing [(0x2000, 16), (0x1008, 8)] = true ∧
      ((billed .service).accrue 1000 (Vector.replicate 16 0) 1000).state ≠ .outage := by decide +kernel

/-- An outage from minute 1,990 to 2,010 and event 9 from 2,000 to 2,100, its window in the copy, retained, or in no slot. -/
theorem test_meets_NoticesHandled_settled :
    let s := withEvent running .running
    let kept : State := { running with scan := { running.scan with
      retained := [{ event := 8, loss := 1, start := 1, stop := 2 }, { event := 9, loss := 4, start := 2000, stop := 2100 }] } }
    let settle := noticing .outage (.ppvSettle 9 false)
    let behind : State := { settle with bill := { settle.bill with epoch := 1 } }
    let p : Purchase := { event := 9, price := 250, state := .opened, charged := true, overlap := 0 }
    let r : BillRec := { billed .outage with began := 1990, since := 2010 }
    let x : SubRec := { servedRecord with slots := #v[p, p, Purchase.free, Purchase.free] }
    settle.entryReady = true ∧ settle.bill.queue = .notice 0 (.ppvSettle 9 false) 1000 :: [] ∧
      settle.hasRead .billing (settle.entryReads (.notice 0 (.ppvSettle 9 false) 1000)) = true ∧
      ((settle.view .billing).billRec 0).state = .outage ∧ settle.bill.behind ((settle.view .billing).billRec 0) = .current ∧
      behind.bill.behind ((behind.view .billing).billRec 0) = .oneEpoch ∧ behind.entryReady = true ∧
      behind.hasRead .billing (behind.entryReads (.notice 0 (.ppvSettle 9 false) 1000)) = true ∧
      s.active.slots[(71 : SlotId)].isEvent = true ∧ s.active.slots[(71 : SlotId)].event = 9 ∧ s.scan.retained = [] ∧
      (∀ j : SlotId, j < 71 → ¬ (s.active.slots[j].isEvent = true ∧ s.active.slots[j].event = 9)) ∧
      (∀ j : SlotId, ¬ (running.active.slots[j].isEvent = true ∧ running.active.slots[j].event = 9)) ∧
      kept.scan.retained.map (·.event) = [8, 9] ∧ s.lossAnswer 9 = (0, some (2000, 2100)) ∧
      kept.lossAnswer 9 = (4, some (2000, 2100)) ∧ running.lossAnswer 9 = (0, none) ∧
      overlapOf 1990 2010 (some (2000, 2100)) = 10 ∧ s.overlapsOf x r = [(9, 10), (9, 10)] ∧
      refundDue false 10 (0, some (2000, 2100)) = false ∧ refundDue false 50 (0, some (2000, 2100)) = true ∧
      refundDue false 0 (50, some (2000, 2100)) = true ∧ refundDue true 0 (0, some (2000, 2100)) = true ∧
      refundDue false 0 (0, none) = true := by decide +kernel

/-- A since minute that is no later than the plant minute, or later, for ENROL INIT. -/
theorem test_meets_NoticesHandled_enrolled :
    (billed .off).since ≤ 1000 ∧ 800 < (billed .off).since ∧
      (Billing.reset.enrolInit 1000 1000 1 (billed .off)).since = 1000 ∧
      (Billing.reset.enrolInit 800 700 1 (billed .off)).since = 700 ∧
      (Billing.reset.enrolInit 1000 800 1 (billed .off)).since = 900 := by decide

/-- The sweep stands at record 0; record 0 is not enrolled, or is current, or is behind by one period. -/
def sweeping (enrolled : Bool) (period : Nat) : State :=
  let s := holding (holding (billing fun b => { b with sweeping := true }) 0x2000 { billed .service with period := period }.words)
    0x1000 (recordWords { servedRecord with enrolled := enrolled })
  reading s .billing s.sweepReads

theorem test_meets_SweepsAndAnswers :
    let v (en : Bool) (n : Nat) : State := (sweeping en n).view .billing
    (∀ en, (sweeping en 5).sweepReady = true) ∧
      (∀ en, (sweeping en 5).hasRead .billing (sweeping en 5).sweepReads = true) ∧
      (sweeping true 5).bill.cursor + 1 < (sweeping true 5).map.ns ∧ ((v false 5).subRec 0).enrolled = false ∧
      ((v true 5).subRec 0).enrolled = true ∧ (sweeping true 5).bill.behind ((v true 5).billRec 0) = .current ∧
      (sweeping true 4).bill.behind ((v true 4).billRec 0) = .onePeriod ∧ (sweeping true 4).sweepReady = true ∧
      (sweeping true 4).hasRead .billing (sweeping true 4).sweepReads = true ∧
      (billing fun b => { b with answer := true, work := [.awaitAnswer, .noticeDone] }).bill.answer = true := by
  decide +kernel

/-- A record at each row of the table. -/
theorem test_meets_SweepsAndAnswers_behind :
    let b := { Billing.reset with period := 5, epoch := 256 }
    let r (p e : Nat) : BillRec := { billed .service with period := p, epoch := e }
    b.behind (r 5 0) = .current ∧ (4 + 1) % 65536 = b.period ∧ b.behind (r 4 0) = .onePeriod ∧ (255 + 1) % 256 = b.epoch % 256 ∧
      b.behind (r 5 255) = .oneEpoch ∧ b.behind (r 4 255) = .stale ∧ b.behind (r 3 0) = .stale := by decide

/-- A sweep with its step owed, begun or presented before the entry that waits, and in HALTING. -/
theorem test_meets_SweepsAndAnswers_ready :
    let entry (s : State) : State := { s with bill := { s.bill with queue := [.notice 0 .startService 1000] } }
    let halting (s : State) : State := { s with run := { s.run with part := .halting } }
    let due := billing fun b => { b with sweeping := true }
    let kept := entry (due.keepTurn .billing)
    due.run.part = .running ∧ due.sweepReady = true ∧ (entry due).sweepReady = false ∧ (entry (sweeping true 5)).sweepReady = true ∧
      kept.path.turns[Requester.billing.idx] = some (0, kept.readFlags kept.bill.cursor) ∧ kept.sweepReady = true ∧
      (entry (billing fun b => { b with sweeping := true, owes := true })).sweepReady = true ∧
      (halting (sweeping true 5)).begun .billing [(sweeping true 5).readFlags 0] = true ∧
      (halting (sweeping true 5)).sweepReady = true ∧ (halting due).sweepReady = false ∧
      { due with run := { due.run with part := .halted } }.sweepReady = false := by decide +kernel

/-- A report and a sweep step whose first read holds the port, and ones whose read has only been presented. -/
theorem test_meets_RunningAndHalted_begun :
    let halting (s : State) : State := { s with run := { s.run with part := .halting } }
    let x : InFlight := InFlight.mk 0 1 .connect 0 0 true false 3
    let report := halting (reportRead (.outcome .setPort 0 0 .failed) x)
    let waits := halting (reporting (.outcome .setPort 0 0 .failed) x)
    let sweep := halting (sweeping true 5)
    let idle := { sweep with path := MemPath.reset }
    (halting running).reportBegun = false ∧ (halting running).sweepBegun = false ∧ report.run.part = .halting ∧
      report.reportBegun = true ∧ waits.reportBegun = false ∧ sweep.sweepBegun = true ∧ idle.sweepBegun = false := by
  decide +kernel

/-- A record whose since minute is no later than the minute, outages on both sides of Tc, and accounts that saturate. -/
theorem test_meets_AccrualAndResolution :
    (billed .service).since ≤ 1000 ∧ (60 : Nat) ≤ { billed .outage with began := 840 }.since - 840 ∧
      { billed .outage with began := 841 }.since - 841 < 60 ∧
      ({ billed .service with a := 2 ^ 48 - 1 }.accrue 1000 (Vector.replicate 16 1) 1000).saturated = true ∧
      ((billed .off).accrue 1000 (Vector.replicate 16 1) 1000).since = 1000 := by decide +kernel

/-- An outage at Tc minutes and one below, and one whose began minute lies above its since minute. -/
theorem test_meets_AccrualAndResolution_durations :
    let r (n : Nat) : BillRec := { billed .outage with began := n, since := 900 }
    (r 840).began ≤ (r 840).since ∧ 60 ≤ (r 840).since - (r 840).began ∧ (r 841).began ≤ (r 841).since ∧
      (r 841).since - (r 841).began < 60 ∧ (r 901).since < (r 901).began := by decide

theorem test_meets_Statements :
    (billed .service).since ≤ 1000 ∧ 899 < (billed .service).since ∧ (billed .service).a < 2 ^ 48 ∧
      (billed .service).o < 2 ^ 48 ∧ ((billed .service).close 1000 (Vector.replicate 16 1) 1000 100 6).saturated = false ∧
      (billing id).bill.behind { billed .service with period := 4 } = .onePeriod := by decide +kernel
end Sys2Proof.Tests
end

section
/-! The bounds of the queues, first part: what the operations of the Order Unit keep (R4, R5, R98, R107, R132). An operation
that only updates other parts of the state keeps them by definition; the lemmas are of the operations with branches, folds
or a queue of their own. -/

open Sys2Proof

namespace Sys2Proof.Machine

/-- A fold of steps that keep the bounds keeps them. -/
theorem State.Bounded.foldl {β : Type} {g : State → β → State} (hg : ∀ s b, s.Bounded → (g s b).Bounded) (l : List β)
    {s : State} (h : s.Bounded) : (l.foldl g s).Bounded := by
  induction l generalizing s with
  | nil => exact h
  | cons b l ih => exact ih (hg s b h)

/-- The bounds speak of the five queues alone. -/
theorem State.Bounded.congr {s t : State} (h : s.Bounded) (ho : t.order = s.order) (hc : t.corr = s.corr)
    (hb : t.bill = s.bill) (hl : t.log = s.log) : t.Bounded := by
  unfold State.Bounded
  rw [ho, hc, hb, hl]
  exact h

theorem State.setTapPort_bounded {s : State} (e : EntryId) (p : Port) (x : TapPort) (h : s.Bounded) :
    (s.setTapPort e p x).Bounded := h

theorem State.setIndex_bounded {s : State} (sub event : Nat) (old new : IndexState) (h : s.Bounded) :
    (s.setIndex sub event old new).Bounded := h

theorem State.setWork_bounded {s : State} (b : Blk) (ts : List Task) (h : s.Bounded) : (s.setWork b ts).Bounded := by
  cases b <;> exact h

theorem State.ask_bounded {s : State} (r : Requester) (b : Burst) (h : s.Bounded) : (s.ask r b).Bounded :=
  h.congr (s.ask_order r b) (s.ask_corr r b) (s.ask_bill r b) (s.ask_log r b)

theorem State.tookRead_bounded {s : State} (r : Requester) (h : s.Bounded) : (s.tookRead r).Bounded :=
  h.congr (s.tookRead_order r) (s.tookRead_corr r) (s.tookRead_bill r) (s.tookRead_log r)

theorem State.freeRead_bounded {s : State} (r : Requester) (h : s.Bounded) : (s.freeRead r).Bounded :=
  h.congr (s.freeRead_order r) (s.freeRead_corr r) (s.freeRead_bill r) (s.freeRead_log r)

theorem State.tookReads_bounded {s : State} (r : Requester) (plan : List ReadReq) (h : s.Bounded) :
    (s.tookReads r plan).Bounded :=
  h.congr (s.tookReads_order r plan) (s.tookReads_corr r plan) (s.tookReads_bill r plan) (s.tookReads_log r plan)

theorem State.stepMade_bounded {s : State} (r : Requester) (plan : List ReadReq) (h : s.Bounded) :
    (s.stepMade r plan).Bounded :=
  h.congr (s.stepMade_order r plan) (s.stepMade_corr r plan) (s.stepMade_bill r plan) (s.stepMade_log r plan)

theorem State.orderStep_bounded {s : State} (plan : List ReadReq) (h : s.Bounded) : (s.orderStep plan).Bounded :=
  h.congr (s.orderStep_order plan) (s.orderStep_corr plan) (s.orderStep_bill plan) (s.orderStep_log plan)

theorem State.noteWord5s_bounded {s : State} (l : List SlotId) (h : s.Bounded) : (l.foldl State.noteWord5 s).Bounded := by
  refine State.Bounded.foldl ?_ l h
  exact fun s k h => h

theorem State.scheduleCheck_bounded {s : State} (h : s.Bounded) : s.scheduleCheck.1.Bounded := by
  unfold State.scheduleCheck
  dsimp only
  split <;> exact State.noteWord5s_bounded _ h

theorem State.computeWanted_bounded {s : State} (sub : Nat) (wantOn : Bool) (tiers : BitVec 16) (h : s.Bounded) :
    (s.computeWanted sub wantOn tiers).Bounded := by
  unfold State.computeWanted
  cases s.claimOf sub <;> exact h

theorem State.countLoss_bounded {s : State} (h : s.Bounded) : s.countLoss.Bounded := by
  unfold State.countLoss
  split
  · exact h
  · refine State.Bounded.foldl ?_ _ h
    exact fun s k h => State.ask_bounded _ _ h

/-- An index enters the Order Queue only while it holds fewer than 32 (R5). -/
theorem State.enqueue_bounded {s : State} (i : Nat) (h : s.Bounded) : (s.enqueue i).Bounded := by
  unfold State.enqueue
  split
  · next hlt => exact ⟨by simpa using hlt, h.2⟩
  · exact h

theorem State.writeSubIfChanged_bounded {s : State} (i : Nat) (r : SubRec) (h : s.Bounded) :
    (s.writeSubIfChanged i r).Bounded := by
  unfold State.writeSubIfChanged
  split
  · exact h
  · exact State.ask_bounded _ _ h

theorem State.enterFlight_bounded {s : State} (o : OrderItem) (r : SubRec) (e : EntryId) (p : Port) (h : s.Bounded) :
    (s.enterFlight o r e p).Bounded := by
  unfold State.enterFlight
  split <;> exact State.writeSubIfChanged_bounded _ _ h

theorem State.completeAtOnce_bounded {s : State} (i : Nat) (r : SubRec) (res : OrderResult) (h : s.Bounded) :
    (s.completeAtOnce i r res).Bounded := State.ask_bounded _ _ h

theorem State.finishOrder_bounded {s : State} (o : OrderItem) (r : SubRec) (mark may : Bool) (h : s.Bounded) :
    (s.finishOrder o r mark may).Bounded := by
  unfold State.finishOrder
  rcases s.claimOf o.sub with _ | ⟨e, p⟩
  · exact State.completeAtOnce_bounded _ _ _ h
  · have hm : (if mark then s.markPort e p else s).Bounded := by cases mark <;> exact h
    dsimp only
    generalize (if mark then s.markPort e p else s) = s1 at hm
    split
    · exact State.completeAtOnce_bounded _ _ _ hm
    split
    · exact State.completeAtOnce_bounded _ _ _ hm
    split
    · refine State.completeAtOnce_bounded _ _ _ ?_
      split
      · exact hm
      · exact State.setTapPort_bounded e p _ hm
    · exact State.enterFlight_bounded _ _ _ _ hm

theorem State.releaseOwn_bounded {s : State} (i : Nat) (h : s.Bounded) : (s.releaseOwn i).Bounded := by
  unfold State.releaseOwn
  cases s.claimOf i <;> exact h

theorem State.applyConnect_bounded {s : State} (o : OrderItem) (r : SubRec) (h : s.Bounded) :
    (s.applyConnect o r).Bounded := by
  unfold State.applyConnect
  cases o.entry <;> exact State.finishOrder_bounded _ _ _ _ (State.computeWanted_bounded _ _ _ h)

theorem State.applyMove_bounded {s : State} (o : OrderItem) (r : SubRec) (h : s.Bounded) : (s.applyMove o r).Bounded := by
  unfold State.applyMove
  cases o.entry with
  | none => exact h
  | some e =>
    exact State.finishOrder_bounded _ _ _ _
      (State.computeWanted_bounded _ _ _ (State.setTapPort_bounded _ _ _ (State.releaseOwn_bounded o.sub h)))

theorem State.applyBuy_bounded {s : State} (o : OrderItem) (r : SubRec) (h : s.Bounded) : (s.applyBuy o r).Bounded := by
  unfold State.applyBuy
  split
  · dsimp only
    split
    · exact State.finishOrder_bounded _ _ _ _ (State.computeWanted_bounded _ _ _ h)
    · exact State.finishOrder_bounded _ _ _ _ h
  · exact h

theorem State.applyCancel_bounded {s : State} (o : OrderItem) (r : SubRec) (h : s.Bounded) :
    (s.applyCancel o r).Bounded := by
  unfold State.applyCancel
  split
  · exact h
  · exact State.completeAtOnce_bounded _ _ _ (State.computeWanted_bounded _ _ _ h)

theorem State.orderEffect_bounded {s : State} (o : OrderItem) (h : s.Bounded) : (s.orderEffect o).Bounded := by
  unfold State.orderEffect
  dsimp only
  split
  · exact State.completeAtOnce_bounded _ _ _ h
  · exact State.applyConnect_bounded _ _ h
  · exact State.finishOrder_bounded _ _ _ _ (State.computeWanted_bounded _ _ _ h)
  · exact State.finishOrder_bounded _ _ _ _ (State.computeWanted_bounded _ _ _ h)
  · exact State.applyMove_bounded _ _ h
  · exact State.applyBuy_bounded _ _ h
  · exact State.applyCancel_bounded _ _ h
  · exact State.finishOrder_bounded _ _ _ _ h
  · exact State.completeAtOnce_bounded _ _ _ (State.releaseOwn_bounded _ h)

theorem State.applyOrder_bounded {s : State} (o : OrderItem) (h : s.Bounded) : (s.applyOrder o).Bounded := by
  unfold State.applyOrder
  dsimp only
  split
  · exact State.enqueue_bounded _ (State.orderEffect_bounded _ h)
  · exact State.orderEffect_bounded _ h

theorem State.leaveFlight_bounded {s : State} (x : InFlight) (h : s.Bounded) : (s.leaveFlight x).Bounded := by
  unfold State.leaveFlight
  dsimp only
  split
  · exact State.enqueue_bounded _ h
  · exact h

theorem State.completeFlight_bounded {s : State} (x : InFlight) (res : OrderResult) (edit : SubRec → SubRec)
    (h : s.Bounded) : (s.completeFlight x res edit).Bounded :=
  State.leaveFlight_bounded _ (State.ask_bounded _ _ h)

theorem State.failFlights_bounded {s : State} (pick : InFlight → Bool) (h : s.Bounded) : (s.failFlights pick).Bounded :=
  State.Bounded.foldl (fun _ _ h => State.completeFlight_bounded _ _ _ h) _ h

theorem State.auditResults_bounded {s : State} (e : EntryId) (ports : Vector PortState 4) (h : s.Bounded) :
    (s.auditResults e ports).Bounded :=
  State.Bounded.foldl (fun _ _ h => State.completeFlight_bounded _ _ _ h) _ h

theorem State.applyConfirm_bounded {s : State} (c : ConfirmItem) (h : s.Bounded) : (s.applyConfirm c).Bounded := by
  have hs : (c.opens.foldl (fun s' k => s'.setIndex c.sub (s.ownRec c.sub).slots[k].event .booked .opened) s).Bounded :=
    State.Bounded.foldl (fun s' k h' => State.setIndex_bounded _ _ _ _ h') _ h
  unfold State.applyConfirm
  dsimp only
  split
  · exact State.completeFlight_bounded _ _ _ hs
  · exact State.ask_bounded _ _ hs

theorem State.confirmUnclaimed_bounded {s : State} (e : EntryId) (p : Port) (h : s.Bounded) :
    (s.confirmUnclaimed e p).Bounded := by
  unfold State.confirmUnclaimed
  split
  · exact h
  · exact State.Bounded.foldl (fun _ _ h => State.completeFlight_bounded _ _ _ h) _ h

theorem State.recompute_bounded {s : State} (sub : Nat) (h : s.Bounded) : (s.recompute sub).Bounded := by
  unfold State.recompute
  exact State.computeWanted_bounded _ _ _ h

theorem State.freeBooked_bounded {s : State} (sub event : Nat) (h : s.Bounded) : (s.freeBooked sub event).Bounded := by
  unfold State.freeBooked
  dsimp only
  split
  · exact State.ask_bounded _ _ h
  · exact h

theorem State.takeOverlap_bounded {s : State} (sub event minutes : Nat) (h : s.Bounded) :
    (s.takeOverlap sub event minutes).Bounded := by
  unfold State.takeOverlap
  dsimp only
  split
  · exact State.ask_bounded _ _ h
  · exact h

theorem State.takeSettle_bounded {s : State} (sub event : Nat) (h : s.Bounded) : (s.takeSettle sub event).Bounded := by
  unfold State.takeSettle
  split
  · dsimp only
    split
    · exact State.ask_bounded _ _ h
    · exact h
  · exact h

theorem State.passStep_bounded {s : State} (i : Nat) (h : s.Bounded) : (s.passStep i).1.Bounded := by
  unfold State.passStep
  dsimp only
  split
  · split <;> exact h
  · exact h

theorem State.applyPass_bounded {s : State} (x : PassItem) (h : s.Bounded) : (s.applyPass x).Bounded := by
  unfold State.applyPass
  dsimp only
  split
  · exact State.ask_bounded _ _ h
  · exact h

theorem State.passNext_bounded {s : State} (x : PassItem) (h : s.Bounded) : (s.passNext x).Bounded := by
  unfold State.passNext
  dsimp only
  split
  · exact (State.enqueue_bounded x.i h :)
  · exact h

end Sys2Proof.Machine
end

section
/-! The bounds of the queues, second part: the engines, the Tap Directory, the Memory Path and the refused starts. -/

open Sys2Proof

namespace Sys2Proof.Machine

theorem State.setEng_bounded {s : State} (f : Feeder) (x : Engine) (h : s.Bounded) : (s.setEng f x).Bounded := h

theorem State.setEntry_bounded {s : State} (e : EntryId) (x : Entry) (h : s.Bounded) : (s.setEntry e x).Bounded := h

theorem State.setPacing_bounded {s : State} (f : Feeder) (t : Timer) (h : s.Bounded) : (s.setPacing f t).Bounded := h

theorem State.setBlockedCheck_bounded {s : State} (f : Feeder) (t : Timer) (h : s.Bounded) :
    (s.setBlockedCheck f t).Bounded := h

theorem State.onPhase_bounded {s : State} (f : Feeder) (ph : Phase) (g : Engine → Txn → Engine) (h : s.Bounded) :
    (s.onPhase f ph g).Bounded := by
  unfold State.onPhase
  (repeat' split) <;> exact h

theorem State.advanceRoll_bounded {s : State} (f : Feeder) (restart : Bool) (h : s.Bounded) :
    (s.advanceRoll f restart).Bounded := by
  unfold State.advanceRoll
  dsimp only
  (repeat' split) <;> exact h

/-- The start of a paced READ is the directory's and the timer's alone (R83). -/
theorem State.startPaced_order (s : State) (f : Feeder) : (s.startPaced f).order = s.order := by
  unfold State.startPaced
  dsimp only
  split <;> rfl

theorem State.startPaced_bounded {s : State} (f : Feeder) (h : s.Bounded) : (s.startPaced f).Bounded := by
  unfold State.startPaced
  dsimp only
  split <;> exact h

theorem State.passDue_bounded {s : State} (f : Feeder) (e : EntryId) (h : s.Bounded) : (s.passDue f e).Bounded := by
  unfold State.passDue
  split
  · split
    · exact State.advanceRoll_bounded _ _ h
    · exact h
  · exact h

theorem State.enumNewCycle_bounded {s : State} (f : Feeder) (h : s.Bounded) : (s.enumNewCycle f).Bounded := by
  unfold State.enumNewCycle
  dsimp only
  split <;> exact h

theorem State.enumVerify_bounded {s : State} (f : Feeder) (en : Enum) (ending : Ending) (h : s.Bounded) :
    (s.enumVerify f en ending).Bounded := h

theorem State.enumEnd_bounded {s : State} (f : Feeder) (en : Enum) (ending : Ending) (h : s.Bounded) :
    (s.enumEnd f en ending).1.Bounded := by
  unfold State.enumEnd
  dsimp only
  refine State.setEng_bounded _ _ ?_
  have hg : ∀ l : List EntryId, (l.foldl (fun s e => s.setEntry e ((s.entry e).notFound s.now)) s).Bounded := fun l =>
    State.Bounded.foldl (fun _ _ h => State.setEntry_bounded _ _ h) l h
  split
  · exact State.enumNewCycle_bounded _ (State.enumVerify_bounded _ _ _ (hg _))
  · exact State.enumVerify_bounded _ _ _ (hg _)

theorem State.vacateAll_bounded {s : State} (f : Feeder) (h : s.Bounded) : (s.vacateAll f).1.Bounded := by
  unfold State.vacateAll
  dsimp only
  exact State.Bounded.foldl (fun _ _ h => State.setEntry_bounded _ _ h) _ h

theorem State.identified_bounded {s : State} (f : Feeder) (en : Enum) (serial : Word) (h : s.Bounded) :
    (s.identified f en serial).1.Bounded := by
  unfold State.identified
  cases s.chooseEntry serial with
  | none => exact State.enumEnd_bounded _ _ _ h
  | some c =>
    dsimp only
    split
    · exact State.enumEnd_bounded _ _ _ h
    · exact h

theorem State.assigned_bounded {s : State} (f : Feeder) (en : Enum) (latency : Nat) (tamper low : Bool) (h : s.Bounded) :
    (s.assigned f en latency tamper low).1.Bounded := by
  unfold State.assigned
  rcases s.finalChoice en with _ | ⟨e, pick⟩
  · exact State.enumEnd_bounded _ _ _ h
  · dsimp only
    refine State.setEng_bounded _ _ ?_
    have he : ∀ y, (s.setEntry e y).Bounded := fun y => h
    split
    · split
      · exact he _
      · exact State.passDue_bounded _ _ (he _)
    · exact he _

theorem State.beginCall_bounded {s : State} (f : Feeder) (cmd : TapCmd) (h : s.Bounded) : (s.beginCall f cmd).Bounded := by
  unfold State.beginCall
  dsimp only
  (repeat' split) <;> exact h

theorem State.callDue_bounded {s : State} (f : Feeder) (cmd : TapCmd) (h : s.Bounded) : (s.callDue f cmd).Bounded := by
  unfold State.callDue
  dsimp only
  (repeat' split) <;> exact h

theorem State.tapOutcome_bounded {s : State} (f : Feeder) (o : Outcome) (h : s.Bounded) : (s.tapOutcome f o).1.Bounded := by
  unfold State.tapOutcome
  dsimp only
  (repeat' split) <;> exact h

theorem State.probeOutcome_bounded {s : State} (f : Feeder) (o : Outcome) (h : s.Bounded) :
    (s.probeOutcome f o).1.Bounded := by
  unfold State.probeOutcome
  cases o.res with
  | ok =>
    dsimp only
    exact State.identified_bounded _ _ _ h
  | failed => exact h

theorem State.storeLatency_bounded {s : State} (serial : Word) (latency : Nat) (h : s.Bounded) :
    (s.storeLatency serial latency).1.Bounded := by
  unfold State.storeLatency
  cases s.entryOfSerial serial <;> exact h

theorem State.forgetOutcome_bounded {s : State} (f : Feeder) (en : Enum) (o : Outcome) (h : s.Bounded) :
    (s.forgetOutcome f en o).1.Bounded := by
  unfold State.forgetOutcome
  cases o.res with
  | ok =>
    dsimp only
    exact State.vacateAll_bounded _ h
  | failed => exact State.enumEnd_bounded _ _ _ h

theorem State.identifyOutcome_bounded {s : State} (f : Feeder) (en : Enum) (o : Outcome) (h : s.Bounded) :
    (s.identifyOutcome f en o).1.Bounded := by
  unfold State.identifyOutcome
  split
  · dsimp only
    exact State.identified_bounded _ _ _ (State.storeLatency_bounded _ _ h)
  · exact State.enumEnd_bounded _ _ _ h
  · exact State.enumEnd_bounded _ _ _ h

theorem State.assignOutcome_bounded {s : State} (f : Feeder) (en : Enum) (o : Outcome) (h : s.Bounded) :
    (s.assignOutcome f en o).1.Bounded := by
  unfold State.assignOutcome
  split
  · split
    · exact State.assigned_bounded _ _ _ _ _ h
    · exact State.enumEnd_bounded _ _ _ h
  · exact State.enumEnd_bounded _ _ _ h

theorem State.outcomeEffect_bounded {s : State} (f : Feeder) (o : Outcome) (h : s.Bounded) :
    (s.outcomeEffect f o).1.Bounded := by
  unfold State.outcomeEffect
  split
  · exact State.probeOutcome_bounded _ _ h
  split
  · exact State.tapOutcome_bounded _ _ h
  split
  · exact State.forgetOutcome_bounded _ _ _ h
  · exact State.assignOutcome_bounded _ _ _ h
  · exact State.identifyOutcome_bounded _ _ _ h
  · exact h

theorem State.takeHanded_bounded {s : State} (f : Feeder) (h : s.Bounded) : (s.takeHanded f).1.Bounded := by
  unfold State.takeHanded
  split
  · exact State.outcomeEffect_bounded _ _ h
  · exact h

theorem State.blockEnum_bounded {s : State} (f : Feeder) (x : Engine) (h : s.Bounded) : (s.blockEnum f x).1.Bounded := by
  unfold State.blockEnum
  dsimp only
  split
  · exact State.enumEnd_bounded _ _ _ h
  · exact h

/-! ### The Memory Path and the configuration -/

/-- A report of a suppressed write enters the intake only while it has room (R173). -/
theorem State.suppress_bounded {s : State} (a : Nat) (h : s.Bounded) : (s.suppress a).Bounded := by
  obtain ⟨h1, h2, h3, h4, h5⟩ := h
  refine ⟨h1, h2, h3, h4, ?_⟩
  unfold State.suppress
  dsimp only
  split
  · next hand =>
    simp only [Bool.and_eq_true, decide_eq_true_eq] at hand
    simpa using hand.2
  · exact h5

theorem State.bankEdit_bounded {s : State} (b : Bank) (h : s.Bounded) : (s.bankEdit b).Bounded := by
  unfold State.bankEdit
  (repeat' split) <;> exact h

theorem State.carry_bounded {s : State} (c : Cycle) (h : s.Bounded) : (s.carry c).Bounded := by
  unfold State.carry
  dsimp only
  split <;> exact h

/-- The owner of an arrival acts on the state without it, or on the state with its write made (assumption 8). -/
theorem State.arrive_bounded {s : State} (t : Trigger) (w : Word) {g : State → State}
    (hg : ∀ s : State, s.Bounded → (g s).Bounded) (h : s.Bounded) : (s.arrive t w g).Bounded := by
  unfold State.arrive
  split
  · exact h
  split
  · split
    · exact hg _ h
    · exact h
  · split
    · dsimp only
      split
      · exact hg _ h
      · exact h
    · exact h

/-- The dispatch of the oldest index takes it from the queue. -/
theorem OrderUnit.takeHead_le (o : OrderUnit) : o.takeHead.queue.length ≤ o.queue.length ∧ o.takeHead.reports = o.reports := by
  unfold OrderUnit.takeHead
  cases hq : o.queue <;> simp [hq]

theorem State.grantRead_bounded {s : State} (r : Requester) (q : ReadReq) (h : s.Bounded) : (s.grantRead r q).Bounded := by
  obtain ⟨hq, hr, h3⟩ := h
  unfold State.grantRead State.Bounded
  dsimp only
  split
  · obtain ⟨hle, heq⟩ := s.order.takeHead_le
    rw [heq]
    exact ⟨hle.trans hq, hr, h3⟩
  · exact ⟨hq, hr, h3⟩

theorem State.grantPart_bounded {s : State} (r : Requester) (h : s.Bounded) : (s.grantPart r).Bounded := by
  unfold State.grantPart
  split
  · exact State.grantRead_bounded _ _ h
  · exact h
  · exact State.grantRead_bounded _ _ h
  · exact h

theorem State.grant_bounded {s : State} (h : s.Bounded) : s.grant.Bounded := by
  unfold State.grant
  split
  · split
    · split
      · exact State.grantPart_bounded _ h
      · exact h
    · exact h
    · exact State.grantPart_bounded _ h
    · exact h
  · exact h

/-- What a consumer value changes is not the intake (R109). -/
theorem AlarmLog.takeConsumer_intake (l : AlarmLog) (v : Nat) : (l.takeConsumer v).intake = l.intake := by
  unfold AlarmLog.takeConsumer
  dsimp only
  split <;> rfl

theorem State.loadLog_bounded {s : State} (v : State) (h : s.Bounded) : (s.loadLog v).Bounded := by
  obtain ⟨h1, h2, h3, h4, h5⟩ := h
  refine ⟨h1, h2, h3, h4, ?_⟩
  have : (s.loadLog v).log.intake = s.log.intake := by
    unfold State.loadLog
    exact foldl_keeps AlarmLog.intake _ AlarmLog.takeConsumer_intake _ _
  rw [this]
  exact h5

theorem State.refuseCold_bounded {s : State} (r : CmdResult) (fault : ConfigFault) (h : s.Bounded) :
    (s.refuseCold r fault).Bounded := by
  obtain ⟨h1, h2, h3, h4, -⟩ := h
  exact ⟨h1, h2, h3, h4, Nat.zero_le _⟩

theorem State.refuseStart_bounded {s : State} (r : CmdResult) (fault : ConfigFault) (h : s.Bounded) :
    (s.refuseStart r fault).Bounded := by
  unfold State.refuseStart
  split
  · exact h
  · exact State.refuseCold_bounded _ _ h

end Sys2Proof.Machine
end

section
/-! The bounds of the queues, third part: the tasks of a work item, the line-up and the end of a burst. -/

open Sys2Proof

namespace Sys2Proof.Machine

/-! ### Work in progress -/

theorem State.endSequence_bounded {s : State} (h : s.Bounded) : s.endSequence.Bounded := State.ask_bounded _ _ h

theorem State.sampleFrom_bounded (l : List ScanEntry) (i : Nat) {s : State} (h : s.Bounded) : (s.sampleFrom l i).Bounded := by
  induction l generalizing i with
  | nil => exact State.endSequence_bounded h
  | cons en rest ih =>
    unfold State.sampleFrom
    split
    · split
      · exact ih _
      · exact State.ask_bounded _ _ h
    · exact h

theorem State.nextSample_bounded {s : State} (h : s.Bounded) : s.nextSample.Bounded := by
  unfold State.nextSample
  split
  · exact State.endSequence_bounded h
  · exact State.sampleFrom_bounded _ _ h

theorem State.startSequence_bounded {s : State} (h : s.Bounded) : s.startSequence.Bounded :=
  State.nextSample_bounded (State.ask_bounded _ _ h)

theorem State.advanceSweep_bounded {s : State} (h : s.Bounded) : s.advanceSweep.Bounded := State.ask_bounded _ _ h

theorem State.endSweep_bounded {s : State} (h : s.Bounded) : s.endSweep.Bounded := by
  unfold State.endSweep
  dsimp only
  split <;> exact State.ask_bounded _ _ h

/-- A submission enters the alarm intake only while it holds fewer than 8 (R107). -/
theorem State.submit_bounded {s : State} (kind : AlarmKind) (sev : Severity) (subject : Subject) (value : Word)
    (stamp : Option Nat) (h : s.Bounded) : (s.submit kind sev subject value stamp).1.Bounded := by
  rcases s.submit_spec kind sev subject value stamp with ⟨-, he⟩ | ⟨-, hlt, he⟩ | ⟨-, -, he⟩
  · rw [he]; exact h
  · rw [he]
    obtain ⟨h1, h2, h3, h4, -⟩ := h
    exact ⟨h1, h2, h3, h4, by simpa using hlt⟩
  · rw [he]; exact h

/-- A task whose turn comes adds to a queue only while it has room, and otherwise waits. -/
theorem State.doTask_bounded {s : State} (t : Task) (h : s.Bounded) : (s.doTask t).1.Bounded := by
  obtain ⟨hq, hr, hc, hn, hi⟩ := id h
  cases t with (unfold State.doTask; dsimp only)
  | notice q =>
    split
    · next hlt => exact ⟨hq, hr, hc, by simpa using hlt, hi⟩
    · exact h
  | orderReport r =>
    split
    · next hlt => exact ⟨hq, by simpa using hlt, hc, hn, hi⟩
    · exact h
  | corrReport r =>
    split
    · next hlt => exact ⟨hq, hr, by simpa using hlt, hn, hi⟩
    · exact h
  | noticeDone => exact ⟨hq, hr, hc, List.length_tail.trans_le ((Nat.sub_le _ _).trans hn), hi⟩
  | alarm => exact State.submit_bounded _ _ _ _ _ h
  | burst => exact State.ask_bounded _ _ h
  | awaitWritten | awaitAnswer =>
    split <;> exact h
  | applyOrder => exact State.applyOrder_bounded _ h
  | applyConfirm => exact State.applyConfirm_bounded _ h
  | applyPass => exact State.applyPass_bounded _ h
  | passNext => exact State.passNext_bounded _ h
  | sweepAdvance => exact State.advanceSweep_bounded h
  | sweepEnd =>
    split
    · split
      · exact State.submit_bounded _ _ _ _ _ (State.endSweep_bounded h)
      · exact State.endSweep_bounded h
    · exact h
  | reconAdvance =>
    split
    · split
      · exact h
      · dsimp only
        split
        · exact State.advanceSweep_bounded h
        · exact h
    · exact h
  | takeBuyers =>
    exact State.noteWord5s_bounded _ (h.congr s.takeBuyers_order s.takeBuyers_corr s.takeBuyers_bill s.takeBuyers_log)
  | beginCall => exact State.beginCall_bounded _ _ h
  | dueCall => exact State.callDue_bounded _ _ h
  | scanNext =>
    exact State.nextSample_bounded h
  | setSettling | freeBooked | recompute | overlapOut | settleOut | refreshOut | switchReportOut | switchDone | enumOver
    | blockedOver | awaitBlocked => exact h

theorem State.runTasks_bounded (b : Blk) (ts : List Task) {s : State} (h : s.Bounded) :
    (State.runTasks b ts s).Bounded := by
  induction ts generalizing s with
  | nil => exact State.setWork_bounded _ _ h
  | cons t ts ih =>
    have ht := State.doTask_bounded t h
    rcases hd : s.doTask t with ⟨s1, _ | w⟩ <;> rw [hd] at ht
    · rw [State.runTasks_go b t ts s s1 hd]
      exact ih ht
    · rw [State.runTasks_wait b t w ts s s1 hd]
      exact State.setWork_bounded _ _ ht

theorem State.resumeWork_bounded {s : State} (b : Blk) (h : s.Bounded) : (s.resumeWork b).Bounded := by
  unfold State.resumeWork State.keepOrderTurn
  split <;> exact State.runTasks_bounded _ _ h

theorem State.push_bounded {s : State} (b : Blk) (ts : List Task) (h : s.Bounded) : (s.push b ts).Bounded := by
  unfold State.push
  split
  · exact State.runTasks_bounded _ _ h
  · exact State.setWork_bounded _ _ h

theorem State.pushCalls_bounded {s : State} (ts : List Task) (h : s.Bounded) : (s.pushCalls ts).Bounded :=
  (State.push_bounded .directory ts h).congr rfl rfl rfl rfl

theorem State.settle_bounded {s : State} (h : s.Bounded) : s.settle.Bounded := by
  refine State.Bounded.foldl (fun s b h => ?_) _ h
  split
  · exact State.resumeWork_bounded _ h
  · exact h

/-! ### The line-up -/

theorem State.epochCheck_bounded {s : State} (h : s.Bounded) : s.epochCheck.Bounded := by
  unfold State.epochCheck
  split
  · split
    · exact State.ask_bounded _ _ h
    · exact State.push_bounded _ _ h
  · exact h

theorem State.endValidation_bounded {s : State} (v : Validation) (fault : Option (ValResult × Option SlotId))
    (h : s.Bounded) : (s.endValidation v fault).Bounded := by
  unfold State.endValidation
  dsimp only
  generalize hs : (if v.edited then _ else _ : State) = s1
  have h1 : s1.Bounded := by
    subst hs
    (repeat' split) <;> exact h
  have h2 : (if v.startup then
      { s1.ask .lineUp (.header v.bank) with
        run := { (s1.ask .lineUp (.header v.bank)).run with phase := .states false false } }
      else s1.ask .lineUp (.header v.bank) : State).Bounded := by
    split <;> exact State.ask_bounded .lineUp (.header v.bank) h1
  split
  · exact State.epochCheck_bounded h2
  · exact h2

theorem State.readPart_bounded {s : State} (v : Validation) (h : s.Bounded) : (s.readPart v).Bounded :=
  State.ask_bounded _ _ h

theorem State.checkPart_bounded {s : State} (v : Validation) (h : s.Bounded) : (s.checkPart v).Bounded := by
  unfold State.checkPart
  dsimp only
  split
  · exact State.readPart_bounded _ h
  split
  · split
    · exact State.readPart_bounded _ h
    · exact State.endValidation_bounded _ _ h
  split
  · exact State.readPart_bounded _ h
  cases slotFault v.plan v.slots s.eventChanged (Slot.ofWords (s.bankPart v.bank v.part)) with
  | some r => exact State.endValidation_bounded _ _ h
  | none =>
    dsimp only
    split
    · exact State.readPart_bounded _ h
    · exact State.endValidation_bounded _ _ h

theorem State.validationRead_bounded {s : State} (b : Bank) (p : Nat) (h : s.Bounded) :
    (s.validationRead b p).Bounded := by
  unfold State.validationRead
  split
  · split
    · exact State.checkPart_bounded _ h
    · exact h
  · exact h

theorem State.madeSwitch_bounded {s : State} (h : s.Bounded) : s.madeSwitch.Bounded := by
  unfold State.madeSwitch
  split
  · exact h
  · exact State.push_bounded _ _ h

/-! ### The end of a burst -/

theorem State.logWritten_bounded {s : State} (h : s.Bounded) : s.logWritten.Bounded := by
  unfold State.logWritten
  split
  · exact h
  · exact State.ask_bounded _ _ h

/-- A registration enters the Notice Queue only while it has room (R147). -/
theorem State.closeQueued_bounded {s : State} (h : s.Bounded) : s.closeQueued.Bounded := by
  unfold State.closeQueued
  split
  · exact h
  · split
    · next hlt =>
      obtain ⟨h1, h2, h3, -, h5⟩ := h
      exact ⟨h1, h2, h3, by simpa using hlt, h5⟩
    · exact h

theorem State.lastAliveRead_bounded {s : State} (h : s.Bounded) : s.lastAliveRead.Bounded := by
  unfold State.lastAliveRead
  dsimp only
  split
  · split
    · exact State.refuseStart_bounded _ _ h
    · exact h
  · exact h

theorem State.startPending_bounded {s : State} (b : Bank) (h : s.Bounded) : (s.startPending b).Bounded := by
  have hgo : ∀ t : State, t.Bounded → State.Bounded { t with run := { t.run with phase := .states false false } } :=
    fun _ ht => ht
  unfold State.startPending
  dsimp only
  split
  · exact State.readPart_bounded _ h
  split
  · exact hgo _ (State.ask_bounded _ _ h)
  · exact hgo _ (State.ask_bounded _ _ h)

theorem State.burstEnded_bounded {s : State} (b : Burst) (h : s.Bounded) : (s.burstEnded b).Bounded := by
  unfold State.burstEnded
  split
  · exact h
  · unfold State.resultWritten
    split
    · exact State.refuseCold_bounded _ _ h
    · exact h
  · exact State.madeSwitch_bounded h
  · exact State.logWritten_bounded h
  · exact State.closeQueued_bounded h
  · unfold State.answerAsk
    split <;> exact h
  · exact State.lastAliveRead_bounded h
  · exact State.validationRead_bounded _ _ h
  · unfold State.pendingRead
    split
    · exact State.startPending_bounded _ h
    · exact h
  · exact h

theorem State.readTask_bounded {s : State} (t : Task) (h : s.Bounded) : (s.readTask t).Bounded := by
  unfold State.readTask
  split
  · exact State.recompute_bounded _ h
  · exact State.freeBooked_bounded _ _ h
  · exact h

theorem State.endStepRead_bounded {s : State} (r : Requester) (a n : Nat) (h : s.Bounded) :
    (s.endStepRead r a n).Bounded := by
  unfold State.endStepRead
  dsimp only
  split
  · exact h
  split
  · exact (State.freeRead_bounded r h).congr rfl rfl rfl rfl
  · exact State.tookRead_bounded _ h

theorem State.endRead_bounded {s : State} (r : Requester) (a n : Nat) (h : s.Bounded) : (s.endRead r a n).Bounded := by
  unfold State.endRead
  split
  · split
    · exact State.Bounded.congr (State.runTasks_bounded _ _ (State.readTask_bounded _ (State.tookRead_bounded _ h)))
        rfl rfl rfl rfl
    · exact State.endStepRead_bounded _ _ _ h
  · exact State.endStepRead_bounded _ _ _ h

theorem State.completeBurst_bounded {s : State} (h : s.Bounded) : s.completeBurst.Bounded := by
  unfold State.completeBurst
  split
  · exact State.endRead_bounded _ _ _ h
  · dsimp only
    split
    · exact h
    · exact State.settle_bounded (State.burstEnded_bounded _ h)
  · exact h

end Sys2Proof.Machine
end

section
/-! The bounds of the queues, fourth part: the commands of Run Control and the Time Base. -/

open Sys2Proof

namespace Sys2Proof.Machine

theorem State.asks_bounded {s : State} (r : Requester) (bs : List Burst) (h : s.Bounded) : (s.asks r bs).Bounded :=
  h.congr (s.asks_order r bs) (s.asks_corr r bs) (s.asks_bill r bs) (s.asks_log r bs)

theorem State.noTurn_bounded {s : State} (r : Requester) (h : s.Bounded) : (s.noTurn r).Bounded := h

theorem State.evalLog_bounded {s : State} (h : s.Bounded) : s.evalLog.Bounded := h

theorem State.evalEscalation_bounded {s : State} (h : s.Bounded) : s.evalEscalation.Bounded := h

theorem State.storeCorr_bounded {s : State} (w : CorrWork) (h : s.Bounded) : (s.storeCorr w).Bounded := h

theorem State.takeBuyers_bounded {s : State} (h : s.Bounded) : s.takeBuyers.Bounded :=
  h.congr s.takeBuyers_order s.takeBuyers_corr s.takeBuyers_bill s.takeBuyers_log

theorem State.answerControl_bounded {s : State} (r : CmdResult) (h : s.Bounded) : (s.answerControl r).Bounded := by
  unfold State.answerControl
  split <;> exact h

/-! ### Run Control -/

theorem State.enterStarting_bounded {s : State} (h : s.Bounded) : s.enterStarting.Bounded :=
  State.evalLog_bounded (State.ask_bounded _ _ h)

/-- A reset leaves every queue empty (R188). -/
theorem State.afterReset_bounded (s : State) (cause : ResetCause) (held : Bool) (time : TimeBase) :
    (s.afterReset cause held time).Bounded := by
  refine ⟨?_, ?_, ?_, ?_, ?_⟩ <;> exact Nat.zero_le _

theorem doRestart_bounded {s : State} (w : Word) (h : s.Bounded) : (doRestart w s).Bounded := by
  unfold doRestart
  split
  · exact State.arrive_bounded _ _ (fun s _ => s.afterReset_bounded _ _ _) h
  · exact h

theorem doRun_bounded {s : State} (w : Word) (h : s.Bounded) : (doRun w s).Bounded := by
  unfold doRun
  split
  · refine State.arrive_bounded _ _ (fun s h => ?_) h
    split
    · split
      · exact State.enterStarting_bounded h
      · exact State.answerControl_bounded _ h
    · split
      · exact State.enterStarting_bounded h
      · exact State.answerControl_bounded _ h
    · exact h
    · exact State.answerControl_bounded _ h
    · exact State.answerControl_bounded _ h
  · exact h

theorem doHalt_bounded {s : State} (w : Word) (h : s.Bounded) : (doHalt w s).Bounded := by
  unfold doHalt
  split
  · refine State.arrive_bounded _ _ (fun s h => ?_) h
    dsimp only
    split
    · exact State.answerControl_bounded _ h
    · exact State.answerControl_bounded _ h
    · exact h
    · exact h
    · exact State.answerControl_bounded _ h
  · exact h

theorem doClearStatus_bounded {s : State} (w : Word) (h : s.Bounded) : (doClearStatus w s).Bounded := by
  unfold doClearStatus
  split
  · exact State.arrive_bounded _ _ (fun s h => State.answerControl_bounded _ h) h
  · exact h

theorem doControlBadAction_bounded {s : State} (w : Word) (h : s.Bounded) : (doControlBadAction w s).Bounded := by
  unfold doControlBadAction
  split
  · exact h
  · exact State.arrive_bounded _ _ (fun s h => State.answerControl_bounded _ h) h

theorem State.checkConfig_bounded {s : State} (m : List Host.Cell) (h : s.Bounded) : (s.checkConfig m).Bounded := by
  unfold State.checkConfig State.checkResume
  dsimp only
  split
  · exact State.refuseStart_bounded _ _ h
  · (repeat' split) <;> exact h

theorem State.checkBankNumber_bounded {s : State} (h : s.Bounded) : s.checkBankNumber.Bounded := by
  unfold State.checkBankNumber
  dsimp only
  split
  · exact State.refuseCold_bounded _ _ h
  · exact h

theorem State.checkBank_bounded {s : State} (v : State) (b : Bank) (h : s.Bounded) : (s.checkBank v b).Bounded := by
  unfold State.checkBank
  cases v.bankFault b with
  | some => exact State.ask_bounded _ _ h
  | none => exact h

theorem State.checkLog_bounded {s : State} (v : State) (h : s.Bounded) : (s.checkLog v).Bounded :=
  State.loadLog_bounded v h

theorem doConfigurationCheck_bounded {s : State} (h : s.Bounded) : (doConfigurationCheck s).Bounded := by
  unfold doConfigurationCheck
  split
  · split
    · exact State.checkConfig_bounded _ (State.tookRead_bounded _ h)
    · exact h
  · split
    · exact State.checkBankNumber_bounded (State.tookRead_bounded _ h)
    · exact h
  · split
    · exact State.checkBank_bounded _ _ (State.tookRead_bounded _ h)
    · exact h
  · split
    · exact State.checkLog_bounded _ (State.tookRead_bounded _ h)
    · exact h
  · exact h

theorem doDirectoryLoadEntry_bounded {s : State} (h : s.Bounded) : (doDirectoryLoadEntry s).Bounded := by
  unfold doDirectoryLoadEntry
  split
  · split
    · dsimp only
      exact State.noTurn_bounded _ (State.push_bounded _ _
        (State.Bounded.congr (State.tookRead_bounded .directory h) rfl rfl rfl rfl))
    · exact h
  · exact h

theorem doBillingLoad_bounded {s : State} (h : s.Bounded) : (doBillingLoad s).Bounded := by
  have h1 := State.tookRead_bounded .billing h
  unfold doBillingLoad
  split
  · split
    · dsimp only
      split
      · exact State.ask_bounded _ _ h1
      · exact h1
    · exact h
  · exact h

theorem doCarrierLossLoad_bounded {s : State} (h : s.Bounded) : (doCarrierLossLoad s).Bounded := by
  unfold doCarrierLossLoad
  split
  · split
    · exact State.Bounded.congr (State.tookReads_bounded .scanner s.lossReads h) rfl rfl rfl rfl
    · exact h
  · exact h

theorem doSubscriberPassStep_bounded {s : State} (h : s.Bounded) : (doSubscriberPassStep s).Bounded := by
  unfold doSubscriberPassStep
  split
  · split
    · exact State.noTurn_bounded _ (State.push_bounded _ _ (State.passStep_bounded _ (State.tookRead_bounded _ h)))
    · exact h
  · exact h

theorem doLineupStartup_bounded {s : State} (h : s.Bounded) : (doLineupStartup s).Bounded := by
  unfold doLineupStartup
  split
  · exact State.asks_bounded _ _
      (State.noteWord5s_bounded _ (State.takeBuyers_bounded (State.ask_bounded _ _ h)))
  · exact h

theorem doScannerStartup_bounded {s : State} (h : s.Bounded) : (doScannerStartup s).Bounded := by
  unfold doScannerStartup
  split
  · exact State.asks_bounded _ _ h
  · exact h

theorem doOutageRebuild_bounded {s : State} (h : s.Bounded) : (doOutageRebuild s).Bounded := by
  unfold doOutageRebuild
  split
  · split
    · exact State.push_bounded _ _ h
    · exact h
  · exact h

theorem doReconciliationStep_bounded {s : State} (h : s.Bounded) : (doReconciliationStep s).Bounded := by
  have h1 := State.tookRead_bounded .billing h
  unfold doReconciliationStep
  split
  · split
    · dsimp only
      split
      · exact State.noTurn_bounded _ (State.push_bounded _ _ h1)
      · exact State.noTurn_bounded _ (State.push_bounded _ _ h1)
    · exact h
  · exact h

theorem State.startSupervision_bounded {s : State} (h : s.Bounded) : s.startSupervision.Bounded := by
  unfold State.startSupervision
  split
  · exact h
  · dsimp only
    split
    · exact State.push_bounded _ _ h
    · exact h

theorem State.startFeeders_bounded {s : State} (h : s.Bounded) : s.startFeeders.Bounded := by
  refine State.Bounded.foldl (fun s f h => ?_) _ h
  split <;> exact h

theorem State.takeSettings_bounded {s : State} (c : Settings) (h : s.Bounded) : (s.takeSettings c).Bounded := by
  unfold State.takeSettings
  exact State.push_bounded _ _ (State.push_bounded _ _ (State.storeCorr_bounded _ (State.asks_bounded _ _ h)))

theorem doEntryToRunning_bounded {s : State} (h : s.Bounded) : (doEntryToRunning s).Bounded := by
  unfold doEntryToRunning
  split
  · refine State.evalLog_bounded (State.Bounded.congr (State.startSupervision_bounded (State.ask_bounded _ _ ?_))
      rfl rfl rfl rfl)
    have h1 := State.submit_bounded .resumed .info .none (word (s.runMinute - s.run.lastAlive)) none h
    split
    · exact State.takeSettings_bounded _ h1
    · exact State.startFeeders_bounded h1
  · exact h

theorem doHaltedEntry_bounded {s : State} (h : s.Bounded) : (doHaltedEntry s).Bounded := by
  unfold doHaltedEntry
  split <;> exact h

/-! ### The Time Base -/

theorem State.runSchedule_bounded {s : State} (h : s.Bounded) : s.runSchedule.Bounded := by
  unfold State.runSchedule
  split
  · exact State.push_bounded _ _ (State.scheduleCheck_bounded h)
  · exact h

theorem State.updateBuyers_bounded {s : State} (h : s.Bounded) : s.updateBuyers.Bounded := by
  unfold State.updateBuyers
  split
  · exact State.asks_bounded _ _ (State.noteWord5s_bounded _ (State.takeBuyers_bounded h))
  · exact h

theorem State.writeLastAlive_bounded {s : State} (h : s.Bounded) : s.writeLastAlive.Bounded := by
  unfold State.writeLastAlive
  split
  · exact State.ask_bounded _ _ h
  · exact h

theorem State.runLoss_bounded {s : State} (h : s.Bounded) : s.runLoss.Bounded := by
  unfold State.runLoss
  split
  · exact State.countLoss_bounded h
  · exact h

theorem doMinuteEvent_bounded {s : State} (h : s.Bounded) : (doMinuteEvent s).Bounded := by
  unfold doMinuteEvent
  split
  · exact State.writeLastAlive_bounded (State.evalEscalation_bounded (State.runLoss_bounded (State.updateBuyers_bounded
      (State.epochCheck_bounded (State.runSchedule_bounded h)))))
  · exact h

theorem doHalfSecondTick_bounded {s : State} (h : s.Bounded) : (doHalfSecondTick s).Bounded := by
  unfold doHalfSecondTick
  split <;> exact h

theorem State.forwardJump_bounded {s : State} (v : Nat) (h : s.Bounded) : (s.forwardJump v).Bounded :=
  State.writeLastAlive_bounded (State.evalEscalation_bounded (State.epochCheck_bounded (State.runSchedule_bounded h)))

theorem doTimeSet_bounded {s : State} (w : Word) (h : s.Bounded) : (doTimeSet w s).Bounded := by
  refine State.arrive_bounded _ _ (fun s h => ?_) h
  dsimp only
  split
  · exact h
  · exact h
  split
  · exact h
  split
  · exact h
  · exact State.forwardJump_bounded _ h

theorem State.clearSilent_bounded {s : State} (h : s.Bounded) : s.clearSilent.Bounded := by
  unfold State.clearSilent
  split
  · exact State.push_bounded _ _ h
  · exact h

theorem doHeartbeat_bounded {s : State} (w : Word) (h : s.Bounded) : (doHeartbeat w s).Bounded := by
  refine State.arrive_bounded _ _ (fun s h => ?_) h
  have h1 : (s.answerBeat .accepted).clearSilent.Bounded := State.clearSilent_bounded h
  dsimp only
  split
  · exact h
  · split
    · exact h1.congr rfl rfl rfl rfl
    · exact h1
  · exact h1

theorem doSupervisionExpiry_bounded {s : State} (h : s.Bounded) : (doSupervisionExpiry s).Bounded := by
  unfold doSupervisionExpiry
  split
  · dsimp only
    split
    · exact h
    · exact State.push_bounded _ _ h
  · exact h

end Sys2Proof.Machine
end

section
/-! The bounds of the queues, fifth part: the commands of the other blocks, and every step. -/

open Sys2Proof

namespace Sys2Proof.Machine

/-! ### The Order Unit's commands -/

theorem State.takeOrder_bounded {s : State} (i : Nat) (w : Word) (h : s.Bounded) : (s.takeOrder i w).Bounded := by
  unfold State.takeOrder
  split
  · exact h
  split
  · exact h
  split
  · exact h
  split
  · exact h
  · exact State.enqueue_bounded _ h

theorem doOrderArrival_bounded {s : State} (i : Nat) (w : Word) (h : s.Bounded) : (doOrderArrival i w s).Bounded := by
  unfold doOrderArrival
  split
  · split
    · exact State.arrive_bounded _ _ (fun s h => State.takeOrder_bounded _ _ h) h
    · exact h
  · split
    · exact State.arrive_bounded _ _ (fun s h => h) h
    · exact h

/-- A backlog walk appends an index only while the Order Queue holds fewer than 32 (R6). -/
theorem doBacklogWalkStep_bounded {s : State} (h : s.Bounded) : (doBacklogWalkStep s).Bounded := by
  unfold doBacklogWalkStep
  split
  · have h1 := State.tookRead_bounded .orderUnit h
    dsimp only
    generalize s.tookRead .orderUnit = s1 at h1
    obtain ⟨hq, hr, hs⟩ := id h1
    split
    · exact h1
    · next hroom =>
      generalize s1.order.walk.getD _ = k
      generalize ((s1.ownRec k.next).pending && !s1.knows k.next) = add
      have hadd : (if add then s1.order.queue ++ [k.next] else s1.order.queue).length ≤ Config.orderQueueDepth := by
        cases add
        · exact hq
        · simpa using hroom
      generalize (if add then s1.order.queue ++ [k.next] else s1.order.queue) = q1 at hadd
      (repeat' split) <;> exact ⟨hadd, hr, hs⟩
  · exact h

theorem State.endDispatch_bounded {s : State} (h : s.Bounded) : s.endDispatch.Bounded :=
  (State.tookRead_bounded .orderUnit h :)

theorem State.putBack_bounded {s : State} (x : Dispatch) (h : s.Bounded) : (s.putBack x).Bounded := by
  unfold State.putBack
  split
  · exact State.enqueue_bounded _ h
  · exact h

theorem State.refuse_bounded {s : State} (i : Nat) (r : SubRec) (res : OrderResult) (h : s.Bounded) :
    (s.refuse i r res).Bounded := State.ask_bounded _ _ h

theorem State.dispatch_bounded {s : State} (kind : OrderKind) (h : s.Bounded) : (s.dispatch kind).Bounded := by
  unfold State.dispatch
  split
  · exact h
  · dsimp only
    split
    · refine State.noTurn_bounded _ ?_
      have h1 := State.endDispatch_bounded h
      split
      · exact State.putBack_bounded _ (State.refuse_bounded _ _ _ h1)
      · split
        · exact State.putBack_bounded _ (State.refuse_bounded _ _ _ h1)
        · exact State.push_bounded _ _ h1
    · exact h

theorem doBadOrder_bounded {s : State} (h : s.Bounded) : (doBadOrder s).Bounded := by
  have h1 := State.endDispatch_bounded h
  unfold doBadOrder
  split
  · exact h
  · dsimp only
    split
    · split
      · exact State.putBack_bounded _ h1
      split
      · exact State.noTurn_bounded _ (State.putBack_bounded _ (State.refuse_bounded _ _ _ h1))
      · exact h
    · exact h

/-- A report leaves its queue, and its work keeps the bounds if what it gives does (R4). -/
theorem State.takeReport_bounded {s : State} {g : OrderReport → State → Option (State × List Task)}
    (hg : ∀ r (s : State) x, s.Bounded → g r s = some x → x.1.Bounded) (h : s.Bounded) : (s.takeReport g).Bounded := by
  unfold State.takeReport
  split
  · exact h
  · next r rest hr =>
    dsimp only
    split
    · split
      · next s1 ts he =>
        refine State.stepMade_bounded _ _ (State.settle_bounded (State.push_bounded _ _ (hg _ _ _ ?_ he)))
        obtain ⟨h1, h2, h3⟩ := State.orderStep_bounded (s.reportReads r) h
        exact ⟨h.1, (Nat.le_succ _).trans (by simpa [hr] using h.2.1), h3⟩
      · exact h
    · exact h

theorem doTransactionReport_bounded {s : State} (h : s.Bounded) : (doTransactionReport s).Bounded := by
  refine State.takeReport_bounded (fun r s x hs hx => ?_) h
  split at hx <;> cases hx
  · exact hs
  · exact State.auditResults_bounded _ _ hs
  · exact State.failFlights_bounded _ hs
  · exact State.failFlights_bounded _ hs

theorem doConfirmation_bounded {s : State} (h : s.Bounded) : (doConfirmation s).Bounded := by
  refine State.takeReport_bounded (fun r s x hs hx => ?_) h
  split at hx <;> cases hx
  exact State.confirmUnclaimed_bounded _ _ hs

theorem doLostTapReport_bounded {s : State} (h : s.Bounded) : (doLostTapReport s).Bounded := by
  refine State.takeReport_bounded (fun r s x hs hx => ?_) h
  split at hx <;> cases hx
  exact State.failFlights_bounded _ hs

theorem doBlockedReport_bounded {s : State} (h : s.Bounded) : (doBlockedReport s).Bounded := by
  refine State.takeReport_bounded (fun r s x hs hx => ?_) h
  split at hx <;> cases hx
  exact State.failFlights_bounded _ hs

theorem doEventStartReport_bounded {s : State} (h : s.Bounded) : (doEventStartReport s).Bounded := by
  refine State.takeReport_bounded (fun r s x hs hx => ?_) h
  split at hx <;> cases hx
  exact hs

theorem doEventEndReport_bounded {s : State} (h : s.Bounded) : (doEventEndReport s).Bounded := by
  refine State.takeReport_bounded (fun r s x hs hx => ?_) h
  split at hx <;> cases hx
  exact hs

theorem doEventDropReport_bounded {s : State} (h : s.Bounded) : (doEventDropReport s).Bounded := by
  refine State.takeReport_bounded (fun r s x hs hx => ?_) h
  split at hx <;> cases hx
  exact hs

theorem State.takeBilling_bounded {s : State} {g : BillArrival → State → Option State}
    (hg : ∀ a (s : State) t, s.Bounded → g a s = some t → t.Bounded) (h : s.Bounded) : (s.takeBilling g).Bounded := by
  unfold State.takeBilling
  split
  · exact h
  · next a rest _ =>
    dsimp only
    split
    · generalize hx : g a { s.orderStep (s.arrivalReads a) with order := { s.order with billing := rest } } = x
      cases x with
      | none => exact h
      | some t =>
        refine State.stepMade_bounded _ _ (hg _ _ _ ?_ hx)
        exact ⟨h.1, h.2.1, (State.orderStep_bounded (s.arrivalReads a) h).2.2⟩
    · exact h

theorem doOverlapReport_bounded {s : State} (h : s.Bounded) : (doOverlapReport s).Bounded := by
  refine State.takeBilling_bounded (fun a s t hs ht => ?_) h
  split at ht <;> cases ht
  exact State.takeOverlap_bounded _ _ _ hs

theorem doSettleAnswer_bounded {s : State} (h : s.Bounded) : (doSettleAnswer s).Bounded := by
  refine State.takeBilling_bounded (fun a s t hs ht => ?_) h
  split at ht <;> cases ht
  exact State.takeSettle_bounded _ _ hs

theorem doRefreshRequest_bounded {s : State} (h : s.Bounded) : (doRefreshRequest s).Bounded := by
  refine State.takeBilling_bounded (fun a s t hs ht => ?_) h
  split at ht
  · exact Option.some.inj ht ▸ State.recompute_bounded _ hs
  · cases ht

/-- A waiting notice enters the Notice Queue only while it has room (R132). -/
theorem doNoticeHanded_bounded {s : State} (b : Blk) (h : s.Bounded) : (doNoticeHanded b s).Bounded := by
  unfold doNoticeHanded
  split
  · next hlt =>
    split
    · unfold State.handRegistration
      split
      · obtain ⟨h1, h2, h3, -, h5⟩ := h
        exact ⟨h1, h2, h3, by simpa using hlt, h5⟩
      · exact h
    · split
      · exact State.resumeWork_bounded _ h
      · exact h
  · exact h

/-! ### The line-up's commands -/

theorem State.commitArrival_bounded {s : State} {g : State → State} (hg : ∀ s : State, s.Bounded → (g s).Bounded)
    (h : s.Bounded) : (s.commitArrival g).Bounded := by
  unfold State.commitArrival
  split
  · exact h
  · exact h
  · exact hg _ h

theorem doCommit_bounded {s : State} (w : Word) (h : s.Bounded) : (doCommit w s).Bounded := by
  unfold doCommit
  split
  · refine State.arrive_bounded _ _ (fun s h => State.commitArrival_bounded (fun s h => ?_) h) h
    split
    · exact h
    · split
      · exact h
      · exact h
      · exact h
      · exact State.readPart_bounded _ (State.ask_bounded _ _ h)
  · exact h

theorem doWithdraw_bounded {s : State} (w : Word) (h : s.Bounded) : (doWithdraw w s).Bounded := by
  unfold doWithdraw
  split
  · refine State.arrive_bounded _ _ (fun s h => State.commitArrival_bounded (fun s h => ?_) h) h
    split
    · exact h
    · split
      · exact h
      · split
        · exact h
        · exact State.ask_bounded _ _ h
      · exact h
  · exact h

theorem doCommitBadAction_bounded {s : State} (w : Word) (h : s.Bounded) : (doCommitBadAction w s).Bounded := by
  unfold doCommitBadAction
  split
  · exact h
  · exact State.arrive_bounded _ _ (fun s h => State.commitArrival_bounded (fun s h => h) h) h

theorem doValidationBurst_bounded {s : State} (h : s.Bounded) : (doValidationBurst s).Bounded := by
  unfold doValidationBurst
  split
  · exact State.completeBurst_bounded h
  · exact h

theorem doEpochSwitch_bounded {s : State} (h : s.Bounded) : (doEpochSwitch s).Bounded := by
  unfold doEpochSwitch
  split
  · split
    · exact State.asks_bounded _ _ (State.Bounded.congr (State.tookRead_bounded .lineUp h) rfl rfl rfl rfl)
    · exact h
  · exact h

/-! ### The feeder engines' commands -/

/-- A start report enters the report queue only while it has room (R4). -/
theorem State.startReport_bounded {s : State} (cmd : TapCmd) (e : EntryId) (p : Port) (h : s.Bounded)
    (hroom : s.order.reports.length < Config.orderReportDepth) : (s.startReport cmd e p).Bounded := by
  obtain ⟨h1, -, h3⟩ := h
  exact ⟨h1, by simpa [State.startReport] using hroom, h3⟩

theorem State.startWork_bounded {s : State} (f : Feeder) (mark : Bool) (c : WorkChoice) (hroom : s.reportRoom c = true)
    (h : s.Bounded) : (s.startWork f mark c).Bounded := by
  cases c with
  | setPort e p =>
    exact State.setEng_bounded _ _ (State.startReport_bounded .setPort e p
      (State.setTapPort_bounded e p { s.tapPort e p with reapply := false } h) (of_decide_eq_true hroom))
  | read e paced =>
    have hlt : s.order.reports.length < Config.orderReportDepth := of_decide_eq_true hroom
    unfold State.startWork
    dsimp only
    refine State.setEng_bounded _ _ (State.startReport_bounded .read e 0 ?_ ?_) <;> cases paced
    · exact h
    · exact State.startPaced_bounded f h
    · exact hlt
    · rw [if_pos rfl, s.startPaced_order f]
      exact hlt
  | probe => exact h

theorem doTransactionStart_bounded {s : State} (f : Feeder) (mark : Bool) (h : s.Bounded) :
    (doTransactionStart f mark s).Bounded := by
  unfold doTransactionStart
  split
  · cases s.workChoice f with
    | none => exact h
    | some c =>
      dsimp only
      split
      · next hroom => exact State.startWork_bounded f mark c hroom h
      · exact h
  split
  · split
    · exact State.beginCall_bounded _ _ (State.setEng_bounded _ _ h)
    · exact h
  · exact h

theorem doAttemptGapEnd_bounded {s : State} (f : Feeder) (mark : Bool) (h : s.Bounded) :
    (doAttemptGapEnd f mark s).Bounded := by
  unfold doAttemptGapEnd
  dsimp only
  (repeat' split) <;> exact h

theorem doReceiveLineToMark_bounded {s : State} (f : Feeder) (h : s.Bounded) : (doReceiveLineToMark f s).Bounded := by
  unfold doReceiveLineToMark
  dsimp only
  (repeat' split) <;> exact h

theorem State.blockFeeder_bounded {s : State} (f : Feeder) (cut : Bool) (alarm : Task) (h : s.Bounded) :
    (s.blockFeeder f cut alarm).Bounded :=
  State.push_bounded _ _ (State.pushCalls_bounded _ (State.blockEnum_bounded _ _
    (State.setBlockedCheck_bounded _ _ (State.setEng_bounded _ _ (State.takeHanded_bounded f h)))))

theorem doLineStuck_bounded {s : State} (f : Feeder) (h : s.Bounded) : (doLineStuck f s).Bounded := by
  unfold doLineStuck
  split
  · exact State.blockFeeder_bounded _ _ _ h
  · exact h

theorem doTransmitterFault_bounded {s : State} (f : Feeder) (h : s.Bounded) : (doTransmitterFault f s).Bounded := by
  unfold doTransmitterFault
  split
  · exact State.blockFeeder_bounded _ _ _ h
  · exact h

theorem doBlockedLineCheckExpiry_bounded {s : State} (f : Feeder) (h : s.Bounded) :
    (doBlockedLineCheckExpiry f s).Bounded := by
  unfold doBlockedLineCheckExpiry
  split <;> exact h

theorem doBlockedLineCheckSpace_bounded {s : State} (f : Feeder) (h : s.Bounded) :
    (doBlockedLineCheckSpace f s).Bounded := by
  unfold doBlockedLineCheckSpace
  split <;> exact h

theorem doFeederClear_bounded {s : State} (f : Feeder) (h : s.Bounded) : (doFeederClear f s).Bounded := by
  unfold doFeederClear
  dsimp only
  split
  · exact State.push_bounded _ _ h
  · exact h

/-! ### The Tap Directory's commands -/

theorem State.takeOutcome_bounded {s : State} (f : Feeder) (mark : Bool) (mine : Outcome → Bool) (h : s.Bounded) :
    (s.takeOutcome f mark mine).Bounded := by
  unfold State.takeOutcome
  split
  · exact h
  · split
    · exact State.pushCalls_bounded _ (State.outcomeEffect_bounded _ _ (State.setEng_bounded _ _ h))
    · exact h

theorem doPacingTimerExpiry_bounded {s : State} (f : Feeder) (h : s.Bounded) : (doPacingTimerExpiry f s).Bounded := by
  unfold doPacingTimerExpiry
  split
  · exact State.advanceRoll_bounded _ _ (State.setPacing_bounded _ _ h)
  · exact h

theorem State.enumArrival_bounded {s : State} (w : Word) (mode : Option EnumMode) (h : s.Bounded) :
    (s.enumArrival w mode).Bounded := by
  unfold State.enumArrival
  split
  · exact h
  · exact h
  · exact h
  · exact h
  split
  · exact h
  · exact h
  split
  · exact h
  split
  · exact h
  · have hf : ∀ (fs : List Feeder) (m : EnumMode),
        (fs.foldl (fun s f => s.setEng f { s.eng f with request := some m }) s).Bounded := fun fs m =>
      State.Bounded.foldl (fun s f h => State.setEng_bounded _ _ h) fs h
    exact (hf _ _).congr rfl rfl rfl rfl

theorem doEnumerateFresh_bounded {s : State} (w : Word) (h : s.Bounded) : (doEnumerateFresh w s).Bounded := by
  unfold doEnumerateFresh
  split
  · exact State.arrive_bounded _ _ (fun s h => State.enumArrival_bounded _ _ h) h
  · exact h

theorem doEnumerateExtend_bounded {s : State} (w : Word) (h : s.Bounded) : (doEnumerateExtend w s).Bounded := by
  unfold doEnumerateExtend
  split
  · exact State.arrive_bounded _ _ (fun s h => State.enumArrival_bounded _ _ h) h
  · exact h

theorem doEnumerateBadAction_bounded {s : State} (w : Word) (h : s.Bounded) : (doEnumerateBadAction w s).Bounded := by
  unfold doEnumerateBadAction
  split
  · exact h
  · exact State.arrive_bounded _ _ (fun s h => State.enumArrival_bounded _ _ h) h

theorem doEnumerationRequestTaken_bounded {s : State} (f : Feeder) (mark : Bool) (h : s.Bounded) :
    (doEnumerationRequestTaken f mark s).Bounded := by
  unfold doEnumerationRequestTaken
  dsimp only
  split
  · split
    · exact h
    · split
      · exact State.push_bounded _ _ (State.setEng_bounded _ _ h)
      · exact State.pushCalls_bounded _ h
  · exact h

/-! ### The alarm block's commands -/

/-- A report leaves the correlator's queue, and its work keeps the bounds if what it gives does (R98). -/
theorem State.takeCorr_bounded {s : State} {g : CorrReport → State → Option (State × CorrWork)}
    (hg : ∀ r (s : State) x, s.Bounded → g r s = some x → x.1.Bounded) (h : s.Bounded) : (s.takeCorr g).Bounded := by
  unfold State.takeCorr
  split
  · exact h
  · next r rest hr =>
    split
    · split
      · next s1 w he =>
        refine State.settle_bounded (State.push_bounded _ _ (State.storeCorr_bounded _ (hg _ _ _ ?_ he)))
        obtain ⟨h1, h2, h3, h4⟩ := h
        exact ⟨h1, h2, (Nat.le_succ _).trans (by simpa [hr] using h3), h4⟩
      · exact h
    · exact h

theorem doLostReport_bounded {s : State} (h : s.Bounded) : (doLostReport s).Bounded := by
  refine State.takeCorr_bounded (fun r s x hs hx => ?_) h
  split at hx <;> cases hx
  exact hs

theorem doReturnReport_bounded {s : State} (h : s.Bounded) : (doReturnReport s).Bounded := by
  refine State.takeCorr_bounded (fun r s x hs hx => ?_) h
  split at hx <;> cases hx
  exact hs

theorem doVacateReport_bounded {s : State} (h : s.Bounded) : (doVacateReport s).Bounded := by
  refine State.takeCorr_bounded (fun r s x hs hx => ?_) h
  split at hx <;> cases hx
  exact hs

theorem doEnumerationStartReport_bounded {s : State} (h : s.Bounded) : (doEnumerationStartReport s).Bounded := by
  refine State.takeCorr_bounded (fun r s x hs hx => ?_) h
  split at hx <;> cases hx
  exact hs

theorem doEnumerationEndReport_bounded {s : State} (h : s.Bounded) : (doEnumerationEndReport s).Bounded := by
  refine State.takeCorr_bounded (fun r s x hs hx => ?_) h
  split at hx <;> cases hx
  exact hs

theorem doSupplyLowReport_bounded {s : State} (h : s.Bounded) : (doSupplyLowReport s).Bounded := by
  refine State.takeCorr_bounded (fun r s x hs hx => ?_) h
  split at hx <;> cases hx
  exact hs

theorem doSupplyClearReport_bounded {s : State} (h : s.Bounded) : (doSupplyClearReport s).Bounded := by
  refine State.takeCorr_bounded (fun r s x hs hx => ?_) h
  split at hx <;> cases hx
  exact hs

theorem State.releaseEngines_bounded {s : State} (h : s.Bounded) : s.releaseEngines.Bounded := by
  refine State.Bounded.foldl (fun s f h => ?_) _ h
  split
  · exact State.resumeWork_bounded _ h
  · exact h

theorem doAlarmSubmissionTaken_bounded {s : State} (b : Blk) (h : s.Bounded) : (doAlarmSubmissionTaken b s).Bounded := by
  unfold doAlarmSubmissionTaken
  split
  · split
    · split
      · exact State.releaseEngines_bounded (State.resumeWork_bounded _ h)
      · exact State.resumeWork_bounded _ h
    · exact h
  · exact h

/-- An entry of the intake that is written or dropped leaves it (R108, R110). -/
theorem State.Bounded.intake_tail {s : State} (h : s.Bounded) {a : AlarmEntry} {rest : List AlarmEntry}
    (hr : s.log.intake = a :: rest) : rest.length ≤ Config.intakeDepth :=
  (Nat.le_succ _).trans (by simpa [hr] using h.2.2.2.2)

theorem doLogWrite_bounded {s : State} (h : s.Bounded) : (doLogWrite s).Bounded := by
  unfold doLogWrite
  split
  · exact h
  · next a rest hr =>
    split
    · exact State.ask_bounded _ _ ⟨h.1, h.2.1, h.2.2.1, h.2.2.2.1, h.intake_tail hr⟩
    · exact h

theorem doLogEntryWritten_bounded {s : State} (h : s.Bounded) : (doLogEntryWritten s).Bounded := by
  unfold doLogEntryWritten
  split
  · exact State.completeBurst_bounded h
  · exact h

theorem doLogDrop_bounded {s : State} (h : s.Bounded) : (doLogDrop s).Bounded := by
  unfold doLogDrop
  split
  · exact h
  · next a rest hr =>
    split
    · exact ⟨h.1, h.2.1, h.2.2.1, h.2.2.2.1, h.intake_tail hr⟩
    · exact h

theorem doLogOverflowed_bounded {s : State} (h : s.Bounded) : (doLogOverflowed s).Bounded := by
  unfold doLogOverflowed
  split
  · exact State.ask_bounded _ _ h
  · exact h

theorem doLogConsumer_bounded {s : State} (w : Word) (h : s.Bounded) : (doLogConsumer w s).Bounded := by
  refine State.arrive_bounded _ _ (fun s h => ?_) h
  dsimp only
  split
  · exact h
  split
  · refine State.evalLog_bounded ⟨h.1, h.2.1, h.2.2.1, h.2.2.2.1, ?_⟩
    rw [AlarmLog.takeConsumer_intake]
    exact h.2.2.2.2
  · exact h

/-! ### The scanner's commands -/

theorem State.scanArrival_bounded {s : State} (w : Word) (mode : Option ScanMode) (h : s.Bounded) :
    (s.scanArrival w mode).Bounded := by
  unfold State.scanArrival
  split
  · exact h
  · exact h
  split
  · split
    · exact State.ask_bounded _ _ h
    · exact h
  · exact h

theorem doScanOff_bounded {s : State} (w : Word) (h : s.Bounded) : (doScanOff w s).Bounded := by
  unfold doScanOff
  split
  · exact State.arrive_bounded _ _ (fun s h => State.scanArrival_bounded _ _ h) h
  · exact h

theorem doScanOnce_bounded {s : State} (w : Word) (h : s.Bounded) : (doScanOnce w s).Bounded := by
  unfold doScanOnce
  split
  · exact State.arrive_bounded _ _ (fun s h => State.scanArrival_bounded _ _ h) h
  · exact h

theorem doScanPeriodic_bounded {s : State} (w : Word) (h : s.Bounded) : (doScanPeriodic w s).Bounded := by
  unfold doScanPeriodic
  split
  · exact State.arrive_bounded _ _ (fun s h => State.scanArrival_bounded _ _ h) h
  · exact h

theorem doScanContinuous_bounded {s : State} (w : Word) (h : s.Bounded) : (doScanContinuous w s).Bounded := by
  unfold doScanContinuous
  split
  · exact State.arrive_bounded _ _ (fun s h => State.scanArrival_bounded _ _ h) h
  · exact h

theorem doScanBadAction_bounded {s : State} (w : Word) (h : s.Bounded) : (doScanBadAction w s).Bounded := by
  unfold doScanBadAction
  split
  · exact h
  · exact State.arrive_bounded _ _ (fun s h => State.scanArrival_bounded _ _ h) h

theorem doScanIntervalExpiry_bounded {s : State} (h : s.Bounded) : (doScanIntervalExpiry s).Bounded := by
  unfold doScanIntervalExpiry
  split
  · dsimp only
    split
    · split
      · exact State.ask_bounded _ _ h
      · exact h
    · exact h
  · exact h

theorem doSequenceStart_bounded {s : State} (h : s.Bounded) : (doSequenceStart s).Bounded := by
  unfold doSequenceStart
  split
  · exact State.startSequence_bounded h
  · exact h

theorem doSettleEnd_bounded {s : State} (h : s.Bounded) : (doSettleEnd s).Bounded := by
  unfold doSettleEnd
  split <;> exact h

theorem doConversionEnd_bounded {s : State} (code : BitVec 12) (h : s.Bounded) : (doConversionEnd code s).Bounded := by
  unfold doConversionEnd
  split
  · split
    · refine State.push_bounded _ _ ?_
      split <;> exact h
    · exact h
  · exact h

theorem doLineupSwitchReport_bounded {s : State} (h : s.Bounded) : (doLineupSwitchReport s).Bounded := by
  unfold doLineupSwitchReport
  split
  · have hn : ∀ (b : Bool) (t : State), t.Bounded → (if b then t.nextSample else t).Bounded := by
      intro b t ht
      cases b
      · exact ht
      · exact State.nextSample_bounded ht
    exact State.runTasks_bounded _ _ (hn _ _ (State.asks_bounded _ _ h))
  · exact h

/-! ### The Billing Unit's commands -/

theorem doCloseOut_bounded {s : State} (w : Word) (h : s.Bounded) : (doCloseOut w s).Bounded := by
  refine State.arrive_bounded _ _ (fun s h => ?_) h
  split
  · exact h
  · exact h
  · exact h
  · exact h
  split
  · exact h
  split
  · exact h
  · exact State.ask_bounded _ _ h

theorem doCloseRegistrationQueued_bounded {s : State} (h : s.Bounded) : (doCloseRegistrationQueued s).Bounded := by
  unfold doCloseRegistrationQueued
  split
  · exact State.completeBurst_bounded h
  · exact h

theorem State.sweepStarted_bounded {s : State} (v : State) (h : s.Bounded) : (s.sweepStarted v).Bounded := by
  unfold State.sweepStarted
  split
  · exact State.push_bounded _ _ h
  · exact h

/-- A registration that is handled leaves the Notice Queue (R133). -/
theorem State.Bounded.notices_tail {s : State} (h : s.Bounded) {q : QEntry} {rest : List QEntry}
    (hq : s.bill.queue = q :: rest) : rest.length ≤ Config.noticeDepth :=
  (Nat.le_succ _).trans (by simpa [hq] using h.2.2.2.1)

theorem doCloseRegistration_bounded {s : State} (h : s.Bounded) : (doCloseRegistration s).Bounded := by
  unfold doCloseRegistration
  split
  · next minute number rest hq =>
    dsimp only
    split
    · refine State.stepMade_bounded _ _ (State.sweepStarted_bounded _ ?_)
      obtain ⟨h1, h2, h3, -, h5⟩ := State.tookReads_bounded .billing (s.entryReads (.closeReg minute number)) h
      exact ⟨h1, h2, h3, h.notices_tail hq, h5⟩
    · exact h
  · exact h

theorem doEpochRegistration_bounded {s : State} (h : s.Bounded) : (doEpochRegistration s).Bounded := by
  unfold doEpochRegistration
  split
  · next minute number rest hq =>
    dsimp only
    split
    · refine State.stepMade_bounded _ _ (State.sweepStarted_bounded _ ?_)
      obtain ⟨h1, h2, h3, -, h5⟩ := State.tookReads_bounded .billing (s.entryReads (.epochReg minute number)) h
      exact ⟨h1, h2, h3, h.notices_tail hq, h5⟩
    · exact h
  · exact h

theorem State.handleNotice_bounded {s : State} (work : NoticeKind → Option (Nat → BillRec → NoticeWork)) (h : s.Bounded) :
    (s.handleNotice work).Bounded := by
  unfold State.handleNotice
  split
  · split
    · split
      · exact State.noTurn_bounded _ (State.push_bounded _ _ (State.tookRead_bounded _ h))
      · exact h
    · exact h
  · exact h

theorem doEnrolInit_bounded {s : State} (h : s.Bounded) : (doEnrolInit s).Bounded := by
  unfold doEnrolInit
  split
  · split
    · exact State.noTurn_bounded _ (State.push_bounded _ _ (State.tookRead_bounded _ h))
    · exact h
  · exact h

theorem doOverlapAnswer_bounded {s : State} (h : s.Bounded) : (doOverlapAnswer s).Bounded := by
  unfold doOverlapAnswer
  split
  · split
    · exact State.resumeWork_bounded _ h
    · exact h
  · exact h

theorem doSweepStep_bounded {s : State} (h : s.Bounded) : (doSweepStep s).Bounded := by
  unfold doSweepStep
  split
  · exact State.noTurn_bounded _ (State.push_bounded _ _ (State.tookReads_bounded _ _ h))
  · exact h

/-! ### The computer port's commands -/

theorem doComputerRead_bounded {s : State} (addr : WordAddr) (h : s.Bounded) : (doComputerRead addr s).Bounded := by
  unfold doComputerRead
  (repeat' split) <;> exact h.congr rfl rfl rfl rfl

theorem doComputerWrite_bounded {s : State} (addr : WordAddr) (be : BitVec 4) (data : Word) (h : s.Bounded) :
    (doComputerWrite addr be data s).Bounded := by
  have hp : ∀ (t : State) (c : Cycle), t.Bounded → (t.present c).Bounded := fun _ _ ht => ht
  unfold doComputerWrite
  dsimp only
  split
  · exact h
  split
  · exact State.suppress_bounded _ h
  split
  · split
    · (repeat' split) <;> exact h
    · exact hp _ _ (State.bankEdit_bounded _ h)
    · exact hp _ _ (State.bankEdit_bounded _ h)
    · exact h
  · exact h

theorem doPendingSubmissionHanded_bounded {s : State} (h : s.Bounded) : (doPendingSubmissionHanded s).Bounded := by
  unfold doPendingSubmissionHanded
  split
  · exact h
  split
  · exact h
  split
  · next hlt => exact ⟨h.1, h.2.1, h.2.2.1, h.2.2.2.1, by simpa using hlt⟩
  · exact h

theorem doPassedCycleCarried_bounded {s : State} (h : s.Bounded) : (doPassedCycleCarried s).Bounded := by
  unfold doPassedCycleCarried
  split
  · exact State.carry_bounded _ h
  · exact h

/-! ### Every command -/

/-- Every command goes to a state whose queues are within their depths. -/
theorem exec_bounded (c : Instr) {s t : State} (h : s.Bounded) (ht : exec c s = .next t) : t.Bounded := by
  cases c <;> cases ht
  case powerOn | resetLine | resetLineHeld => exact State.afterReset_bounded _ _ _ _
  case enrol | connect | disconnect | retier | move | buy | cancel | audit | remove =>
    exact State.dispatch_bounded _ h
  case collision | callSent | answerStartBit | answerWindowExpiry | answerCharacter | answerCharacterTimeout |
      answerTailStartBit | answerTailEnd =>
    exact State.onPhase_bounded _ _ _ h
  case readOutcomeOk | setPortOutcomeOk | outcomeFailed | staleOutcome | probeOutcome | forgetOutcome |
      enumIdentifyOutcome | assignOutcome =>
    exact State.takeOutcome_bounded _ _ _ h
  case awaitService | startService | stopService | moveNotice | retierNotice | outageBegin | outageEnd | ppvCharge | ppvSettle =>
    exact State.handleNotice_bounded _ h
  case memoryPortGrant => exact State.grant_bounded h
  case burstComplete => exact State.completeBurst_bounded h
  case computerRead => exact doComputerRead_bounded _ h
  case computerWrite => exact doComputerWrite_bounded _ _ _ h
  case pendingSubmissionHanded => exact doPendingSubmissionHanded_bounded h
  case passedCycleCarried => exact doPassedCycleCarried_bounded h
  case run => exact doRun_bounded _ h
  case halt => exact doHalt_bounded _ h
  case restart => exact doRestart_bounded _ h
  case clearStatus => exact doClearStatus_bounded _ h
  case controlBadAction => exact doControlBadAction_bounded _ h
  case configurationCheck => exact doConfigurationCheck_bounded h
  case directoryLoadEntry => exact doDirectoryLoadEntry_bounded h
  case billingLoad => exact doBillingLoad_bounded h
  case carrierLossLoad => exact doCarrierLossLoad_bounded h
  case subscriberPassStep => exact doSubscriberPassStep_bounded h
  case lineupStartup => exact doLineupStartup_bounded h
  case scannerStartup => exact doScannerStartup_bounded h
  case outageRebuild => exact doOutageRebuild_bounded h
  case reconciliationStep => exact doReconciliationStep_bounded h
  case entryToRunning => exact doEntryToRunning_bounded h
  case haltedEntry => exact doHaltedEntry_bounded h
  case minuteEvent => exact doMinuteEvent_bounded h
  case halfSecondTick => exact doHalfSecondTick_bounded h
  case timeSet => exact doTimeSet_bounded _ h
  case heartbeat => exact doHeartbeat_bounded _ h
  case supervisionExpiry => exact doSupervisionExpiry_bounded h
  case orderArrival => exact doOrderArrival_bounded _ _ h
  case backlogWalkStep => exact doBacklogWalkStep_bounded h
  case badOrder => exact doBadOrder_bounded h
  case transactionReport => exact doTransactionReport_bounded h
  case confirmation => exact doConfirmation_bounded h
  case lostTapReport => exact doLostTapReport_bounded h
  case blockedReport => exact doBlockedReport_bounded h
  case eventStartReport => exact doEventStartReport_bounded h
  case eventEndReport => exact doEventEndReport_bounded h
  case eventDropReport => exact doEventDropReport_bounded h
  case overlapReport => exact doOverlapReport_bounded h
  case settleAnswer => exact doSettleAnswer_bounded h
  case refreshRequest => exact doRefreshRequest_bounded h
  case noticeHanded => exact doNoticeHanded_bounded _ h
  case commit => exact doCommit_bounded _ h
  case withdraw => exact doWithdraw_bounded _ h
  case commitBadAction => exact doCommitBadAction_bounded _ h
  case validationBurst => exact doValidationBurst_bounded h
  case epochSwitch => exact doEpochSwitch_bounded h
  case transactionStart => exact doTransactionStart_bounded _ _ h
  case attemptGapEnd => exact doAttemptGapEnd_bounded _ _ h
  case receiveLineToMark => exact doReceiveLineToMark_bounded _ h
  case lineStuck => exact doLineStuck_bounded _ h
  case transmitterFault => exact doTransmitterFault_bounded _ h
  case blockedLineCheckExpiry => exact doBlockedLineCheckExpiry_bounded _ h
  case blockedLineCheckSpace => exact doBlockedLineCheckSpace_bounded _ h
  case feederClear => exact doFeederClear_bounded _ h
  case pacingTimerExpiry => exact doPacingTimerExpiry_bounded _ h
  case enumerateFresh => exact doEnumerateFresh_bounded _ h
  case enumerateExtend => exact doEnumerateExtend_bounded _ h
  case enumerateBadAction => exact doEnumerateBadAction_bounded _ h
  case enumerationRequestTaken => exact doEnumerationRequestTaken_bounded _ _ h
  case lostReport => exact doLostReport_bounded h
  case returnReport => exact doReturnReport_bounded h
  case vacateReport => exact doVacateReport_bounded h
  case enumerationStartReport => exact doEnumerationStartReport_bounded h
  case enumerationEndReport => exact doEnumerationEndReport_bounded h
  case supplyLowReport => exact doSupplyLowReport_bounded h
  case supplyClearReport => exact doSupplyClearReport_bounded h
  case alarmSubmissionTaken => exact doAlarmSubmissionTaken_bounded _ h
  case logWrite => exact doLogWrite_bounded h
  case logEntryWritten => exact doLogEntryWritten_bounded h
  case logDrop => exact doLogDrop_bounded h
  case logOverflowed => exact doLogOverflowed_bounded h
  case logConsumer => exact doLogConsumer_bounded _ h
  case scanOff => exact doScanOff_bounded _ h
  case scanOnce => exact doScanOnce_bounded _ h
  case scanPeriodic => exact doScanPeriodic_bounded _ h
  case scanContinuous => exact doScanContinuous_bounded _ h
  case scanBadAction => exact doScanBadAction_bounded _ h
  case scanIntervalExpiry => exact doScanIntervalExpiry_bounded h
  case sequenceStart => exact doSequenceStart_bounded h
  case settleEnd => exact doSettleEnd_bounded h
  case conversionEnd => exact doConversionEnd_bounded _ h
  case lineupSwitchReport => exact doLineupSwitchReport_bounded h
  case closeOut => exact doCloseOut_bounded _ h
  case closeRegistrationQueued => exact doCloseRegistrationQueued_bounded h
  case closeRegistration => exact doCloseRegistration_bounded h
  case epochRegistration => exact doEpochRegistration_bounded h
  case enrolInit => exact doEnrolInit_bounded h
  case overlapAnswer => exact doOverlapAnswer_bounded h
  case sweepStep => exact doSweepStep_bounded h

/-- Settles O4: the command at the front of the queue keeps the five bounds, and an idle step changes nothing. -/
theorem everyStepKeepsTheQueuesBounded : Obligations.EveryStepKeepsTheQueuesBounded := by
  intro s t h ht
  unfold step at ht
  split at ht
  · cases ht
    exact h
  · next c rest _ => exact exec_bounded c (s := { s with pending := rest }) h ht

end Sys2Proof.Machine
end

section
/-! Order arrivals and the checks of an order: what the Order Unit makes of an index that arrives, and what each kind is
refused for (O26, O29). -/

open Sys2Proof

namespace Sys2Proof.Machine

/-- The owner of an order arrival that waits first takes it (R5, R171). -/
theorem doOrderArrival_first (i : Nat) (w : Word) (s : State) (hm : s.path.map.isSome = true) (hi : i < s.map.ns)
    (hf : s.first (.order i) w) : doOrderArrival i w s = s.popped.takeOrder i w := by
  rw [doOrderArrival, if_pos hm, if_pos hi, s.arrive_spec _ _ _ hf]

theorem State.dispatching_iff (s : State) (i : Nat) :
    s.dispatching i = true ↔
      (∃ x, s.order.taken = some x ∧ x.sub = i) ∨ ∃ o, Task.applyOrder o ∈ s.order.work ∧ o.sub = i := by
  have hd : ∀ t : Task, Task.dispatches i t = true ↔ ∃ o, t = .applyOrder o ∧ o.sub = i := by
    intro t
    cases t <;> simp [Task.dispatches]
  simp only [State.dispatching, Bool.or_eq_true, Option.any_eq_true, beq_iff_eq, List.any_eq_true, hd]
  refine or_congr Iff.rfl ⟨?_, ?_⟩
  · rintro ⟨t, ht, o, rfl, ho⟩
    exact ⟨o, ht, ho⟩
  · rintro ⟨o, ht, ho⟩
    exact ⟨_, ht, o, rfl, ho⟩

theorem State.knows_iff (s : State) (i : Nat) :
    s.knows i = true ↔ i ∈ s.order.queue ∨ (∃ x ∈ s.order.inflight, x.sub = i) ∨ s.dispatching i = true := by
  simp [State.knows, or_assoc]

theorem State.enqueue_room (s : State) (i : Nat) (h : s.order.queue.length < 32) :
    s.enqueue i = { s.keepTurn .orderUnit with order := { s.order with
      queue := s.order.queue ++ [i]
      walk := if s.order.queue.length + 1 = 32 then none else s.order.walk } } := if_pos h

theorem State.enqueue_full (s : State) (i : Nat) (h : 32 ≤ s.order.queue.length) :
    s.enqueue i = { s with order := { s.order with
      backlog := true, walk := s.order.walk.map fun w => { w with full := true } } } := if_neg (Nat.not_lt.2 h)

/-! ### What becomes of an index that arrives (R5) -/

section
variable {s : State} {i : Nat} {w : Word}

theorem State.takeOrder_none (hk : bits w 0 8 = 0) : s.takeOrder i w = s := if_pos hk

theorem State.takeOrder_queued (hk : bits w 0 8 ≠ 0) (hq : i ∈ s.order.queue) : s.takeOrder i w = s := by
  rw [State.takeOrder, if_neg hk, if_pos (List.contains_iff_mem.2 hq)]

theorem State.takeOrder_inflight (hk : bits w 0 8 ≠ 0) (hq : i ∉ s.order.queue) (hx : ∃ x ∈ s.order.inflight, x.sub = i) :
    s.takeOrder i w = { s with order := { s.order with
      inflight := s.order.inflight.map fun x => if x.sub = i then { x with reorder := true } else x } } := by
  rw [State.takeOrder, if_neg hk, if_neg (by simpa using hq), if_pos (by simpa using hx)]

theorem State.takeOrder_dispatching (hk : bits w 0 8 ≠ 0) (hq : i ∉ s.order.queue)
    (hx : ∀ x ∈ s.order.inflight, x.sub ≠ i) (hd : s.dispatching i = true) :
    s.takeOrder i w = { s with order := s.order.noteReorder i } := by
  rw [State.takeOrder, if_neg hk, if_neg (by simpa using hq), if_neg (by simpa using hx), if_pos hd]

theorem State.takeOrder_new (hk : bits w 0 8 ≠ 0) (hq : i ∉ s.order.queue) (hx : ∀ x ∈ s.order.inflight, x.sub ≠ i)
    (hd : s.dispatching i = false) : s.takeOrder i w = s.enqueue i := by
  rw [State.takeOrder, if_neg hk, if_neg (by simpa using hq), if_neg (by simpa using hx), if_neg (by simp [hd])]

end

/-- Settles O26, by the branches of `State.takeOrder`. -/
theorem orderArrivals : Obligations.OrderArrivals := by
  intro i w s hm hi hf
  have hgo : exec (.orderArrival i w) s = .next (s.popped.takeOrder i w) :=
    congrArg Host.Outcome.next (doOrderArrival_first i w s hm hi hf)
  rw [hgo]
  refine ⟨fun hk => ?_, fun hk => ⟨fun hq => ?_, fun hq hx => ?_, fun hq hx hd => ?_, s.dispatching_iff i,
    fun hq hx hd => ⟨fun hlt => ?_, fun hge => ?_⟩⟩⟩
  · rw [State.takeOrder_none hk]
  · rw [State.takeOrder_queued hk (s := s.popped) hq]
  · rw [State.takeOrder_inflight hk (s := s.popped) hq hx]
    rfl
  · rw [State.takeOrder_dispatching hk (s := s.popped) hq hx hd]
    rfl
  · rw [State.takeOrder_new hk (s := s.popped) hq hx hd, State.enqueue_room s.popped i hlt]
    rfl
  · rw [State.takeOrder_new hk (s := s.popped) hq hx hd, State.enqueue_full s.popped i hge]
    exact ⟨_, rfl, rfl, rfl, rfl, fun _ => rfl⟩

/-! ### The refusals of each kind (R10–R18) -/

theorem State.claimedByOther_of_claim {s : State} {e : EntryId} {p : Port} {i j : Nat}
    (hc : (s.tapPort e p).claim = some j) (hj : j ≠ i) : s.claimedByOther e p i = true := by
  simp [State.claimedByOther, hc, hj]

theorem SubRec.freeSlot_eq_none (r : SubRec) : r.freeSlot = none ↔ ∀ j : Fin 4, r.slots[j].used = true := by
  simp [SubRec.freeSlot, List.find?_eq_none]

theorem Copy.eventState_of_slot {c : Copy} {id : Nat} {k : SlotId} (h : c.slotOfEvent id = some k) :
    c.eventState id = c.ev[k] := by
  simp [Copy.eventState, h]

theorem SubRec.any_used (r : SubRec) (k : Fin 4) (h : r.slots[k].used = true) : (r.slots.any fun p => p.used) = true :=
  Vector.any_eq_true.2 ⟨k, k.isLt, h⟩

theorem State.checkBuy_noSuchEvent {s : State} {r : SubRec} (hw : r.wantOn = true)
    (h : r.oarg = 0 ∨ s.active.slotOfEvent r.oarg = none) : s.checkBuy r = .refused .noSuchEvent := by
  simp [State.checkBuy, hw, if_pos h]

/-- The checks of a BUY of an event that the line-up holds, in their order (R15). -/
theorem State.checkBuy_of_slot {s : State} {r : SubRec} {k : SlotId} (hw : r.wantOn = true) (ha : r.oarg ≠ 0)
    (hk : s.active.slotOfEvent r.oarg = some k) :
    s.checkBuy r =
      if s.active.ev[k] = .ended then .refused .eventEnded
      else if r.slotOf r.oarg ≠ none then .refused .duplicate
      else if r.freeSlot = none then .refused .purchaseLimit
      else if 256 ≤ s.order.index.length then .refused .indexFull
      else .accepted [] none := by
  rw [State.checkBuy, if_neg (by simp [hw]), if_neg (by simp [ha, hk]), Copy.eventState_of_slot hk]
  rfl

/-- Settles O29, check by check. -/
theorem orderRefusals : Obligations.OrderRefusals := by
  intro s i r
  refine ⟨fun he => ?_, fun hc hn => ?_, fun e j hc he hj hne => ?_, fun hw => ?_, fun hc => ?_, fun hc hn => ?_,
    fun e hc he ho => ?_, fun hw => ?_, fun e j hc he ho hj hne => ?_, fun hw h => State.checkBuy_noSuchEvent hw h,
    fun k hw ha hk => ⟨fun h1 => ?_, fun h1 h2 => ?_, fun h1 h2 h3 => ?_, fun h1 h2 h3 h4 => ?_⟩, fun h => ?_,
    fun k hk ho => ?_, fun hc => ?_, fun h => ?_, fun hw hs h => ?_, fun k hw hs ha ho hk hc hr hu => ?_, rfl⟩
  · simp [State.judge, checkEnrol, he]
  · simp [State.judge, State.checkConnect, hc, hn]
  · simp [State.judge, State.checkConnect, hc, he, State.claimedByOther_of_claim hj hne]
  · simp [State.judge, checkDisconnect, hw]
  · simp [State.judge, State.checkMove, hc]
  · simp [State.judge, State.checkMove, hc, hn]
  · simp [State.judge, State.checkMove, hc, he, ho]
  · simp [State.judge, State.checkBuy, hw]
  · simp [State.judge, State.checkMove, hc, he, ho, State.claimedByOther_of_claim hj hne]
  · rw [State.judge, State.checkBuy_of_slot hw ha hk, if_pos h1]
  · rw [State.judge, State.checkBuy_of_slot hw ha hk, if_neg h1, if_pos h2]
  · rw [State.judge, State.checkBuy_of_slot hw ha hk, if_neg h1, if_neg (not_not.2 h2),
      if_pos ((SubRec.freeSlot_eq_none r).2 h3)]
  · have hfree : r.freeSlot ≠ none := fun h => by
      obtain ⟨j, hj⟩ := h3
      exact Bool.false_ne_true (hj.symm.trans ((SubRec.freeSlot_eq_none r).1 h j))
    rw [State.judge, State.checkBuy_of_slot hw ha hk, if_neg h1, if_neg (not_not.2 h2), if_neg hfree, if_pos h4]
  · simp [State.judge, checkCancel, h]
  · rw [State.judge, checkCancel, hk]
    exact if_pos ho
  · simp [State.judge, checkAudit, hc]
  · simp only [State.judge, State.checkRemove, if_pos h]
  · simp only [State.judge, State.checkRemove, if_pos h]
    simp [hw, hs]
  · simp [State.judge, State.checkRemove, hw, hs, ha, ho, hk, hc, hr, r.any_used k hu]

end Sys2Proof.Machine
end

section
/-! The layer under the orders: ports and claims after their changes, the record as the Order Unit reads it, the tasks of an
accepted order, and what becomes of it (R3, R7, R8, R24, R44). -/

open Sys2Proof

namespace Sys2Proof.Machine

/-! ### Ports after a change of a port (R73) -/

section
variable (s : State) (e : EntryId) (p : Port) (x : TapPort)

@[simp] theorem State.setTapPort_mem : (s.setTapPort e p x).mem = s.mem := rfl
@[simp] theorem State.setTapPort_path : (s.setTapPort e p x).path = s.path := rfl
@[simp] theorem State.setTapPort_order : (s.setTapPort e p x).order = s.order := rfl
@[simp] theorem State.setTapPort_lineUp : (s.setTapPort e p x).lineUp = s.lineUp := rfl
@[simp] theorem State.setTapPort_engines : (s.setTapPort e p x).engines = s.engines := rfl
@[simp] theorem State.setTapPort_bill : (s.setTapPort e p x).bill = s.bill := rfl

end

/-- A port changed reads as changed, and every other port as before. -/
@[simp] theorem State.tapPort_setTapPort (s : State) (e d : EntryId) (p q : Port) (x : TapPort) :
    (s.setTapPort e p x).tapPort d q = if e = d ∧ p = q then x else s.tapPort d q := by
  unfold State.setTapPort State.tapPort
  rw [State.entry_setEntry]
  by_cases hd : e = d
  · subst hd
    simp [Vector.getElem_set, Fin.ext_iff]
  · simp [hd]

/-- Entries other than that of the port changed stand. -/
theorem State.entry_setTapPort_ne (s : State) {e d : EntryId} (p : Port) (x : TapPort) (h : d ≠ e) :
    (s.setTapPort e p x).entry d = s.entry d := by
  rw [State.setTapPort, State.entry_setEntry, if_neg (Ne.symm h)]

@[simp] theorem State.entry_setTapPort_state (s : State) (e d : EntryId) (p : Port) (x : TapPort) :
    ((s.setTapPort e p x).entry d).state = (s.entry d).state := by
  rw [State.setTapPort, State.entry_setEntry]
  split
  · next h => rw [← h]
  · rfl

@[simp] theorem State.entry_setTapPort_place (s : State) (e d : EntryId) (p : Port) (x : TapPort) :
    ((s.setTapPort e p x).entry d).place = (s.entry d).place := by
  rw [State.setTapPort, State.entry_setEntry]
  split
  · next h => rw [← h]
  · rfl

/-! ### Claims (R3) -/

/-- The claims are read off the ports. -/
theorem State.claimOf_congr {s t : State} (i : Nat) (h : ∀ e p, (t.tapPort e p).claim = (s.tapPort e p).claim) :
    t.claimOf i = s.claimOf i := by
  unfold State.claimOf
  congr 1
  funext e
  congr 1
  congr 1
  funext p
  exact congrArg (· == some i) (h e p)

theorem State.claimOf_eq_none (s : State) (i : Nat) : s.claimOf i = none ↔ ∀ e p, (s.tapPort e p).claim ≠ some i := by
  simp [State.claimOf, State.tapPort]

/-- The port found is claimed by the subscriber. -/
theorem State.claim_of_claimOf {s : State} {i : Nat} {e : EntryId} {p : Port} (h : s.claimOf i = some (e, p)) :
    (s.tapPort e p).claim = some i := by
  obtain ⟨d, -, hd⟩ := List.exists_of_findSome?_eq_some h
  obtain ⟨q, hq, he⟩ := Option.map_eq_some_iff.1 hd
  cases he
  simpa [State.tapPort] using List.find?_some hq

/-- The one port that the subscriber has claimed is the port found. -/
theorem State.claimOf_of_unique {s : State} {i : Nat} {e : EntryId} {p : Port} (h : (s.tapPort e p).claim = some i)
    (hu : ∀ d q, (s.tapPort d q).claim = some i → (d, q) = (e, p)) : s.claimOf i = some (e, p) := by
  cases hc : s.claimOf i with
  | none => exact absurd h ((s.claimOf_eq_none i).1 hc e p)
  | some x => rw [← hu x.1 x.2 (State.claim_of_claimOf hc)]

/-- A change of a port that keeps its claim keeps every claim. -/
theorem State.claimOf_setTapPort {s : State} {e : EntryId} {p : Port} {x : TapPort} (i : Nat)
    (h : x.claim = (s.tapPort e p).claim) : (s.setTapPort e p x).claimOf i = s.claimOf i := by
  refine State.claimOf_congr i fun d q => ?_
  rw [State.tapPort_setTapPort]
  split
  · next hd => rw [h, hd.1, hd.2]
  · rfl

/-- A claim made for a subscriber without one is the one found. -/
theorem State.claimOf_makeClaim {s : State} {i : Nat} (e : EntryId) (p : Port) (h : s.claimOf i = none) :
    (s.makeClaim e p i).claimOf i = some (e, p) := by
  refine State.claimOf_of_unique (by simp [State.makeClaim]) fun d q hd => ?_
  rw [State.makeClaim, State.tapPort_setTapPort] at hd
  split at hd
  · next he => rw [he.1, he.2]
  · exact absurd hd ((s.claimOf_eq_none i).1 h d q)

/-! ### The record as the Order Unit reads it (R176) -/

/-- The record is read off the Order Unit's waiting writes, what holds the port, and memory. -/
theorem State.ownRec_congr {s t : State} (i : Nat) (hl : t.path.line .orderUnit = s.path.line .orderUnit)
    (hp : t.path.port = s.path.port) (hm : t.mem = s.mem) (hw : t.path.map = s.path.map) : t.ownRec i = s.ownRec i := by
  have hs : t.subWords i = s.subWords i := by rw [State.subWords, State.subWords, State.map, State.map, hm, hw]
  have hq : t.queuedSub i = s.queuedSub i := by rw [State.queuedSub, State.queuedSub, hl, hp]
  rw [State.ownRec, State.ownRec, State.subRec, State.subRec, hs, hq]

theorem MemPath.line_congr {p q : MemPath} (h : p.lines = q.lines) (r : Requester) : p.line r = q.line r := by
  rw [MemPath.line, MemPath.line, h]

@[simp] theorem State.tookRead_line (s : State) (r q : Requester) : (s.tookRead r).path.line q = s.path.line q :=
  MemPath.line_congr (s.tookRead_lines r) q

@[simp] theorem State.noTurn_line (s : State) (r q : Requester) : (s.noTurn r).path.line q = s.path.line q := rfl

/-- The step of a block ends a read of its own that holds the port, and touches no other use of it. -/
theorem State.tookRead_port_cases (s : State) (r : Requester) :
    (s.tookRead r).path.port = s.path.port ∨
      (s.tookRead r).path.port = .free ∧ ∃ a n x ws, s.path.port = .burst r (.read a n) x ws false := by
  have h : (s.tookRead r).path.port = (s.freeRead r).path.port := rfl
  rw [h, State.freeRead]
  split
  · next q a n x ws hp =>
    split
    · next hq => exact .inr ⟨rfl, a, n, x, ws, hq ▸ hp⟩
    · exact .inl rfl
  · exact .inl rfl

/-- The end of a read leaves what the Order Unit knows of a record. -/
@[simp] theorem State.ownRec_tookRead (s : State) (r : Requester) (i : Nat) : (s.tookRead r).ownRec i = s.ownRec i := by
  have hs : (s.tookRead r).subWords i = s.subWords i := by simp [State.subWords, State.map]
  have hq : (s.tookRead r).queuedSub i = s.queuedSub i := by
    rcases s.tookRead_port_cases r with hp | ⟨hp, a, n, x, ws, hb⟩
    · rw [State.queuedSub, State.queuedSub, State.tookRead_line, hp]
    · simp only [State.queuedSub, State.tookRead_line, hp, hb]
  rw [State.ownRec, State.ownRec, State.subRec, State.subRec, hs, hq]

end Sys2Proof.Machine
end

section
/-! The dispatch of an order: its refusals (O28), and the run of its tasks when it is accepted. -/

open Sys2Proof

namespace Sys2Proof.Machine

/-! ### An index put back (R9) -/

@[simp] theorem State.enqueue_order (s : State) (i : Nat) : (s.enqueue i).order = s.order.backAgain i true := by
  by_cases h : s.order.queue.length < 32
  · rw [State.enqueue_room s i h]
    simp [OrderUnit.backAgain, h]
  · rw [State.enqueue_full s i (Nat.not_lt.1 h)]
    simp [OrderUnit.backAgain, h]

@[simp] theorem State.enqueue_keeps (s : State) (i : Nat) :
    (s.enqueue i).dir = s.dir ∧ (s.enqueue i).bill = s.bill ∧ (s.enqueue i).engines = s.engines ∧
      (s.enqueue i).path.lines = s.path.lines := by
  unfold State.enqueue
  split <;> simp

@[simp] theorem State.putBack_order (s : State) (x : Dispatch) :
    (s.putBack x).order = s.order.backAgain x.sub x.reorder := by
  unfold State.putBack
  cases x.reorder
  · rfl
  · exact s.enqueue_order x.sub

@[simp] theorem State.putBack_keeps (s : State) (x : Dispatch) :
    (s.putBack x).dir = s.dir ∧ (s.putBack x).bill = s.bill ∧ (s.putBack x).engines = s.engines ∧
      (s.putBack x).path.lines = s.path.lines := by
  unfold State.putBack
  split <;> simp

@[simp] theorem State.putBack_line (s : State) (x : Dispatch) (r : Requester) :
    (s.putBack x).path.line r = s.path.line r := MemPath.line_congr (s.putBack_keeps x).2.2.2 r

/-! ### A record's burst (R1) -/

@[simp] theorem State.writeSub_line (s : State) (i : Nat) (r : SubRec) :
    (s.writeSub i r).path.line .orderUnit = s.path.line .orderUnit ++ [.sub i r.partWords false] := by
  rw [State.writeSub, State.ask_line, if_pos ⟨rfl, rfl⟩]

section
variable (s : State) (i : Nat) (r : SubRec)

@[simp] theorem State.writeSub_mem : (s.writeSub i r).mem = s.mem := State.ask_mem ..
@[simp] theorem State.writeSub_order : (s.writeSub i r).order = s.order := State.ask_order ..
@[simp] theorem State.writeSub_dir : (s.writeSub i r).dir = s.dir := State.ask_dir ..
@[simp] theorem State.writeSub_bill : (s.writeSub i r).bill = s.bill := State.ask_bill ..
@[simp] theorem State.writeSub_engines : (s.writeSub i r).engines = s.engines := State.ask_engines ..

end

/-! ### The end of a dispatch's reads (R7) -/

section
variable (s : State)

@[simp] theorem State.endDispatch_mem : s.endDispatch.mem = s.mem := s.tookRead_mem .orderUnit
@[simp] theorem State.endDispatch_time : s.endDispatch.time = s.time := s.tookRead_time .orderUnit
@[simp] theorem State.endDispatch_order : s.endDispatch.order = { s.order with taken := none } := by
  simp [State.endDispatch]
@[simp] theorem State.endDispatch_dir : s.endDispatch.dir = s.dir := s.tookRead_dir .orderUnit
@[simp] theorem State.endDispatch_bill : s.endDispatch.bill = s.bill := s.tookRead_bill .orderUnit
@[simp] theorem State.endDispatch_engines : s.endDispatch.engines = s.engines := s.tookRead_engines .orderUnit
@[simp] theorem State.endDispatch_lineUp : s.endDispatch.lineUp = s.lineUp := s.tookRead_lineUp .orderUnit
@[simp] theorem State.endDispatch_lines : s.endDispatch.path.lines = s.path.lines := s.tookRead_lines .orderUnit
@[simp] theorem State.endDispatch_line (r : Requester) : s.endDispatch.path.line r = s.path.line r :=
  s.tookRead_line .orderUnit r
@[simp] theorem State.ownRec_endDispatch (i : Nat) : s.endDispatch.ownRec i = s.ownRec i :=
  (State.ownRec_congr i rfl rfl rfl rfl).trans (s.ownRec_tookRead .orderUnit i)

end

/-! ### Dispatches (R7) -/

/-- The command of a kind is its dispatch. -/
theorem exec_orderCommand (kind : OrderKind) (s : State) : exec (orderCommand kind) s = .next (s.dispatch kind) := by
  cases kind <;> rfl

section
variable {s : State} {kind : OrderKind} {i : Nat} {reorder : Bool}

/-- A due order of a subscriber that is not enrolled is refused before its own checks. -/
theorem State.dispatch_notEnrolled (hd : s.dueOrder kind i reorder) (hk : kind ≠ .enrol)
    (he : (s.dispatched i).enrolled = false) :
    s.dispatch kind =
      ((s.endDispatch.refuse i (s.dispatched i) .notEnrolled).putBack { sub := i, reorder := reorder }).noTurn .orderUnit := by
  obtain ⟨ht, -, hr, hp, ho⟩ := hd
  simp [State.dispatch, ht, hr, hp, ho, hk, he]

/-- A due order is judged from memory as its reads have found it. -/
theorem State.dispatch_refused {res : OrderResult} (hd : s.dueOrder kind i reorder)
    (he : kind = .enrol ∨ (s.dispatched i).enrolled = true)
    (hj : (s.view .orderUnit).judge kind i (s.dispatched i) = .refused res) :
    s.dispatch kind =
      ((s.endDispatch.refuse i (s.dispatched i) res).putBack { sub := i, reorder := reorder }).noTurn .orderUnit := by
  obtain ⟨ht, -, hr, hp, ho⟩ := hd
  have hn : ¬ (kind ≠ .enrol ∧ (s.dispatched i).enrolled = false) := by
    rintro ⟨hk, hf⟩
    simp [hk, hf] at he
  simp [State.dispatch, ht, hr, hp, ho, hj, if_neg hn]

theorem State.dispatch_accepted {notices : List NoticeKind} {entry : Option EntryId} (hd : s.dueOrder kind i reorder)
    (he : kind = .enrol ∨ (s.dispatched i).enrolled = true)
    (hj : (s.view .orderUnit).judge kind i (s.dispatched i) = .accepted notices entry) :
    s.dispatch kind =
      (s.endDispatch.acceptOrder kind { sub := i, reorder := reorder } (s.dispatched i) notices entry).noTurn .orderUnit := by
  obtain ⟨ht, -, hr, hp, ho⟩ := hd
  have hn : ¬ (kind ≠ .enrol ∧ (s.dispatched i).enrolled = false) := by
    rintro ⟨hk, hf⟩
    simp [hk, hf] at he
  simp [State.dispatch, ht, hr, hp, ho, hj, if_neg hn]

end

/-- Settles O28: the two ends of BAD_ORDER, and the two ways in which a dispatch of a kind refuses. -/
theorem refusedOrders : Obligations.RefusedOrders := by
  refine ⟨fun s x hx hr => ⟨fun hp => ⟨_, rfl, ?_⟩, fun hp hk => ⟨_, rfl, ?_⟩⟩, fun s kind i reorder res hd h => ?_⟩
  · have hb : doBadOrder s = s.endDispatch.putBack x := by simp [doBadOrder, hx, hr, hp]
    rw [hb]
    simp [SameMemory]
  · have hb : doBadOrder s = ((s.endDispatch.refuse x.sub (s.dispatched x.sub) .badOrder).putBack x).noTurn .orderUnit := by
      simp [doBadOrder, hx, hr, hp]
      omega
    rw [hb]
    simp [State.refuse, SameMemory]
  · have hb : s.dispatch kind =
        ((s.endDispatch.refuse i (s.dispatched i) res).putBack { sub := i, reorder := reorder }).noTurn .orderUnit := by
      rcases h with ⟨hk, he, rfl⟩ | ⟨he, hj⟩
      · exact State.dispatch_notEnrolled hd hk he
      · exact State.dispatch_refused hd he hj
    refine ⟨_, exec_orderCommand kind s, ?_⟩
    rw [hb]
    simp [State.refuse, SameMemory]

end Sys2Proof.Machine
end

section
/-! The effect of an accepted order: its tasks run at once while the Notice Queue has room, the wanted state is computed, and
the order completes or goes in flight (R7, R8, R24, R44, R68). -/

open Sys2Proof

namespace Sys2Proof.Machine

/-! ### The tasks of an accepted order (R7, R24) -/

/-- The state when a notice has entered the Notice Queue (R132). -/
def State.noticed (s : State) (q : QEntry) : State :=
  { s.keepTurn .billing with bill := { s.bill with queue := s.bill.queue ++ [q] } }

section
variable (s : State) (q : QEntry)

@[simp] theorem State.noticed_mem : (s.noticed q).mem = s.mem := rfl
@[simp] theorem State.noticed_run : (s.noticed q).run = s.run := rfl
@[simp] theorem State.noticed_time : (s.noticed q).time = s.time := rfl
@[simp] theorem State.noticed_order : (s.noticed q).order = s.order := rfl
@[simp] theorem State.noticed_lineUp : (s.noticed q).lineUp = s.lineUp := rfl
@[simp] theorem State.noticed_dir : (s.noticed q).dir = s.dir := rfl
@[simp] theorem State.noticed_engines : (s.noticed q).engines = s.engines := rfl
@[simp] theorem State.noticed_bill : (s.noticed q).bill = { s.bill with queue := s.bill.queue ++ [q] } := rfl
@[simp] theorem State.noticed_lines : (s.noticed q).path.lines = s.path.lines := rfl
@[simp] theorem State.noticed_line (r : Requester) : (s.noticed q).path.line r = s.path.line r := rfl
@[simp] theorem State.ownRec_noticed (i : Nat) : (s.noticed q).ownRec i = s.ownRec i := State.ownRec_congr i rfl rfl rfl rfl

end

/-- A notice enters the queue while it has room (R132). -/
theorem State.doTask_notice {s : State} (q : QEntry) (h : s.bill.queue.length < Config.noticeDepth) :
    s.doTask (.notice q) = (s.noticed q, none) := if_pos h

theorem State.doTask_applyOrder (s : State) (o : OrderItem) : s.doTask (.applyOrder o) = (s.applyOrder o, none) := rfl

/-! ### The end of a dispatch with its tasks run (R7) -/

/-- The state when the tasks of an accepted order have all run. -/
def State.closed (s : State) : State := (s.setWork .orderUnit []).noTurn .orderUnit

section
variable (s : State)

@[simp] theorem State.closed_mem : s.closed.mem = s.mem := rfl
@[simp] theorem State.closed_order : s.closed.order = { s.order with work := [] } := rfl
@[simp] theorem State.closed_dir : s.closed.dir = s.dir := rfl
@[simp] theorem State.closed_bill : s.closed.bill = s.bill := rfl
@[simp] theorem State.closed_lines : s.closed.path.lines = s.path.lines := rfl
@[simp] theorem State.closed_port : s.closed.path.port = s.path.port := rfl
@[simp] theorem State.closed_line (r : Requester) : s.closed.path.line r = s.path.line r := rfl
@[simp] theorem State.closed_entry (e : EntryId) : s.closed.entry e = s.entry e := rfl
@[simp] theorem State.closed_tapPort (e : EntryId) (p : Port) : s.closed.tapPort e p = s.tapPort e p := rfl

end

section
variable {s : State} {kind : OrderKind} {i : Nat} {reorder : Bool} {entry : Option EntryId}

/-- The item of a due order. -/
structure State.DueItem (s : State) (o : OrderItem) (kind : OrderKind) (i : Nat) (entry : Option EntryId)
    (reorder : Bool) : Prop where
  kind : o.kind = kind
  sub : o.sub = i
  entry : o.entry = entry
  reorder : o.reorder = reorder
  record : o.record = s.dispatched i

/-- An accepted order without a notice takes its effect in the step of its dispatch. -/
theorem State.dispatch_silent (hd : s.dueOrder kind i reorder) (he : kind = .enrol ∨ (s.dispatched i).enrolled = true)
    (hj : (s.view .orderUnit).judge kind i (s.dispatched i) = .accepted [] entry) :
    ∃ o, s.DueItem o kind i entry reorder ∧ s.dispatch kind = (s.endDispatch.applyOrder o).closed := by
  have hw : s.endDispatch.workOf .orderUnit = [] := by
    have hq : s.endDispatch.order.work = [] := by simpa using hd.2.1
    exact hq
  refine ⟨{ kind := kind, sub := i, record := s.dispatched i, minute := s.endDispatch.now, entry := entry, reorder := reorder },
    ⟨rfl, rfl, rfl, rfl, rfl⟩, ?_⟩
  rw [State.dispatch_accepted hd he hj, State.acceptOrder, State.push_idle _ .orderUnit _ hw]
  simp only [List.map_nil, List.nil_append]
  rw [State.runTasks_go _ _ _ _ _ (State.doTask_applyOrder _ _), State.runTasks_nil, State.closed]

/-- An accepted order with one notice takes its effect in the step of its dispatch while the Notice Queue has room. -/
theorem State.dispatch_noticed {n : NoticeKind} (hd : s.dueOrder kind i reorder)
    (he : kind = .enrol ∨ (s.dispatched i).enrolled = true) (hroom : s.bill.queue.length < Config.noticeDepth)
    (hj : (s.view .orderUnit).judge kind i (s.dispatched i) = .accepted [n] entry) :
    ∃ o, s.DueItem o kind i entry reorder ∧
      s.dispatch kind = ((s.endDispatch.noticed (.notice i n s.time.minute)).applyOrder o).closed := by
  have hw : s.endDispatch.workOf .orderUnit = [] := by
    have hq : s.endDispatch.order.work = [] := by simpa using hd.2.1
    exact hq
  refine ⟨{ kind := kind, sub := i, record := s.dispatched i, minute := s.endDispatch.now, entry := entry, reorder := reorder },
    ⟨rfl, rfl, rfl, rfl, rfl⟩, ?_⟩
  rw [State.dispatch_accepted hd he hj, State.acceptOrder, State.push_idle _ .orderUnit _ hw]
  simp only [List.map_cons, List.map_nil, List.cons_append, List.nil_append]
  rw [State.runTasks_go _ _ _ _ _ (State.doTask_notice _ (by simpa using hroom)),
    State.runTasks_go _ _ _ _ _ (State.doTask_applyOrder _ _), State.runTasks_nil, State.closed]
  simp [State.now]

/-- A kind other than REMOVE reads one record, and so sees memory as it stands. -/
theorem State.dueOrder_view (hd : s.dueOrder kind i reorder) (hk : kind ≠ .remove) : s.view .orderUnit = s := by
  obtain ⟨-, -, hr, -, ho⟩ := hd
  have hplan : s.dispatchReads i = [s.readSub i] := by
    rw [State.dispatchReads, if_neg]
    rw [ho]
    cases kind <;> simp [OrderKind.code] at hk ⊢
  rw [State.dispatchReady, hplan] at hr
  exact s.view_single .orderUnit _ hr

theorem State.dueOrder_dispatched (hd : s.dueOrder kind i reorder) (hk : kind ≠ .remove) :
    s.dispatched i = s.ownRec i := by
  rw [State.dispatched, State.dueOrder_view hd hk]

end

/-- The record that an order finds is the one read, while the Order Unit knows no other. -/
theorem State.orderRec_self {s : State} {o : OrderItem} (h : s.ownRec o.sub = o.record) : s.orderRec o = o.record := by
  rw [State.orderRec, h]

theorem State.applyOrder_once {s : State} {o : OrderItem} (h : o.reorder = false) : s.applyOrder o = s.orderEffect o := by
  simp [State.applyOrder, h]

/-! ### The wanted state (R44) -/

theorem State.setBands_congr {s t : State} (h : t.lineUp = s.lineUp) (i : Nat) (index : List IndexEntry) :
    t.setBands i index = s.setBands i index := by
  simp only [State.setBands, State.active, h]

theorem State.wantedOf_congr {s t : State} (h : t.lineUp = s.lineUp) (i : Nat) (on : Bool) (tiers : BitVec 16)
    (index : List IndexEntry) : t.wantedOf i on tiers index = s.wantedOf i on tiers index := by
  simp only [State.wantedOf, State.passMask, State.passes, State.active, h]

/-- The wanted state of the claimed port is set, and the subscriber's entries take their bands. -/
theorem State.computeWanted_of_claim {s : State} {i : Nat} {e : EntryId} {p : Port} (on : Bool) (tiers : BitVec 16)
    (hc : s.claimOf i = some (e, p)) :
    s.computeWanted i on tiers =
      State.setTapPort { s with order := { s.order with index := s.setBands i s.order.index } } e p
        { s.tapPort e p with wanted := s.wantedOf i on tiers (s.setBands i s.order.index) } := by
  unfold State.computeWanted
  generalize s.claimOf i = c at hc
  subst hc
  rfl

theorem State.computeWanted_of_none {s : State} {i : Nat} (on : Bool) (tiers : BitVec 16) (hc : s.claimOf i = none) :
    s.computeWanted i on tiers = s := by
  unfold State.computeWanted
  generalize s.claimOf i = c at hc
  subst hc
  rfl

theorem State.setEntry_setEntry (s : State) (e : EntryId) (x y : Entry) :
    (s.setEntry e x).setEntry e y = s.setEntry e y := by
  simp [State.setEntry]

/-- A port set to what it holds changes nothing. -/
theorem State.setTapPort_self (s : State) (e : EntryId) (p : Port) : s.setTapPort e p (s.tapPort e p) = s := by
  have hp : (s.entry e).ports.set p (s.tapPort e p) = (s.entry e).ports := Vector.set_getElem_self p.isLt
  rw [State.setTapPort, hp]
  have hd : s.dir.pool.set e (s.entry e) = s.dir.pool := Vector.set_getElem_self e.isLt
  exact congrArg (fun v => { s with dir := { s.dir with pool := v } }) hd

/-- Of two changes of a port the later stands. -/
theorem State.setTapPort_setTapPort (s : State) (e : EntryId) (p : Port) (x y : TapPort) :
    (s.setTapPort e p x).setTapPort e p y = s.setTapPort e p y := by
  rw [State.setTapPort, State.setTapPort, State.setEntry_setEntry, State.entry_setEntry, if_pos rfl]
  simp [State.setTapPort]

/-! ### Completion at once, or flight (R8, R68) -/

theorem State.completeAtOnce_done (s : State) (i : Nat) (r : SubRec) :
    s.completeAtOnce i r .done = s.writeSub i (r.complete r.oserial .done) := rfl

theorem State.completeAtOnce_deferred (s : State) (i : Nat) (r : SubRec) :
    s.completeAtOnce i r .deferred = s.writeSub i r.deferred := rfl

theorem State.completeAtOnce_unreachable (s : State) (i : Nat) (r : SubRec) :
    s.completeAtOnce i r .unreachable =
      s.writeSub i ({ r with failures := min 255 (r.failures + 1) }.complete r.oserial .unreachable) := rfl

theorem State.tapOut_false_iff (s : State) (e : EntryId) : s.tapOut e false ↔ s.unreachable e = true := by
  unfold State.tapOut State.unreachable
  cases hp : (s.entry e).place <;> simp

theorem State.tapOut_true {s : State} {e : EntryId} (h : s.tapOut e true) :
    s.unreachable e = false ∧ s.onBlocked e = true := by
  obtain ⟨hl, pl, hp, hb⟩ := h
  simp [State.unreachable, State.onBlocked, hl, hp, hb]

theorem State.tapIn_spec {s : State} {e : EntryId} (h : s.tapIn e) : s.unreachable e = false ∧ s.onBlocked e = false := by
  obtain ⟨hl, pl, hp, ho, hb⟩ := h
  simp [State.unreachable, State.onBlocked, hl, hp, ho, hb]

section
variable {s t : State} {e : EntryId} (hs : (t.entry e).state = (s.entry e).state)
  (hp : (t.entry e).place = (s.entry e).place) (he : t.engines = s.engines)
include hs hp he

theorem State.tapOut_congr (blocked : Bool) (h : s.tapOut e blocked) : t.tapOut e blocked := by
  cases blocked <;> simpa only [State.tapOut, State.eng, hs, hp, he] using h

theorem State.tapIn_congr (h : s.tapIn e) : t.tapIn e := by
  simpa only [State.tapIn, State.eng, hs, hp, he] using h

end

section
variable {s : State} {o : OrderItem} {r : SubRec} {e : EntryId} {p : Port}

/-- An order without a claim is done at once. -/
theorem State.finishOrder_unclaimed (mark may : Bool) (hc : s.claimOf o.sub = none) :
    s.finishOrder o r mark may = s.writeSub o.sub (r.complete r.oserial .done) := by
  unfold State.finishOrder
  generalize s.claimOf o.sub = c at hc
  subst hc
  rfl

/-- An order that does not need the tap is done at once. -/
theorem State.finishOrder_done (may : Bool) (hc : s.claimOf o.sub = some (e, p)) (hk : o.kind ≠ .audit)
    (h : may = false ∨ (s.tapPort e p).applied = some (s.tapPort e p).wanted) :
    s.finishOrder o r false may = s.writeSub o.sub (r.complete r.oserial .done) := by
  unfold State.finishOrder
  generalize s.claimOf o.sub = c at hc
  subst hc
  have hn : (!(may && (o.kind == .audit || false ||
      (s.tapPort e p).applied != some (s.tapPort e p).wanted))) = true := by
    rcases h with h | h <;> simp [h, hk]
  exact if_pos hn

theorem State.unreachable_mark (m : Bool) (d : EntryId) :
    (if m then s.markPort e p else s).unreachable d = s.unreachable d := by
  cases m
  · rfl
  · simp [State.markPort, State.unreachable, State.eng]

theorem State.onBlocked_mark (m : Bool) (d : EntryId) :
    (if m then s.markPort e p else s).onBlocked d = s.onBlocked d := by
  cases m
  · rfl
  · simp [State.markPort, State.onBlocked, State.eng]

/-- The order needs the tap of its claimed port (R8). -/
def State.needsTap (s : State) (o : OrderItem) (mark : Bool) (e : EntryId) (p : Port) : Prop :=
  o.kind = .audit ∨ mark = true ∨ (s.tapPort e p).applied ≠ some (s.tapPort e p).wanted

theorem State.needsTap_spec {mark : Bool} (h : s.needsTap o mark e p) :
    (!(true && (o.kind == .audit || mark ||
      (s.tapPort e p).applied != some (s.tapPort e p).wanted))) = false := by
  rcases h with h | h | h <;> simp [h]

/-- An order that needs a tap that cannot be reached, or is on a blocked feeder, completes at once DEFERRED; the port is marked
where the order marks it, or the feeder is blocked. -/
theorem State.finishOrder_deferred {mark blocked : Bool} (hc : s.claimOf o.sub = some (e, p)) (hk : o.kind ≠ .audit)
    (hn : s.needsTap o mark e p) (ho : s.tapOut e blocked) :
    s.finishOrder o r mark true =
      (s.setTapPort e p { s.tapPort e p with reapply := (s.tapPort e p).reapply || mark || blocked }).writeSub o.sub
        r.deferred := by
  unfold State.finishOrder
  generalize s.claimOf o.sub = c at hc
  subst hc
  dsimp only
  rw [if_neg (by rw [State.needsTap_spec hn]; simp), State.unreachable_mark, State.onBlocked_mark, if_neg hk]
  cases blocked with
  | false =>
    rw [if_pos ((s.tapOut_false_iff e).1 ho), State.completeAtOnce_deferred]
    cases mark
    · simp only [Bool.or_false]
      exact congrArg (·.writeSub o.sub r.deferred) (s.setTapPort_self e p).symm
    · simp [State.markPort]
  | true =>
    obtain ⟨hu, hb⟩ := State.tapOut_true ho
    rw [if_neg (by simp [hu]), if_pos hb, if_neg hk, State.completeAtOnce_deferred]
    cases mark
    · simp [State.markPort]
    · simp [State.markPort, State.setTapPort_setTapPort]

/-- An AUDIT of such a tap completes at once UNREACHABLE. -/
theorem State.finishOrder_unreachable {blocked : Bool} (hc : s.claimOf o.sub = some (e, p)) (hk : o.kind = .audit)
    (ho : s.tapOut e blocked) :
    s.finishOrder o r false true =
      s.writeSub o.sub ({ r with failures := min 255 (r.failures + 1) }.complete r.oserial .unreachable) := by
  unfold State.finishOrder
  generalize s.claimOf o.sub = c at hc
  subst hc
  dsimp only
  rw [if_neg (by rw [State.needsTap_spec (.inl hk)]; simp), State.unreachable_mark, State.onBlocked_mark, if_pos hk]
  cases blocked with
  | false =>
    rw [if_pos ((s.tapOut_false_iff e).1 ho), State.completeAtOnce_unreachable]
    rfl
  | true =>
    obtain ⟨hu, hb⟩ := State.tapOut_true ho
    rw [if_neg (by simp [hu]), if_pos hb, if_pos hk, State.completeAtOnce_unreachable]
    rfl

/-- The In-flight Table's entry of an order (R8). -/
def OrderItem.flight (o : OrderItem) (serial : Nat) (e : EntryId) (p : Port) (seq : Nat) : InFlight :=
  { sub := o.sub, serial := serial, kind := o.kind, e := e, p := p, armed := false, reorder := o.reorder, seq := seq }

/-- The Order Unit when an order has gone in flight. -/
def OrderUnit.launched (u : OrderUnit) (x : InFlight) : OrderUnit :=
  { u with inflight := u.inflight ++ [x], nextSeq := u.nextSeq + 1 }

/-- An order that needs a tap that can be reached goes in flight, its port marked unless it is an AUDIT. -/
theorem State.finishOrder_flight {mark : Bool} (hc : s.claimOf o.sub = some (e, p)) (hk : o.kind ≠ .audit)
    (hn : s.needsTap o mark e p) (hi : s.tapIn e) :
    s.finishOrder o r mark true =
      State.writeSubIfChanged
        { s.markPort e p with order := s.order.launched (o.flight r.oserial e p s.order.nextSeq) } o.sub r := by
  obtain ⟨hu, hb⟩ := State.tapIn_spec hi
  unfold State.finishOrder
  generalize s.claimOf o.sub = c at hc
  subst hc
  dsimp only
  rw [if_neg (by rw [State.needsTap_spec hn]; simp), State.unreachable_mark, State.onBlocked_mark, if_neg (by simp [hu]),
    if_neg (by simp [hb]), State.enterFlight, if_neg hk]
  cases mark
  · rfl
  · simp [State.markPort, State.setTapPort_setTapPort, OrderUnit.launched, OrderItem.flight]

theorem State.finishOrder_auditFlight (hc : s.claimOf o.sub = some (e, p)) (hk : o.kind = .audit) (hi : s.tapIn e) :
    s.finishOrder o r false true =
      State.writeSubIfChanged
        { s with order := s.order.launched (o.flight r.oserial e p s.order.nextSeq) } o.sub r := by
  obtain ⟨hu, hb⟩ := State.tapIn_spec hi
  unfold State.finishOrder
  generalize s.claimOf o.sub = c at hc
  subst hc
  dsimp only
  rw [if_neg (by rw [State.needsTap_spec (.inl hk)]; simp), State.unreachable_mark, State.onBlocked_mark,
    if_neg (by simp [hu]), if_neg (by simp [hb]), State.enterFlight, if_pos hk]
  rfl

end

end Sys2Proof.Machine
end

section
/-! What an accepted order leaves: the state at the end of its dispatch, by how it completes (R7, R8, R44, R68). -/

open Sys2Proof

namespace Sys2Proof.Machine

theorem State.entry_congr {s t : State} (h : t.dir = s.dir) (e : EntryId) : t.entry e = s.entry e := by
  rw [State.entry, State.entry, h]

theorem State.tapPort_congr {s t : State} (h : t.dir = s.dir) (e : EntryId) (p : Port) : t.tapPort e p = s.tapPort e p := by
  rw [State.tapPort, State.tapPort, State.entry_congr h]

theorem State.claimOf_congr_dir {s t : State} (h : t.dir = s.dir) (i : Nat) : t.claimOf i = s.claimOf i :=
  State.claimOf_congr i fun e p => congrArg TapPort.claim (State.tapPort_congr h e p)

/-- What a part of an order's step leaves of `b`: the Order Unit, what it asks to be written, the port of the claim, and the
notices handed. -/
structure State.Leaves (b t : State) (e : EntryId) (p : Port) (u : OrderUnit) (asks : List Burst) (x : TapPort)
    (notices : List QEntry) : Prop where
  order : t.order = u
  line : t.path.line .orderUnit = b.path.line .orderUnit ++ asks
  silent : asks = [] → t.path.lines = b.path.lines
  port : t.tapPort e p = x
  others : ∀ d, d ≠ e → t.entry d = b.entry d
  ports : ∀ d q, (d, q) ≠ (e, p) → t.tapPort d q = b.tapPort d q
  bill : t.bill = { b.bill with queue := b.bill.queue ++ notices }
  mem : t.mem = b.mem
  lineUp : t.lineUp = b.lineUp
  engines : t.engines = b.engines
  state : (t.entry e).state = (b.entry e).state
  place : (t.entry e).place = (b.entry e).place

section
variable {b s t : State} {e : EntryId} {p : Port} {u v : OrderUnit} {m n : List Burst} {x y : TapPort} {q w : List QEntry}

theorem State.Leaves.trans (h : b.Leaves s e p u m x q) (k : s.Leaves t e p v n y w) :
    b.Leaves t e p v (m ++ n) y (q ++ w) where
  order := k.order
  line := by rw [k.line, h.line, List.append_assoc]
  silent hmn := by
    obtain ⟨hm, hn⟩ := List.append_eq_nil_iff.1 hmn
    rw [k.silent hn, h.silent hm]
  port := k.port
  others d hd := (k.others d hd).trans (h.others d hd)
  ports d q hd := (k.ports d q hd).trans (h.ports d q hd)
  bill := by simp [k.bill, h.bill]
  mem := k.mem.trans h.mem
  lineUp := k.lineUp.trans h.lineUp
  engines := k.engines.trans h.engines
  state := k.state.trans h.state
  place := k.place.trans h.place

theorem State.Leaves.closed (h : b.Leaves t e p u m x q) : b.Leaves t.closed e p { u with work := [] } m x q :=
  { h with order := by rw [State.closed_order, h.order] }

theorem State.Leaves.sameMemory (h : b.Leaves t e p u m x q) : SameMemory b t := fun a => by rw [h.mem]

theorem State.Leaves.bill_eq (h : b.Leaves t e p u m x []) : t.bill = b.bill := by simpa using h.bill

theorem State.Leaves.tapOut (h : b.Leaves t e p u m x q) {blocked : Bool} (ho : b.tapOut e blocked) : t.tapOut e blocked :=
  State.tapOut_congr h.state h.place h.engines blocked ho

theorem State.Leaves.tapIn (h : b.Leaves t e p u m x q) (hi : b.tapIn e) : t.tapIn e :=
  State.tapIn_congr h.state h.place h.engines hi

end

/-- A change of one port, and of the Order Unit's own. -/
theorem State.setTapPort_leaves (b : State) (e : EntryId) (p : Port) (u : OrderUnit) (x : TapPort) :
    b.Leaves (State.setTapPort { b with order := u } e p x) e p u [] x [] where
  order := State.setTapPort_order ..
  line := by simp
  silent _ := by simp
  port := by simp
  others d hd := State.entry_setTapPort_ne _ p x hd
  ports d q hd := by
    rw [State.tapPort_setTapPort, if_neg fun h => hd (by rw [h.1, h.2])]
    rfl
  bill := by simp
  mem := State.setTapPort_mem ..
  lineUp := State.setTapPort_lineUp ..
  engines := State.setTapPort_engines ..
  state := State.entry_setTapPort_state ..
  place := State.entry_setTapPort_place ..

/-- A step that keeps the directory and what goes with it leaves the port as it was. -/
theorem State.leaves_of_dir {b t : State} (e : EntryId) (p : Port) {m : List Burst} {q : List QEntry} (hd : t.dir = b.dir)
    (hl : t.path.line .orderUnit = b.path.line .orderUnit ++ m) (hq : m = [] → t.path.lines = b.path.lines)
    (hb : t.bill = { b.bill with queue := b.bill.queue ++ q }) (hm : t.mem = b.mem) (hu : t.lineUp = b.lineUp)
    (he : t.engines = b.engines) : b.Leaves t e p t.order m (b.tapPort e p) q :=
  { order := rfl, line := hl, silent := hq, port := State.tapPort_congr hd e p, others := fun d _ => State.entry_congr hd d
    ports := fun d q _ => State.tapPort_congr hd d q, bill := hb
    mem := hm, lineUp := hu, engines := he, state := by rw [State.entry_congr hd], place := by rw [State.entry_congr hd] }

/-- The burst of a record touches nothing else of the Order Unit and of the directory. -/
theorem State.writeSub_leaves (b : State) (e : EntryId) (p : Port) (i : Nat) (r : SubRec) :
    b.Leaves (b.writeSub i r) e p b.order [.sub i r.partWords false] (b.tapPort e p) [] := by
  have h := State.leaves_of_dir (b := b) (t := b.writeSub i r) (q := []) e p (by simp) (b.writeSub_line i r)
    (fun hn => absurd hn (by simp)) (by simp) (by simp) (State.ask_lineUp ..) (by simp)
  rwa [State.writeSub_order] at h

/-- What an order in flight has asked to be written: the record's changed words. -/
def State.changes (b : State) (i : Nat) (r : SubRec) : List Burst :=
  if (b.ownRec i).partWords = r.partWords then [] else [.sub i r.partWords false]

theorem State.writeSubIfChanged_leaves (b : State) (e : EntryId) (p : Port) (i : Nat) (r : SubRec) :
    b.Leaves (b.writeSubIfChanged i r) e p b.order (b.changes i r) (b.tapPort e p) [] := by
  unfold State.writeSubIfChanged State.changes
  split
  · exact State.leaves_of_dir e p rfl (List.append_nil _).symm (fun _ => rfl) (by simp) rfl rfl rfl
  · exact b.writeSub_leaves e p i r

/-- The end of a dispatch's reads. -/
theorem State.endDispatch_leaves (s : State) (e : EntryId) (p : Port) :
    s.Leaves s.endDispatch e p { s.order with taken := none } [] (s.tapPort e p) [] := by
  rw [← s.endDispatch_order]
  exact State.leaves_of_dir e p (by simp) (by simp) (fun _ => by simp) (by simp) (by simp) (by simp) (by simp)

section
variable {b : State} {i : Nat} {e : EntryId} {p : Port}

/-- The wanted state that a computation gives the claimed port (R44). -/
def State.due (b : State) (i : Nat) (on : Bool) (tiers : BitVec 16) : PortState :=
  b.wantedOf i on tiers (b.setBands i b.order.index)

/-- The Order Unit when the wanted state of a subscriber has been computed (R44). -/
def State.banded (b : State) (i : Nat) : OrderUnit := { b.order with index := b.setBands i b.order.index }

/-- A computation of the wanted state changes the claimed port's wanted state and the bands of the index. -/
theorem State.computeWanted_leaves (on : Bool) (tiers : BitVec 16) (hc : b.claimOf i = some (e, p)) :
    b.Leaves (b.computeWanted i on tiers) e p (b.banded i) []
      { b.tapPort e p with wanted := b.due i on tiers } [] := by
  rw [State.computeWanted_of_claim on tiers hc]
  exact b.setTapPort_leaves e p _ _

/-- A wanted state set keeps every claim, whatever else the Order Unit changes of its own. -/
theorem State.claimOf_wanted (b : State) (u : OrderUnit) (e : EntryId) (p : Port) (w : PortState) (j : Nat) :
    (State.setTapPort { b with order := u } e p { b.tapPort e p with wanted := w }).claimOf j = b.claimOf j := by
  refine State.claimOf_congr j fun d q => ?_
  rw [State.tapPort_setTapPort]
  split
  · next h => rw [← h.1, ← h.2]
  · rfl

@[simp] theorem State.claimOf_computeWanted (b : State) (i j : Nat) (on : Bool) (tiers : BitVec 16) :
    (b.computeWanted i on tiers).claimOf j = b.claimOf j := by
  cases hc : b.claimOf i with
  | none => rw [State.computeWanted_of_none on tiers hc]
  | some x =>
    rw [State.computeWanted_of_claim on tiers hc]
    exact b.claimOf_wanted _ x.1 x.2 _ j

@[simp] theorem State.computeWanted_path (b : State) (i : Nat) (on : Bool) (tiers : BitVec 16) :
    (b.computeWanted i on tiers).path = b.path := by
  cases hc : b.claimOf i with
  | none => rw [State.computeWanted_of_none on tiers hc]
  | some x => rw [State.computeWanted_of_claim on tiers hc]; rfl

@[simp] theorem State.ownRec_computeWanted (b : State) (i j : Nat) (on : Bool) (tiers : BitVec 16) :
    (b.computeWanted i on tiers).ownRec j = b.ownRec j := by
  have hm : (b.computeWanted i on tiers).mem = b.mem := by
    cases hc : b.claimOf i with
    | none => rw [State.computeWanted_of_none on tiers hc]
    | some x => exact (State.computeWanted_leaves (e := x.1) (p := x.2) on tiers hc).mem
  exact State.ownRec_congr j (by simp) (by simp) hm (by simp)

end

/-! ### How an order completes (R8, R68) -/

section
variable {s : State} {o : OrderItem} {r : SubRec} {e : EntryId} {p : Port}

theorem State.finishOrder_done_leaves {may : Bool} (hc : s.claimOf o.sub = some (e, p)) (hk : o.kind ≠ .audit)
    (h : may = false ∨ (s.tapPort e p).applied = some (s.tapPort e p).wanted) :
    s.Leaves (s.finishOrder o r false may) e p s.order [.sub o.sub (r.complete r.oserial .done).partWords false]
      (s.tapPort e p) [] := by
  rw [State.finishOrder_done may hc hk h]
  exact s.writeSub_leaves e p _ _

theorem State.finishOrder_deferred_leaves {mark blocked : Bool} (hc : s.claimOf o.sub = some (e, p)) (hk : o.kind ≠ .audit)
    (hn : s.needsTap o mark e p) (ho : s.tapOut e blocked) :
    s.Leaves (s.finishOrder o r mark true) e p s.order [.sub o.sub r.deferred.partWords false]
      { s.tapPort e p with reapply := (s.tapPort e p).reapply || mark || blocked } [] := by
  rw [State.finishOrder_deferred hc hk hn ho]
  have h := (s.setTapPort_leaves e p s.order _).trans
    (State.writeSub_leaves (s.setTapPort e p { s.tapPort e p with reapply := (s.tapPort e p).reapply || mark || blocked })
      e p o.sub r.deferred)
  simpa using h

theorem State.finishOrder_flight_leaves {mark : Bool} (hc : s.claimOf o.sub = some (e, p)) (hk : o.kind ≠ .audit)
    (hn : s.needsTap o mark e p) (hi : s.tapIn e) :
    s.Leaves (s.finishOrder o r mark true) e p (s.order.launched (o.flight r.oserial e p s.order.nextSeq))
      (s.changes o.sub r) { s.tapPort e p with reapply := true } [] := by
  rw [State.finishOrder_flight hc hk hn hi]
  have hf := s.setTapPort_leaves e p (s.order.launched (o.flight r.oserial e p s.order.nextSeq))
    { s.tapPort e p with reapply := true }
  have h := hf.trans (State.writeSubIfChanged_leaves _ e p o.sub r)
  rw [hf.port] at h
  have hr : State.ownRec (State.setTapPort { s with order := s.order.launched (o.flight r.oserial e p s.order.nextSeq) } e p
      { s.tapPort e p with reapply := true }) o.sub = s.ownRec o.sub := State.ownRec_congr o.sub rfl rfl rfl rfl
  rw [State.changes, hr] at h
  exact h

end

/-! ### The wanted state computed, and the order completed -/

/-- The wanted state computed (R44): the port's wanted state, and the bands of the Purchase Index. -/
theorem State.Leaves.computed {s b : State} {i : Nat} {e : EntryId} {p : Port} {u : OrderUnit} {x : TapPort}
    {q : List QEntry} (hb : s.Leaves b e p u [] x q) (hc : b.claimOf i = some (e, p)) (on : Bool) (tiers : BitVec 16) :
    s.Leaves (b.computeWanted i on tiers) e p { u with index := s.setBands i u.index } []
      { x with wanted := s.wantedOf i on tiers (s.setBands i u.index) } q := by
  have h := hb.trans (State.computeWanted_leaves on tiers hc)
  rw [State.banded, State.due, hb.order, hb.port, State.setBands_congr hb.lineUp, State.wantedOf_congr hb.lineUp] at h
  simpa using h

section
variable {s b : State} {o : OrderItem} {r : SubRec} {e : EntryId} {p : Port} {u : OrderUnit} {x : TapPort} {q : List QEntry}
  (hb : s.Leaves b e p u [] x q) (hw : u.work = []) (hc : b.claimOf o.sub = some (e, p)) (on : Bool) (tiers : BitVec 16)
include hb hc hw

/-- An order that does not need the tap leaves its port with the wanted state computed, and its completion. -/
theorem State.Leaves.done {may : Bool} (hk : o.kind ≠ .audit)
    (h : may = false ∨ x.applied = some (s.wantedOf o.sub on tiers (s.setBands o.sub u.index))) :
    s.Leaves ((b.computeWanted o.sub on tiers).finishOrder o r false may).closed e p
      { u with index := s.setBands o.sub u.index } [.sub o.sub (r.complete r.oserial .done).partWords false]
      { x with wanted := s.wantedOf o.sub on tiers (s.setBands o.sub u.index) } q := by
  have hs := hb.computed hc on tiers
  have hf := (hs.trans (State.finishOrder_done_leaves (r := r) (may := may) (by simpa using hc) hk
    (by rw [hs.port]; exact h))).closed
  rw [hs.port, hs.order] at hf
  simpa [hw] using hf

/-- One that needs a tap that is out leaves its port changed, marked where the order or the blocked feeder marks it. -/
theorem State.Leaves.deferred {mark blocked : Bool} (hk : o.kind ≠ .audit)
    (hn : mark = true ∨ x.applied ≠ some (s.wantedOf o.sub on tiers (s.setBands o.sub u.index)))
    (ho : s.tapOut e blocked) :
    s.Leaves ((b.computeWanted o.sub on tiers).finishOrder o r mark true).closed e p
      { u with index := s.setBands o.sub u.index } [.sub o.sub r.deferred.partWords false]
      { x with
        wanted := s.wantedOf o.sub on tiers (s.setBands o.sub u.index), reapply := x.reapply || mark || blocked } q := by
  have hs := hb.computed hc on tiers
  have hf := (hs.trans (State.finishOrder_deferred_leaves (r := r) (mark := mark) (by simpa using hc) hk
    (by rw [State.needsTap, hs.port]; exact .inr hn) (hs.tapOut ho))).closed
  rw [hs.port, hs.order] at hf
  simpa [hw] using hf

/-- One that needs a tap that can be reached leaves its port marked, and is in flight. -/
theorem State.Leaves.flight {mark : Bool} (hk : o.kind ≠ .audit)
    (hn : mark = true ∨ x.applied ≠ some (s.wantedOf o.sub on tiers (s.setBands o.sub u.index))) (hi : s.tapIn e) :
    s.Leaves ((b.computeWanted o.sub on tiers).finishOrder o r mark true).closed e p
      (OrderUnit.launched { u with index := s.setBands o.sub u.index } (o.flight r.oserial e p u.nextSeq))
      (b.changes o.sub r)
      { x with wanted := s.wantedOf o.sub on tiers (s.setBands o.sub u.index), reapply := true } q := by
  have hs := hb.computed hc on tiers
  have hf := (hs.trans (State.finishOrder_flight_leaves (r := r) (mark := mark) (by simpa using hc) hk
    (by rw [State.needsTap, hs.port]; exact .inr hn) (hs.tapIn hi))).closed
  have hr : (b.computeWanted o.sub on tiers).changes o.sub r = b.changes o.sub r := by simp [State.changes]
  rw [hs.port, hs.order, hr] at hf
  simpa [hw, OrderUnit.launched] using hf

end

/-! ### The start of an accepted order (R7, R24) -/

/-- The order `o` of record `i` has been accepted in `s` and takes its effect in `b`, its notices handed. -/
structure State.Starts (s b : State) (o : OrderItem) (kind : OrderKind) (i : Nat) (entry : Option EntryId)
    (notices : List QEntry) : Prop where
  ofKind : o.kind = kind
  sub : o.sub = i
  ofEntry : o.entry = entry
  once : o.reorder = false
  record : o.record = s.dispatched i
  own : b.ownRec i = s.ownRec i
  order : b.order = { s.order with taken := none }
  dir : b.dir = s.dir
  bill : b.bill = { s.bill with queue := s.bill.queue ++ notices }
  lines : b.path.lines = s.path.lines
  lineUp : b.lineUp = s.lineUp
  engines : b.engines = s.engines
  mem : b.mem = s.mem
  dispatch : s.dispatch kind = (b.orderEffect o).closed

section
variable {s b : State} {o : OrderItem} {kind : OrderKind} {i : Nat} {entry : Option EntryId} {notices : List QEntry}

theorem State.Starts.leaves (h : s.Starts b o kind i entry notices) (e : EntryId) (p : Port) :
    s.Leaves b e p { s.order with taken := none } [] (s.tapPort e p) notices := by
  rw [← h.order]
  exact State.leaves_of_dir e p h.dir ((MemPath.line_congr h.lines _).trans (List.append_nil _).symm)
    (fun _ => h.lines) h.bill h.mem h.lineUp h.engines

theorem State.Starts.claimOf (h : s.Starts b o kind i entry notices) (j : Nat) : b.claimOf j = s.claimOf j :=
  State.claimOf_congr_dir h.dir j

/-- An order whose one record has been read finds it as it was read. -/
theorem State.Starts.orderRec (h : s.Starts b o kind i entry notices) (hi : s.ownRec i = s.dispatched i) :
    b.orderRec o = s.dispatched i := by
  rw [State.orderRec_self (by rw [h.sub, h.own, hi, h.record]), h.record]

/-- An accepted order without a notice starts at once. -/
theorem State.starts_silent (hd : s.dueOrder kind i) (he : kind = .enrol ∨ (s.dispatched i).enrolled = true)
    (hj : (s.view .orderUnit).judge kind i (s.dispatched i) = .accepted [] entry) :
    ∃ b o, s.Starts b o kind i entry [] := by
  obtain ⟨o, ⟨hk, hsub, hentry, hre, hrec⟩, ht⟩ := State.dispatch_silent hd he hj
  rw [State.applyOrder_once hre] at ht
  exact ⟨s.endDispatch, o, hk, hsub, hentry, hre, hrec, by simp, by simp, by simp, by simp, by simp, by simp, by simp,
    by simp, ht⟩

/-- One with a notice starts once the notice is in the queue. -/
theorem State.starts_noticed {n : NoticeKind} (hd : s.dueOrder kind i)
    (he : kind = .enrol ∨ (s.dispatched i).enrolled = true) (hroom : s.bill.queue.length < Config.noticeDepth)
    (hj : (s.view .orderUnit).judge kind i (s.dispatched i) = .accepted [n] entry) :
    ∃ b o, s.Starts b o kind i entry [.notice i n s.time.minute] := by
  obtain ⟨o, ⟨hk, hsub, hentry, hre, hrec⟩, ht⟩ := State.dispatch_noticed hd he hroom hj
  rw [State.applyOrder_once hre] at ht
  exact ⟨s.endDispatch.noticed (.notice i n s.time.minute), o, hk, hsub, hentry, hre, hrec, by simp, by simp, by simp, by simp,
    by simp, by simp, by simp, by simp, ht⟩

end

/-! ### The end of an accepted order of a subscriber with a claim -/

section
variable {s b : State} {o : OrderItem} {kind : OrderKind} {i : Nat} {entry : Option EntryId} {notices : List QEntry}
  {r : SubRec} {e : EntryId} {p : Port} {on : Bool} {tiers : BitVec 16}
  (h : s.Starts b o kind i entry notices) (hw : s.order.work = []) (hc : s.claimOf i = some (e, p)) (hk : kind ≠ .audit)
include h hw hc hk

theorem State.Starts.done {may : Bool}
    (heff : b.orderEffect o = (b.computeWanted o.sub on tiers).finishOrder o r false may)
    (hn : may = false ∨ (s.tapPort e p).applied = some (s.wantedOf i on tiers (s.setBands i s.order.index))) :
    ∃ t, exec (orderCommand kind) s = .next t ∧
      s.Leaves t e p { s.order with taken := none, index := s.setBands i s.order.index }
        [.sub i (r.complete r.oserial .done).partWords false]
        { s.tapPort e p with wanted := s.wantedOf i on tiers (s.setBands i s.order.index) } notices := by
  refine ⟨_, exec_orderCommand kind s, ?_⟩
  rw [h.dispatch, heff]
  obtain rfl := h.sub
  exact (h.leaves e p).done hw ((h.claimOf _).trans hc) on tiers (h.ofKind ▸ hk) hn

theorem State.Starts.deferred {mark blocked : Bool}
    (heff : b.orderEffect o = (b.computeWanted o.sub on tiers).finishOrder o r mark true)
    (hn : mark = true ∨ (s.tapPort e p).applied ≠ some (s.wantedOf i on tiers (s.setBands i s.order.index)))
    (hout : s.tapOut e blocked) :
    ∃ t, exec (orderCommand kind) s = .next t ∧
      s.Leaves t e p { s.order with taken := none, index := s.setBands i s.order.index }
        [.sub i r.deferred.partWords false]
        { s.tapPort e p with
          wanted := s.wantedOf i on tiers (s.setBands i s.order.index)
          reapply := (s.tapPort e p).reapply || mark || blocked } notices := by
  refine ⟨_, exec_orderCommand kind s, ?_⟩
  rw [h.dispatch, heff]
  obtain rfl := h.sub
  exact (h.leaves e p).deferred hw ((h.claimOf _).trans hc) on tiers (h.ofKind ▸ hk) hn hout

theorem State.Starts.flight {mark : Bool}
    (heff : b.orderEffect o = (b.computeWanted o.sub on tiers).finishOrder o r mark true)
    (hn : mark = true ∨ (s.tapPort e p).applied ≠ some (s.wantedOf i on tiers (s.setBands i s.order.index)))
    (hin : s.tapIn e) :
    ∃ t, exec (orderCommand kind) s = .next t ∧
      s.Leaves t e p
        (OrderUnit.launched { s.order with taken := none, index := s.setBands i s.order.index }
          (InFlight.mk i r.oserial kind e p false false s.order.nextSeq))
        (b.changes o.sub r)
        { s.tapPort e p with wanted := s.wantedOf i on tiers (s.setBands i s.order.index), reapply := true } notices := by
  refine ⟨_, exec_orderCommand kind s, ?_⟩
  rw [h.dispatch, heff]
  obtain rfl := h.sub
  have hf := (h.leaves e p).flight (r := r) hw ((h.claimOf _).trans hc) on tiers (h.ofKind ▸ hk) hn hin
  rw [OrderItem.flight, h.once, h.ofKind] at hf
  exact hf

end

end Sys2Proof.Machine
end

section
/-! Orders that complete at once or go in flight: AUDIT, ENROL, DISCONNECT, RETIER and REMOVE (O30, O33). -/

open Sys2Proof

namespace Sys2Proof.Machine

/-- Where wanted service changes, the first of the words that the part owns changes. -/
theorem SubRec.partWords_ne {r r1 : SubRec} (hd : r1.done = r.done) (hr : r1.result = r.result)
    (he : r1.enrolled = r.enrolled) (hw : r1.wantOn ≠ r.wantOn) : r.partWords ≠ r1.partWords := by
  intro h
  have hb : bitOf r1.wantOn ≠ bitOf r.wantOn := by
    cases hv : r.wantOn <;> cases hv1 : r1.wantOn <;> simp_all [bitOf]
  have h0 : bitOf r.wantOn ≤ 1 ∧ bitOf r1.wantOn ≤ 1 := by
    constructor
    · cases r.wantOn <;> simp [bitOf]
    · cases r1.wantOn <;> simp [bitOf]
  have hx : ((r.partWords.headD 0).toNat) = (r1.partWords.headD 0).toNat := by rw [h]
  simp only [SubRec.partWords, List.cons_append, List.headD_cons, word, BitVec.toNat_ofNat, hd, hr, he] at hx
  omega

section
variable {s : State} {o : OrderItem}

/-- An order that has not gone in flight has its index put back where an arrival came meanwhile (R9). -/
theorem State.applyOrder_landed (h : ∀ x ∈ (s.orderEffect o).order.inflight, x.sub ≠ o.sub) :
    s.applyOrder o = (s.orderEffect o).putBack { sub := o.sub, reorder := o.reorder } := by
  have hn : ((s.orderEffect o).order.inflight.any fun x => x.sub == o.sub) = false := by simpa using h
  simp [State.applyOrder, State.putBack, hn]

theorem State.applyOrder_flying (h : ∃ x ∈ (s.orderEffect o).order.inflight, x.sub = o.sub) :
    s.applyOrder o = s.orderEffect o := by
  have hn : ((s.orderEffect o).order.inflight.any fun x => x.sub == o.sub) = true := by simpa using h
  simp [State.applyOrder, hn]

end

theorem OrderUnit.backAgain_work (u : OrderUnit) (i : Nat) (reorder : Bool) (h : u.work = []) :
    { u.backAgain i reorder with work := [] } = u.backAgain i reorder := by
  unfold OrderUnit.backAgain
  split_ifs <;> simp [← h]

@[simp] theorem State.putBack_mem (s : State) (x : Dispatch) : (s.putBack x).mem = s.mem := by
  unfold State.putBack
  split <;> simp

/-- The effect of a due AUDIT. -/
theorem State.orderEffect_audit {b : State} {o : OrderItem} (hk : o.kind = .audit) (hr : b.ownRec o.sub = o.record) :
    b.orderEffect o = b.finishOrder o o.record false true := by
  rw [State.orderEffect, State.orderRec_self hr, hk]

theorem State.claimOf_endDispatch (s : State) (i : Nat) : s.endDispatch.claimOf i = s.claimOf i :=
  State.claimOf_congr_dir s.endDispatch_dir i

/-- Settles O33: an AUDIT at once UNREACHABLE, or in flight. -/
theorem audits : Obligations.Audits := by
  intro s i reorder e p hd r hen hheld hc hfree
  have hj : (s.view .orderUnit).judge .audit i r = .accepted [] none := by simp [State.judge, checkAudit, hheld]
  obtain ⟨o, ⟨hk, hsub, -, hre, hrec⟩, ht⟩ := State.dispatch_silent hd (.inr hen) hj
  have hr : s.endDispatch.ownRec o.sub = o.record := by
    rw [State.ownRec_endDispatch, hrec, State.dueOrder_dispatched hd (by simp), hsub]
  subst hsub hre
  have hw : s.order.work = [] := hd.2.1
  have hl := s.endDispatch_leaves e p
  rw [← State.claimOf_endDispatch] at hc
  have heff := State.orderEffect_audit hk hr
  rw [show r = o.record from hrec.symm]
  refine ⟨fun blocked hout => ⟨_, exec_orderCommand .audit s, ?_⟩, fun hi => ⟨_, exec_orderCommand .audit s, ?_⟩⟩
  · rw [State.finishOrder_unreachable hc hk (hl.tapOut hout)] at heff
    rw [ht, State.applyOrder_landed (by rw [heff]; simpa using hfree), heff]
    refine ⟨?_, by simp, by simp, fun a => by simp⟩
    simpa using OrderUnit.backAgain_work { s.order with taken := none } o.sub o.reorder hw
  · rw [State.finishOrder_auditFlight hc hk (hl.tapIn hi), State.writeSubIfChanged, if_pos] at heff
    · rw [ht, State.applyOrder_flying (by rw [heff]; simp [OrderUnit.launched, OrderItem.flight]), heff]
      refine ⟨by simp, ?_, fun a => by simp⟩
      simp [OrderUnit.launched, OrderItem.flight, hk, hw]
    · exact congrArg SubRec.partWords ((State.ownRec_congr o.sub rfl rfl rfl rfl).trans hr)

end Sys2Proof.Machine
end

section
/-! ENROL, DISCONNECT, RETIER and REMOVE (O30). -/

open Sys2Proof

namespace Sys2Proof.Machine

/-- With wanted service OFF the wanted state is off (R44). -/
@[simp] theorem State.wantedOf_off (s : State) (i : Nat) (tiers : BitVec 16) (index : List IndexEntry) :
    s.wantedOf i false tiers index = PortState.off := rfl

section
variable {s b : State} {o : OrderItem} {kind : OrderKind} {i : Nat} {entry : Option EntryId} {notices : List QEntry}
  (h : s.Starts b o kind i entry notices)
include h

theorem State.Starts.effect_enrol (hk : kind = .enrol) (hi : s.ownRec i = s.dispatched i) :
    b.orderEffect o =
      b.writeSub i ((s.dispatched i).afresh.complete (s.dispatched i).oserial .done) := by
  rw [State.orderEffect, h.orderRec hi, h.ofKind, hk, h.sub]
  rfl

theorem State.Starts.effect_disconnect (hk : kind = .disconnect) (hi : s.ownRec i = s.dispatched i) :
    b.orderEffect o =
      (b.computeWanted o.sub false (s.dispatched i).tiers).finishOrder o { s.dispatched i with wantOn := false } false true := by
  rw [State.orderEffect, h.orderRec hi, h.ofKind, hk]
  rfl

theorem State.Starts.effect_retier (hk : kind = .retier) (hi : s.ownRec i = s.dispatched i) :
    b.orderEffect o =
      (b.computeWanted o.sub (s.dispatched i).wantOn (s.dispatched i).tiers).finishOrder o (s.dispatched i) false
        (s.dispatched i).wantOn := by
  rw [State.orderEffect, h.orderRec hi, h.ofKind, hk]
  rfl

/-- The changed words of the record that an order in flight leaves. -/
theorem State.Starts.changes (hi : s.ownRec i = s.dispatched i) (r : SubRec) :
    b.changes o.sub r = if (s.dispatched i).partWords = r.partWords then [] else [.sub i r.partWords false] := by
  rw [State.changes, h.sub, h.own, hi]

/-- Where the order changes wanted service, a burst of the record is asked for. -/
theorem State.Starts.changes_of_wantOn (hi : s.ownRec i = s.dispatched i) {r : SubRec}
    (hd : r.done = (s.dispatched i).done) (hr : r.result = (s.dispatched i).result)
    (he : r.enrolled = (s.dispatched i).enrolled) (hw : r.wantOn ≠ (s.dispatched i).wantOn) :
    b.changes o.sub r = [.sub i r.partWords false] := by
  rw [h.changes hi]
  exact if_neg (SubRec.partWords_ne hd hr he hw)

end

/-- A tap placed on a feeder that is neither OFF nor BLOCKED, and not LOST, can be reached. -/
theorem State.tapIn_of {s : State} {e : EntryId} {pl : Place} (hl : (s.entry e).state ≠ .lost)
    (hp : (s.entry e).place = some pl) (ho : (s.eng pl.feeder).state ≠ .off) (hb : (s.eng pl.feeder).state ≠ .blocked) :
    s.tapIn e := ⟨hl, pl, hp, ho, hb⟩

/-! ### The kinds -/

section
variable {s : State} {i : Nat} (hroom : s.bill.queue.length < Config.noticeDepth)
include hroom

theorem State.starts_enrol (hd : s.dueOrder .enrol i) (hen : (s.dispatched i).enrolled = false) :
    ∃ b o, s.Starts b o .enrol i none [.notice i (.enrolInit (s.dispatched i).tiers) s.time.minute] :=
  State.starts_noticed hd (.inl rfl) hroom (by simp [State.judge, checkEnrol, hen])

theorem State.starts_disconnect (hd : s.dueOrder .disconnect i) (hen : (s.dispatched i).enrolled = true)
    (hon : (s.dispatched i).wantOn = true) :
    ∃ b o, s.Starts b o .disconnect i none [.notice i .stopService s.time.minute] :=
  State.starts_noticed hd (.inr hen) hroom (by simp [State.judge, checkDisconnect, hon])

theorem State.starts_retier (hd : s.dueOrder .retier i) (hen : (s.dispatched i).enrolled = true) :
    ∃ b o, s.Starts b o .retier i none [.notice i (.retier (s.dispatched i).tiers) s.time.minute] :=
  State.starts_noticed hd (.inr hen) hroom rfl

end

/-! ### REMOVE (R17) -/

/-- A REMOVE is accepted of a subscriber out of service, billed, and without a purchase. -/
theorem State.checkRemove_accepted {s : State} {i : Nat} {r : SubRec} (hon : r.wantOn = false)
    (hst : (s.billRec i).state = .off) (ha : (s.billRec i).a = 0) (ho : (s.billRec i).o = 0) (hk : (s.billRec i).k = 0)
    (hch : (s.billRec i).charged = 0) (hre : (s.billRec i).refunded = 0) (hf : ∀ k : Fin 4, r.slots[k].used = false) :
    s.checkRemove i r = .accepted [] none := by
  have hu : r.slots.any (fun p => p.used) = false := by
    refine Bool.eq_false_iff.2 fun h => ?_
    obtain ⟨k, hk, hu⟩ := Vector.any_eq_true.1 h
    exact Bool.false_ne_true ((hf ⟨k, hk⟩).symm.trans hu)
  simp [State.checkRemove, hon, hst, ha, ho, hk, hch, hre, hu]

theorem State.releaseOwn_of_none {s : State} {i : Nat} (hc : s.claimOf i = none) : s.releaseOwn i = s := by
  unfold State.releaseOwn
  generalize s.claimOf i = c at hc
  subst hc
  rfl

theorem State.releaseOwn_of_claim {s : State} {i : Nat} {e : EntryId} {p : Port} (hc : s.claimOf i = some (e, p)) :
    s.releaseOwn i = s.releaseClaim e p := by
  unfold State.releaseOwn
  generalize s.claimOf i = c at hc
  subst hc
  rfl

/-- A claim given up leaves its port free and off. -/
theorem State.releaseClaim_leaves (b : State) (e : EntryId) (p : Port) :
    b.Leaves (b.releaseClaim e p) e p b.order [] { b.tapPort e p with claim := none, wanted := PortState.off } [] :=
  b.setTapPort_leaves e p b.order _

/-- The record as REMOVE writes it. -/
def SubRec.removed (r : SubRec) (serial : Nat) : SubRec := { r.unclaimed with enrolled := false }.complete serial .done

theorem State.orderEffect_remove {b : State} {o : OrderItem} (hk : o.kind = .remove) :
    b.orderEffect o =
      (b.releaseOwn o.sub).completeAtOnce o.sub { (b.orderRec o).unclaimed with enrolled := false } .done := by
  rw [State.orderEffect, hk]

/-- The words that an order has read are not among those that the part writes (R1). -/
theorem State.partWords_removed (b : State) (o : OrderItem) (serial : Nat) :
    ((b.orderRec o).removed serial).partWords = ((b.ownRec o.sub).removed serial).partWords := by
  simp only [SubRec.partWords, SubRec.removed, SubRec.complete, SubRec.unclaimed, State.orderRec]

theorem State.Starts.effect_remove {s b : State} {o : OrderItem} {i : Nat} {entry : Option EntryId}
    {notices : List QEntry} (h : s.Starts b o .remove i entry notices) :
    b.orderEffect o = (b.releaseOwn i).writeSub i ((s.ownRec i).removed (s.dispatched i).oserial) := by
  have hw := b.partWords_removed o o.record.oserial
  rw [h.sub, h.own, h.record] at hw
  rw [State.orderEffect_remove h.ofKind, State.completeAtOnce_done, h.sub, State.writeSub, State.writeSub, ← hw, ← h.record]
  rfl

/-- Settles O30: each of the four kinds, by how it completes. -/
theorem ordersDoneAtOnce : Obligations.OrdersDoneAtOnce := by
  intro s i hroom r
  refine ⟨fun hd hen => ?_, fun e p hd hen hon hc => ?_, fun hd hen hc => ?_, fun e p hd hen hc => ?_, ?_⟩
  · have hi := (State.dueOrder_dispatched hd (by simp)).symm
    obtain ⟨b, o, st⟩ := State.starts_enrol hroom hd hen
    refine ⟨_, exec_orderCommand .enrol s, ?_⟩
    rw [st.dispatch, st.effect_enrol rfl hi]
    have hw : s.order.work = [] := hd.2.1
    refine ⟨by simp [st.order, hw], by simp [st.bill, r], ?_, by simp [st.dir], fun a => by simp [st.mem]⟩
    simp [MemPath.line_congr st.lines, r]
  · have hi := (State.dueOrder_dispatched hd (by simp)).symm
    obtain ⟨b, o, st⟩ := State.starts_disconnect hroom hd hen hon
    have heff := st.effect_disconnect rfl hi
    refine ⟨fun ha => ?_, fun pl ha hl hp ho hb => ?_, fun blocked ha hout => ?_⟩
    · obtain ⟨t, ht, h⟩ := st.done hd.2.1 hc (by simp) heff (.inr ha)
      exact ⟨t, ht, h.order, h.bill, h.line, h.port, h.others, h.sameMemory⟩
    · obtain ⟨t, ht, h⟩ := st.flight hd.2.1 hc (by simp) heff (.inr ha) (State.tapIn_of hl hp ho hb)
      have hne : false ≠ r.wantOn := by simp [hon]
      rw [st.changes_of_wantOn (r := { r with wantOn := false }) hi rfl rfl rfl hne] at h
      exact ⟨t, ht, h.order, h.bill, h.line, h.port, h.others, h.sameMemory⟩
    · obtain ⟨t, ht, h⟩ := st.deferred hd.2.1 hc (by simp) heff (.inr ha) hout
      exact ⟨t, ht, h.order, h.bill, h.line, by simpa using h.port, h.others, h.sameMemory⟩
  · have hi := (State.dueOrder_dispatched hd (by simp)).symm
    obtain ⟨b, o, st⟩ := State.starts_retier hroom hd hen
    have hcb : b.claimOf o.sub = none := by rw [st.claimOf, st.sub, hc]
    refine ⟨_, exec_orderCommand .retier s, ?_⟩
    rw [st.dispatch, st.effect_retier rfl hi, State.computeWanted_of_none _ _ hcb, State.finishOrder_unclaimed _ _ hcb, st.sub]
    have hw : s.order.work = [] := hd.2.1
    refine ⟨by simp [st.order, hw], by simp [st.bill, r], ?_, by simp [st.dir], fun a => by simp [st.mem]⟩
    simp [MemPath.line_congr st.lines, r]
  · intro w
    have hi := (State.dueOrder_dispatched hd (by simp)).symm
    obtain ⟨b, o, st⟩ := State.starts_retier hroom hd hen
    have heff := st.effect_retier rfl hi
    refine ⟨fun ha => ?_, fun pl hon ha hl hp ho hb => ?_, fun blocked hon ha hout => ?_⟩
    · obtain ⟨t, ht, h⟩ := st.done hd.2.1 hc (by simp) heff ha
      exact ⟨t, ht, h.order, h.bill, h.line, h.port, h.others, h.sameMemory⟩
    · rw [show (s.dispatched i).wantOn = true from hon] at heff
      obtain ⟨t, ht, h⟩ := st.flight hd.2.1 hc (by simp) heff (.inr (by simpa [w, hon] using ha)) (State.tapIn_of hl hp ho hb)
      rw [st.changes hi, if_pos rfl] at h
      exact ⟨t, ht, h.order, h.bill, h.silent rfl, by simpa [w, hon] using h.port, h.others, h.sameMemory⟩
    · rw [show (s.dispatched i).wantOn = true from hon] at heff
      obtain ⟨t, ht, h⟩ := st.deferred hd.2.1 hc (by simp) heff (.inr (by simpa [w, hon] using ha)) hout
      exact ⟨t, ht, h.order, h.bill, h.line, by simpa [w, hon] using h.port, h.others, h.sameMemory⟩
  · intro b0 hd hen hon hst ha ho hk hch hre hf
    obtain ⟨b, o, st⟩ := State.starts_silent hd (.inr hen) (State.checkRemove_accepted hon hst ha ho hk hch hre hf)
    have hw : s.order.work = [] := hd.2.1
    refine ⟨_, exec_orderCommand .remove s, ?_⟩
    rw [st.dispatch, st.effect_remove]
    cases hc : s.claimOf i with
    | none =>
      rw [State.releaseOwn_of_none ((st.claimOf i).trans hc)]
      refine ⟨by simp [st.order, hw], by simp [st.bill], ?_, by simp [st.dir], by simp, fun a => by simp [st.mem]⟩
      simp [MemPath.line_congr st.lines, SubRec.removed, r]
    | some x =>
      obtain ⟨e, p⟩ := x
      rw [State.releaseOwn_of_claim ((st.claimOf i).trans hc)]
      have hr := (st.leaves e p).trans (b.releaseClaim_leaves e p)
      have h := (hr.trans (State.writeSub_leaves _ e p i ((s.ownRec i).removed (s.dispatched i).oserial))).closed
      rw [hr.order, hr.port, (st.leaves e p).port, st.order] at h
      refine ⟨h.order.trans (by simp [hw]), h.bill_eq, h.line, by simp, ?_, h.sameMemory⟩
      intro e' p' he
      cases he
      exact ⟨h.port, h.others⟩

end Sys2Proof.Machine
end

section
/-! BUY and CANCEL (O32). -/

open Sys2Proof

namespace Sys2Proof.Machine

/-! ### The words of a purchase slot (R2) -/

@[simp] theorem Purchase.words_length (p : Purchase) : p.words.length = 2 := by
  unfold Purchase.words
  split <;> rfl

/-- The part's words of a record hold those of each purchase slot. -/
theorem SubRec.slot_words_of_partWords {r r1 : SubRec} (h : r.partWords = r1.partWords) (k : Fin 4) :
    r.slots[k].words = r1.slots[k].words := by
  obtain ⟨h012, h3⟩ := List.append_inj' h (by simp)
  obtain ⟨h01, h2⟩ := List.append_inj' h012 (by simp)
  obtain ⟨h0, h1⟩ := List.append_inj' h01 (by simp)
  have hz := (List.append_inj' h0 (by simp)).2
  fin_cases k
  · exact hz
  · exact h1
  · exact h2
  · exact h3

@[simp] theorem SubRec.setSlot_same (r : SubRec) (k : Fin 4) (x : Purchase) : (r.setSlot k x).slots[k] = x := by
  simp [SubRec.setSlot]

theorem SubRec.freeSlot_free {r : SubRec} {j : Fin 4} (h : r.freeSlot = some j) : r.slots[j].used = false := by
  simpa [SubRec.freeSlot] using List.find?_some h

/-- The words of a free slot and of a BOOKED purchase differ. -/
theorem Purchase.words_ne_of_booked {x : Purchase} {id price overlap : Nat} (hx : x.used = false) (hid : id ≠ 0) :
    x.words ≠ (Purchase.mk id price .booked false overlap).words := by
  have h0 : x.event = 0 := by simpa [Purchase.used] using hx
  simp only [Purchase.words, h0, hid, if_true, if_false]
  intro h
  have hw : (0 : Word).toNat = (word (1 + 4 * bitOf false + 2 ^ 16 * overlap)).toNat := by
    have h1 := (List.cons.inj (List.cons.inj h).2).1
    simpa using congrArg BitVec.toNat h1
  simp only [word, BitVec.toNat_ofNat, bitOf] at hw
  simp at hw
  omega

/-! ### The effects of BUY and CANCEL (R15, R16) -/

/-- A change of the Order Unit's own leaves the port. -/
theorem State.withOrder_leaves (b : State) (e : EntryId) (p : Port) (u : OrderUnit) :
    b.Leaves { b with order := u } e p u [] (b.tapPort e p) [] :=
  State.leaves_of_dir (t := { b with order := u }) e p rfl (List.append_nil _).symm (fun _ => rfl) (by simp) rfl rfl rfl

/-- The state with another Purchase Index (R2). -/
def State.reindexed (b : State) (index : List IndexEntry) : State := { b with order := { b.order with index := index } }

theorem State.addIndex_eq (b : State) (x : IndexEntry) : b.addIndex x = b.reindexed (b.order.index ++ [x]) := rfl

theorem State.dropIndex_eq (b : State) (sub event : Nat) :
    b.dropIndex sub event =
      b.reindexed (b.order.index.filter fun x => !(x.sub == sub && x.event == event && x.state == .booked)) := rfl

theorem State.claimOf_reindexed (b : State) (index : List IndexEntry) (i : Nat) :
    (b.reindexed index).claimOf i = b.claimOf i := State.claimOf_congr i fun _ _ => rfl

theorem State.active_congr {s t : State} (h : t.lineUp = s.lineUp) : t.active = s.active := by
  rw [State.active, State.active, h]

/-- The Purchase Index entry of an accepted BUY. -/
def State.buyEntry (s : State) (i : Nat) (r : SubRec) (k : SlotId) : IndexEntry :=
  { sub := i, event := r.oarg, band := s.active.slots[k].band, state := .booked }

/-- The record of an accepted BUY. -/
def State.buyRecord (s : State) (r : SubRec) (k : SlotId) (j : Fin 4) : SubRec :=
  r.setSlot j (Purchase.mk r.oarg s.active.slots[k].price .booked false 0)

theorem State.applyBuy_of_slots {b : State} {o : OrderItem} {r : SubRec} {k : SlotId} {j : Fin 4}
    (hk : b.active.slotOfEvent r.oarg = some k) (hj : r.freeSlot = some j) :
    b.applyBuy o r =
      (if b.active.ev[k] = .running then (b.addIndex (b.buyEntry o.sub r k)).computeWanted o.sub r.wantOn r.tiers
       else b.addIndex (b.buyEntry o.sub r k)).finishOrder o (b.buyRecord r k j) false true := by
  unfold State.applyBuy
  rw [hk, hj]
  rfl

theorem State.applyCancel_of_slot {b : State} {o : OrderItem} {r : SubRec} {k : Fin 4} (hk : r.slotOf r.oarg = some k) :
    b.applyCancel o r =
      ((b.dropIndex o.sub r.oarg).computeWanted o.sub r.wantOn r.tiers).writeSub o.sub
        ((r.setSlot k Purchase.free).complete r.oserial .done) := by
  unfold State.applyCancel
  rw [hk]
  rfl

theorem checkCancel_accepted {r : SubRec} {k : Fin 4} (hk : r.slotOf r.oarg = some k) (hb : r.slots[k].state = .booked) :
    checkCancel r = .accepted [] none := by
  unfold checkCancel
  rw [hk]
  exact if_neg (by rw [hb]; simp)

section
variable {s b : State} {o : OrderItem} {i : Nat} {entry : Option EntryId} {notices : List QEntry}

theorem State.Starts.effect_buy (h : s.Starts b o .buy i entry notices) (hi : s.ownRec i = s.dispatched i) :
    b.orderEffect o = b.applyBuy o (s.dispatched i) := by
  rw [State.orderEffect, h.orderRec hi, h.ofKind]

theorem State.Starts.effect_cancel (h : s.Starts b o .cancel i entry notices) (hi : s.ownRec i = s.dispatched i) :
    b.orderEffect o = b.applyCancel o (s.dispatched i) := by
  rw [State.orderEffect, h.orderRec hi, h.ofKind]

theorem State.Starts.active (h : s.Starts b o .buy i entry notices) : b.active = s.active := State.active_congr h.lineUp

end

section
variable {s : State} {i : Nat} {k : SlotId} {j : Fin 4}

/-- An accepted BUY has its entry in the Purchase Index; a RUNNING event has the wanted state computed again. -/
theorem State.starts_buy (hd : s.dueOrder .buy i) (hen : (s.dispatched i).enrolled = true)
    (hon : (s.dispatched i).wantOn = true) (ha : (s.dispatched i).oarg ≠ 0)
    (hk : s.active.slotOfEvent (s.dispatched i).oarg = some k) (hs : (s.dispatched i).slotOf (s.dispatched i).oarg = none)
    (hj : (s.dispatched i).freeSlot = some j) (hl : s.order.index.length < 256) (he : s.active.ev[k] ≠ .ended) :
    ∃ b o, s.Starts b o .buy i none [] ∧
      b.orderEffect o =
        (if s.active.ev[k] = .running then
           (b.addIndex (s.buyEntry i (s.dispatched i) k)).computeWanted o.sub true (s.dispatched i).tiers
         else b.addIndex (s.buyEntry i (s.dispatched i) k)).finishOrder o (s.buyRecord (s.dispatched i) k j) false true := by
  have hv := State.dueOrder_view hd (by simp)
  have hi := (State.dueOrder_dispatched hd (by simp)).symm
  obtain ⟨b, o, st⟩ := State.starts_silent hd (.inr hen) (entry := none) (by
    rw [hv, State.judge, State.checkBuy_of_slot hon ha hk, if_neg he, if_neg (by simp [hs]), if_neg (by simp [hj]),
      if_neg (by omega)])
  refine ⟨b, o, st, ?_⟩
  rw [st.effect_buy hi, State.applyBuy_of_slots (by rw [st.active, hk]) hj, State.buyEntry, State.buyRecord,
    st.active, st.sub, hon]
  rfl

end

section
variable {s b : State} {o : OrderItem} {kind : OrderKind} {i : Nat} {entry : Option EntryId} (h : s.Starts b o kind i entry [])
include h

/-- The Purchase Index changed before the wanted state is computed. -/
theorem State.Starts.reindexed (index : List IndexEntry) (e : EntryId) (p : Port) :
    s.Leaves (b.reindexed index) e p { s.order with taken := none, index := index } [] (s.tapPort e p) [] := by
  have hl := (h.leaves e p).trans (b.withOrder_leaves e p { b.order with index := index })
  rw [(h.leaves e p).port, h.order] at hl
  rw [State.reindexed, h.order]
  exact hl

theorem State.Starts.claimOf_reindexed (index : List IndexEntry) {e : EntryId} {p : Port} (hc : s.claimOf i = some (e, p)) :
    (b.reindexed index).claimOf o.sub = some (e, p) := by
  rw [State.claimOf_reindexed, h.claimOf, h.sub, hc]

theorem State.Starts.index : b.order.index = s.order.index := by rw [h.order]

end

/-- A BUY changes the record's words: its slot was free. -/
theorem State.Starts.changes_of_buy {s b : State} {o : OrderItem} {i : Nat} {entry : Option EntryId} {k : SlotId} {j : Fin 4}
    (h : s.Starts b o .buy i entry []) (hi : s.ownRec i = s.dispatched i) (ha : (s.dispatched i).oarg ≠ 0)
    (hj : (s.dispatched i).freeSlot = some j) (index : List IndexEntry) :
    (b.reindexed index).changes o.sub (s.buyRecord (s.dispatched i) k j) =
      [.sub i (s.buyRecord (s.dispatched i) k j).partWords false] := by
  have hr : (b.reindexed index).ownRec i = s.dispatched i := (State.ownRec_congr i rfl rfl rfl rfl).trans (h.own.trans hi)
  rw [State.changes, h.sub, hr]
  refine if_neg fun hw => ?_
  have hx := SubRec.slot_words_of_partWords hw j
  rw [State.buyRecord, SubRec.setSlot_same] at hx
  exact Purchase.words_ne_of_booked (SubRec.freeSlot_free hj) ha hx

/-- Settles O32: a BUY by its event's state and by whether its tap can be reached, and a CANCEL. -/
theorem purchasesBookedAndCancelled : Obligations.PurchasesBookedAndCancelled := by
  intro s i e p r hen hc
  refine ⟨fun k j hd hon ha hk hs hj hl => ?_, fun k hd hk hbk => ?_⟩
  · intro bought booked
    have hw : s.order.work = [] := hd.2.1
    refine ⟨fun hev happ => ?_, fun pl hev happ hl1 hp ho hb => ?_, fun blocked hev => ?_⟩
    · obtain ⟨b, o, st, heff⟩ := State.starts_buy hd hen hon ha hk hs hj hl (by simp [hev])
      have hs1 := st.reindexed (s.order.index ++ [s.buyEntry i r k]) e p
      rw [if_neg (by simp [hev]), State.addIndex_eq, st.index,
        State.finishOrder_done true (st.claimOf_reindexed _ hc) (by simp [st.ofKind]) (.inr (by rw [hs1.port]; exact happ)),
        st.sub] at heff
      have h := (hs1.trans (State.writeSub_leaves _ e p i (booked.complete r.oserial .done))).closed
      rw [hs1.order] at h
      refine ⟨_, exec_orderCommand .buy s, ?_⟩
      rw [st.dispatch, heff]
      refine ⟨h.bill_eq, ?_, h.order.trans (by rw [← hw]; rfl), h.line, h.sameMemory⟩
      rw [State.closed_dir, State.writeSub_dir]
      exact st.dir
    · obtain ⟨b, o, st, heff⟩ := State.starts_buy hd hen hon ha hk hs hj hl (by simp [hev])
      rw [if_pos hev, State.addIndex_eq, st.index] at heff
      have h := (st.reindexed (s.order.index ++ [s.buyEntry i r k]) e p).flight hw (st.claimOf_reindexed _ hc) true r.tiers
        (r := s.buyRecord r k j) (mark := false) (by simp [st.ofKind]) (.inr (by rw [st.sub]; exact happ))
        (State.tapIn_of hl1 hp ho hb)
      rw [st.changes_of_buy (State.dueOrder_dispatched hd (by simp)).symm ha hj, OrderItem.flight, st.once, st.ofKind] at h
      refine ⟨_, exec_orderCommand .buy s, ?_⟩
      rw [st.dispatch, heff]
      rw [st.sub] at h ⊢
      exact ⟨h.bill_eq, h.port, h.order, h.line, h.sameMemory⟩
    · intro index w happ hout
      obtain ⟨b, o, st, heff⟩ := State.starts_buy hd hen hon ha hk hs hj hl (by simp [hev])
      rw [if_pos hev, State.addIndex_eq, st.index] at heff
      have h := (st.reindexed (s.order.index ++ [s.buyEntry i r k]) e p).deferred hw (st.claimOf_reindexed _ hc) true r.tiers
        (r := s.buyRecord r k j) (mark := false) (by simp [st.ofKind]) (.inr (by rw [st.sub]; exact happ)) hout
      refine ⟨_, exec_orderCommand .buy s, ?_⟩
      rw [st.dispatch, heff]
      rw [st.sub] at h ⊢
      simp only [Bool.or_false] at h
      exact ⟨h.bill_eq, h.order, h.port, h.line, h.sameMemory⟩
  · intro index
    have hi := (State.dueOrder_dispatched hd (by simp)).symm
    have hw : s.order.work = [] := hd.2.1
    obtain ⟨b, o, st⟩ := State.starts_silent hd (.inr hen) (entry := none) (checkCancel_accepted hk hbk)
    have heff := (st.effect_cancel hi).trans (State.applyCancel_of_slot hk)
    rw [State.dropIndex_eq, st.index] at heff
    have hs1 := (st.reindexed (s.order.index.filter fun x => !(x.sub == o.sub && x.event == r.oarg && x.state == .booked))
      e p).computed (st.claimOf_reindexed _ hc) r.wantOn r.tiers
    have h := (hs1.trans (State.writeSub_leaves _ e p o.sub ((r.setSlot k Purchase.free).complete r.oserial .done))).closed
    rw [hs1.order, hs1.port] at h
    refine ⟨_, exec_orderCommand .cancel s, ?_⟩
    rw [st.dispatch, heff]
    rw [st.sub] at h ⊢
    exact ⟨h.bill_eq, h.order.trans (by rw [← hw]), h.port, h.others, h.line, h.sameMemory⟩

end Sys2Proof.Machine
end

section
/-! CONNECT and MOVE, and the wanted state of a claimed port (O31). -/

open Sys2Proof

namespace Sys2Proof.Machine

/-! ### The wanted state (R44) -/

theorem bitOf_le_one (b : Bool) : bitOf b ≤ 1 := by cases b <;> simp [bitOf]

theorem bitOf_eq_one (b : Bool) : decide (bitOf b = 1) = b := by cases b <;> rfl

/-- A mask built flag by flag reads each flag back. -/
theorem getLsbD_flags (f : Fin 8 → Bool) (b : Fin 8) :
    (BitVec.ofNat 8 ((List.finRange 8).foldl (fun n b => n + 2 ^ b.val * bitOf (f b)) 0)).getLsbD b.val = f b := by
  have h : ∀ k, bitOf (f k) ≤ 1 := fun k => bitOf_le_one (f k)
  have h0 := h 0; have h1 := h 1; have h2 := h 2; have h3 := h 3
  have h4 := h 4; have h5 := h 5; have h6 := h 6; have h7 := h 7
  rw [BitVec.getLsbD_ofNat, Nat.testBit_eq_decide_div_mod_eq, ← bitOf_eq_one (f b)]
  have hb : decide (b.val < 8) = true := by simp
  rw [hb, Bool.true_and, decide_eq_decide]
  simp only [List.finRange_succ, List.finRange_zero, List.map_nil, List.map_cons, List.foldl_cons, List.foldl_nil]
  fin_cases b <;> simp <;> omega

section
variable (s : State) (sub : Nat) (tiers : BitVec 16) (index : List IndexEntry)

/-- The mask holds each band's pass flag. -/
theorem State.passMask_bit (b : Fin 8) : (s.passMask sub tiers index).getLsbD b.val = s.passes sub tiers index b :=
  getLsbD_flags (s.passes sub tiers index) b

variable {s} {b : Fin 8}

theorem State.passes_closed (h : s.active.plan[b].kind = .closed) : s.passes sub tiers index b = false := by
  simp only [State.passes, h]

theorem State.passes_tier (h : s.active.plan[b].kind = .tier) :
    s.passes sub tiers index b = tiers.getLsbD s.active.plan[b].tier := by
  simp only [State.passes, h]

/-- An EVENT band passes for a purchase, not yet settling, of the event RUNNING in it. -/
theorem State.passes_event (h : s.active.plan[b].kind = .event) :
    s.passes sub tiers index b = true ↔ ∃ id, s.active.runningIn b.val = some id ∧
      ∃ x ∈ index, x.sub = sub ∧ x.event = id ∧ x.state ≠ .settling := by
  simp only [State.passes, h]
  cases s.active.runningIn b.val with
  | none => simp
  | some id =>
    simp only [List.any_eq_true, Bool.and_eq_true, beq_iff_eq, bne_iff_ne, and_assoc, Option.some_inj, exists_eq_left']

end

/-- The one RUNNING event of a band is the one found. -/
theorem Copy.runningIn_of_unique {c : Copy} {b : Nat} {k : SlotId} (he : c.slots[k].isEvent = true) (hb : c.slots[k].band = b)
    (hr : c.ev[k] = .running)
    (hu : ∀ j : SlotId, j ≠ k → ¬ (c.slots[j].isEvent = true ∧ c.slots[j].band = b ∧ c.ev[j] = .running)) :
    c.runningIn b = some c.slots[k].event := by
  rw [Copy.runningIn, Option.map_eq_some_iff]
  cases hf : (List.finRange 72).find? fun k => c.slots[k].isEvent && c.slots[k].band == b && c.ev[k] == .running with
  | none =>
    have hk := List.find?_eq_none.1 hf k (List.mem_finRange k)
    simp only [he, hb, hr, Bool.true_and, beq_self_eq_true, not_true_eq_false] at hk
  | some j =>
    have hj := List.find?_some hf
    simp only [Bool.and_eq_true, beq_iff_eq] at hj
    have hjk : j = k := by
      by_contra hne
      exact hu j hne ⟨hj.1.1, hj.1.2, hj.2⟩
    exact ⟨j, rfl, by rw [hjk]⟩

/-- An entry of the subscriber takes the band of its event; what else it holds stands. -/
theorem State.setBands_getElem? {s : State} {sub n : Nat} {index : List IndexEntry} {x y : IndexEntry}
    (hx : (s.setBands sub index)[n]? = some x) (hy : index[n]? = some y) :
    x.sub = y.sub ∧ x.event = y.event ∧ x.state = y.state ∧
      (y.sub ≠ sub ∨ s.active.slotOfEvent y.event = none → x.band = y.band) ∧
      ∀ k : SlotId, y.sub = sub → s.active.slotOfEvent y.event = some k → x.band = s.active.slots[k].band := by
  rw [State.setBands, List.getElem?_map, hy, Option.map_some, Option.some_inj] at hx
  subst hx
  by_cases hsub : y.sub = sub
  · cases hk : s.active.slotOfEvent y.event with
    | none => simp [hsub]
    | some k => simp [hsub]
  · simp [hsub]

/-! ### CONNECT (R11) -/

section
variable {s : State} {i : Nat} {e : EntryId} {entry : Option EntryId} {notices : List QEntry}

/-- The record of a claim made: the port claimed, the confirmed state NONE. -/
def SubRec.claimed (r : SubRec) : SubRec :=
  { r with claimHeld := true, claimPort := r.port, claimSerial := r.serial, confirmed := .none }

/-- The record of a CONNECT of a subscriber with a claim: wanted service ON. -/
def SubRec.connected (r : SubRec) : SubRec := if r.wantOn then r else { r with wantOn := true, confirmed := .none }

@[simp] theorem SubRec.connected_oserial (r : SubRec) : r.connected.oserial = r.oserial := by
  unfold SubRec.connected
  split <;> rfl

theorem State.claimedByOther_of_free {s : State} {e : EntryId} {p : Port} {i : Nat} (h : (s.tapPort e p).claim = none) :
    s.claimedByOther e p i = false := by
  simp [State.claimedByOther, h]

theorem State.makeClaim_leaves (b : State) (e : EntryId) (p : Port) (i : Nat) :
    b.Leaves (b.makeClaim e p i) e p b.order [] { b.tapPort e p with claim := some i } [] :=
  b.setTapPort_leaves e p b.order _

/-- A CONNECT that makes a claim. -/
theorem State.starts_connect (hroom : s.bill.queue.length < Config.noticeDepth) (hd : s.dueOrder .connect i)
    (hen : (s.dispatched i).enrolled = true) (hent : s.entryOfSerial (s.dispatched i).serial = some e)
    (hfree : (s.tapPort e (s.dispatched i).port).claim = none) (hheld : (s.dispatched i).claimHeld = false)
    (hon : (s.dispatched i).wantOn = false) :
    ∃ b o, s.Starts b o .connect i (some e) [.notice i .awaitService s.time.minute] ∧
      b.orderEffect o =
        ((b.makeClaim e (s.dispatched i).port o.sub).computeWanted o.sub true (s.dispatched i).tiers).finishOrder o
          { (s.dispatched i).claimed with wantOn := true } false true := by
  have hv := State.dueOrder_view hd (by simp)
  have hi := (State.dueOrder_dispatched hd (by simp)).symm
  have hj : (s.view .orderUnit).judge .connect i (s.dispatched i) = .accepted [.awaitService] (some e) := by
    simp [hv, State.judge, State.checkConnect, hheld, hent, State.claimedByOther_of_free hfree, hon]
  obtain ⟨b, o, st⟩ := State.starts_noticed hd (.inr hen) hroom hj
  refine ⟨b, o, st, ?_⟩
  rw [State.orderEffect, st.orderRec hi, st.ofKind]
  simp only [State.applyConnect, st.ofEntry, hon]
  rfl

/-- A CONNECT of a subscriber with a claim. -/
theorem State.starts_connect_held (hroom : s.bill.queue.length < Config.noticeDepth) (hd : s.dueOrder .connect i)
    (hen : (s.dispatched i).enrolled = true) (hheld : (s.dispatched i).claimHeld = true) :
    ∃ b o, s.Starts b o .connect i none
        (if (s.dispatched i).wantOn then [] else [.notice i .awaitService s.time.minute]) ∧
      b.orderEffect o =
        (b.computeWanted o.sub true (s.dispatched i).tiers).finishOrder o (s.dispatched i).connected
          (s.dispatched i).wantOn true := by
  have hi := (State.dueOrder_dispatched hd (by simp)).symm
  have hstart : ∃ b o, s.Starts b o .connect i none
      (if (s.dispatched i).wantOn then [] else [.notice i .awaitService s.time.minute]) := by
    cases hon : (s.dispatched i).wantOn with
    | true => exact State.starts_silent hd (.inr hen) (by simp [State.judge, State.checkConnect, hheld, hon])
    | false => exact State.starts_noticed hd (.inr hen) hroom (by simp [State.judge, State.checkConnect, hheld, hon])
  obtain ⟨b, o, st⟩ := hstart
  refine ⟨b, o, st, ?_⟩
  rw [State.orderEffect, st.orderRec hi, st.ofKind]
  simp only [State.applyConnect, st.ofEntry]
  rfl

/-- The words that such a CONNECT changes. -/
theorem State.Starts.changes_of_connect {b : State} {o : OrderItem} (st : s.Starts b o .connect i entry notices)
    (hi : s.ownRec i = s.dispatched i) :
    b.changes o.sub (s.dispatched i).connected =
      if (s.dispatched i).wantOn then [] else [.sub i (s.dispatched i).connected.partWords false] := by
  cases hon : (s.dispatched i).wantOn with
  | true =>
    rw [st.changes hi, SubRec.connected, hon]
    exact if_pos rfl
  | false =>
    have hr : (s.dispatched i).connected = { s.dispatched i with wantOn := true, confirmed := .none } := by
      rw [SubRec.connected, hon]
      rfl
    rw [hr]
    exact st.changes_of_wantOn hi rfl rfl rfl (by simp [hon])

end

/-! ### MOVE (R14) -/

section
variable {s : State} {o : OrderItem} {r : SubRec} {e : EntryId} {p : Port} {on : Bool} {tiers : BitVec 16}

/-- A tap is out, blocked or not, or can be reached. -/
theorem State.tap_cases (s : State) (e : EntryId) : (∃ blocked, s.tapOut e blocked) ∨ s.tapIn e := by
  by_cases hl : (s.entry e).state = .lost
  · exact .inl ⟨false, .inl hl⟩
  cases hp : (s.entry e).place with
  | none => exact .inl ⟨false, .inr (.inl hp)⟩
  | some pl =>
    by_cases ho : (s.eng pl.feeder).state = .off
    · exact .inl ⟨false, .inr (.inr ⟨pl, hp, ho⟩)⟩
    by_cases hb : (s.eng pl.feeder).state = .blocked
    · exact .inl ⟨true, hl, pl, hp, hb⟩
    · exact .inr ⟨hl, pl, hp, ho, hb⟩

theorem State.leaves_self (s : State) (e : EntryId) (p : Port) : s.Leaves s e p s.order [] (s.tapPort e p) [] :=
  s.withOrder_leaves e p s.order

/-- However an order completes, its port keeps its claim and has the wanted state computed, and the Order Queue stands. -/
theorem State.computed_keeps (hw : s.order.work = []) (hc : s.claimOf o.sub = some (e, p)) (hk : o.kind ≠ .audit) :
    ∃ u asks x, s.Leaves ((s.computeWanted o.sub on tiers).finishOrder o r false true).closed e p u asks x [] ∧
      u.queue = s.order.queue ∧ u.taken = s.order.taken ∧ x.claim = (s.tapPort e p).claim ∧
      x.wanted = s.wantedOf o.sub on tiers (s.setBands o.sub s.order.index) := by
  have hs := s.leaves_self e p
  by_cases ha : (s.tapPort e p).applied = some (s.wantedOf o.sub on tiers (s.setBands o.sub s.order.index))
  · exact ⟨_, _, _, hs.done hw hc on tiers hk (.inr ha), rfl, rfl, rfl, rfl⟩
  rcases s.tap_cases e with ⟨blocked, hout⟩ | hin
  · exact ⟨_, _, _, hs.deferred hw hc on tiers hk (.inr ha) hout, rfl, rfl, rfl, rfl⟩
  · exact ⟨_, _, _, hs.flight hw hc on tiers hk (.inr ha) hin, rfl, rfl, rfl, rfl⟩

end

section
variable {s b : State} {i : Nat} {e e0 : EntryId} {p p0 : Port}

/-- The directory as a MOVE leaves it: the old claim given up, the new one made. -/
def State.movedClaim (b : State) (i : Nat) (e0 : EntryId) (p0 : Port) (e : EntryId) (p : Port) : State :=
  (b.releaseClaim e0 p0).makeClaim e p i

theorem State.movedClaim_tapPort (hne : (e0, p0) ≠ (e, p)) (d : EntryId) (q : Port) :
    (b.movedClaim i e0 p0 e p).tapPort d q =
      if e = d ∧ p = q then { b.tapPort e p with claim := some i }
      else if e0 = d ∧ p0 = q then { b.tapPort e0 p0 with claim := none, wanted := PortState.off }
      else b.tapPort d q := by
  have h : ¬ (e0 = e ∧ p0 = p) := fun h => hne (by rw [h.1, h.2])
  rw [State.movedClaim, State.makeClaim, State.tapPort_setTapPort, State.releaseClaim, State.tapPort_setTapPort,
    State.tapPort_setTapPort, if_neg h]

@[simp] theorem State.movedClaim_new (hne : (e0, p0) ≠ (e, p)) :
    (b.movedClaim i e0 p0 e p).tapPort e p = { b.tapPort e p with claim := some i } := by
  rw [State.movedClaim_tapPort hne, if_pos ⟨rfl, rfl⟩]

theorem State.movedClaim_old (hne : (e0, p0) ≠ (e, p)) :
    (b.movedClaim i e0 p0 e p).tapPort e0 p0 = { b.tapPort e0 p0 with claim := none, wanted := PortState.off } := by
  have h : ¬ (e = e0 ∧ p = p0) := fun h => hne (by rw [h.1, h.2])
  rw [State.movedClaim_tapPort hne, if_neg h, if_pos ⟨rfl, rfl⟩]

/-- The subscriber's one claim is then the new one. -/
theorem State.movedClaim_claimOf (hne : (e0, p0) ≠ (e, p))
    (hu : ∀ d q, (b.tapPort d q).claim = some i → (d, q) = (e0, p0)) :
    (b.movedClaim i e0 p0 e p).claimOf i = some (e, p) := by
  refine State.claimOf_of_unique (by rw [State.movedClaim_new hne]) fun d q hd => ?_
  rw [State.movedClaim_tapPort hne] at hd
  split_ifs at hd with h1 h2
  · rw [h1.1, h1.2]
  · exact absurd (hu d q hd) fun h => h2 (by cases h; exact ⟨rfl, rfl⟩)

theorem State.movedClaim_place (d : EntryId) :
    ((b.movedClaim i e0 p0 e p).entry d).state = (b.entry d).state ∧
      ((b.movedClaim i e0 p0 e p).entry d).place = (b.entry d).place := by
  simp [State.movedClaim, State.makeClaim, State.releaseClaim]

/-- An accepted MOVE. -/
theorem State.starts_move (hroom : s.bill.queue.length < Config.noticeDepth) (hd : s.dueOrder .move i)
    (hen : (s.dispatched i).enrolled = true) (hent : s.entryOfSerial (s.dispatched i).serial = some e)
    (hfree : (s.tapPort e (s.dispatched i).port).claim = none) (hheld : (s.dispatched i).claimHeld = true)
    (hc : s.claimOf i = some (e0, p0)) (hne : (e0, p0) ≠ (e, (s.dispatched i).port)) :
    ∃ b o, s.Starts b o .move i (some e) [.notice i .move s.time.minute] ∧
      b.orderEffect o =
        ((b.movedClaim i e0 p0 e (s.dispatched i).port).computeWanted o.sub (s.dispatched i).wantOn
          (s.dispatched i).tiers).finishOrder o (s.dispatched i).claimed false true := by
  have hv := State.dueOrder_view hd (by simp)
  have hi := (State.dueOrder_dispatched hd (by simp)).symm
  have hj : (s.view .orderUnit).judge .move i (s.dispatched i) = .accepted [.move] (some e) := by
    rw [hv, State.judge, State.checkMove, if_pos hheld, hent]
    simp only [hc, Option.some_inj]
    rw [if_neg hne, State.claimedByOther_of_free hfree]
    rfl
  obtain ⟨b, o, st⟩ := State.starts_noticed hd (.inr hen) hroom hj
  refine ⟨b, o, st, ?_⟩
  rw [State.orderEffect, st.orderRec hi, st.ofKind]
  simp only [State.applyMove, st.ofEntry]
  rw [State.releaseOwn_of_claim (by rw [st.claimOf, st.sub, hc]), st.sub]
  rfl

end

section
variable {s b : State} {o : OrderItem} {i : Nat} {entry : Option EntryId} {notices : List QEntry} {e e0 : EntryId}
  {p p0 : Port} (h : s.Starts b o .move i entry notices)
include h

/-- What a MOVE's change of the claims leaves. -/
theorem State.Starts.movedClaim_facts (hne : (e0, p0) ≠ (e, p)) :
    (b.movedClaim i e0 p0 e p).tapPort e0 p0 = { s.tapPort e0 p0 with claim := none, wanted := PortState.off } ∧
      (b.movedClaim i e0 p0 e p).tapPort e p = { s.tapPort e p with claim := some i } ∧
      (b.movedClaim i e0 p0 e p).order = { s.order with taken := none } ∧
      (b.movedClaim i e0 p0 e p).bill = { s.bill with queue := s.bill.queue ++ notices } ∧
      (b.movedClaim i e0 p0 e p).path.line .orderUnit = s.path.line .orderUnit ∧
      (b.movedClaim i e0 p0 e p).mem = s.mem ∧ (b.movedClaim i e0 p0 e p).ownRec i = b.ownRec i ∧
      (b.movedClaim i e0 p0 e p).lineUp = s.lineUp :=
  ⟨by rw [State.movedClaim_old hne, State.tapPort_congr h.dir], by rw [State.movedClaim_new hne, State.tapPort_congr h.dir],
    h.order, h.bill, MemPath.line_congr h.lines _, h.mem, State.ownRec_congr i rfl rfl rfl rfl, h.lineUp⟩

theorem State.Starts.movedClaim_tapIn (hi : s.tapIn e) : (b.movedClaim i e0 p0 e p).tapIn e :=
  State.tapIn_congr (by rw [(State.movedClaim_place e).1, State.entry_congr h.dir])
    (by rw [(State.movedClaim_place e).2, State.entry_congr h.dir]) h.engines hi

theorem State.Starts.movedClaim_tapOut (blocked : Bool) (ho : s.tapOut e blocked) :
    (b.movedClaim i e0 p0 e p).tapOut e blocked :=
  State.tapOut_congr (t := b.movedClaim i e0 p0 e p) (by rw [(State.movedClaim_place e).1, State.entry_congr h.dir])
    (by rw [(State.movedClaim_place e).2, State.entry_congr h.dir]) h.engines blocked ho

theorem State.Starts.movedClaim_unique (hne : (e0, p0) ≠ (e, p))
    (hu : ∀ d q, (s.tapPort d q).claim = some i → (d, q) = (e0, p0)) :
    (b.movedClaim i e0 p0 e p).claimOf i = some (e, p) :=
  State.movedClaim_claimOf hne fun d q hd => hu d q (by rwa [State.tapPort_congr h.dir] at hd)

end

theorem State.changes_congr {b t : State} {i : Nat} {r : SubRec} (h : t.ownRec i = b.ownRec i) :
    t.changes i r = b.changes i r := by
  rw [State.changes, State.changes, h]

/-- The CONNECT that makes a claim. -/
theorem connect_claims {s : State} {i : Nat} {e : EntryId} (hroom : s.bill.queue.length < Config.noticeDepth)
    (hd : s.dueOrder .connect i) (hen : (s.dispatched i).enrolled = true)
    (hent : s.entryOfSerial (s.dispatched i).serial = some e)
    (hfree : (s.tapPort e (s.dispatched i).port).claim = none) (hheld : (s.dispatched i).claimHeld = false)
    (hon : (s.dispatched i).wantOn = false) (hc : s.claimOf i = none) :
    let r := s.dispatched i
    let r1 := { r.claimed with wantOn := true }
    let w := s.wantedOf i true r.tiers (s.setBands i s.order.index)
    let u := { s.order with taken := none, index := s.setBands i s.order.index }
    let q := [QEntry.notice i .awaitService s.time.minute]
    ∃ t, exec .connect s = .next t ∧
      ((s.tapPort e r.port).applied ≠ some w → s.tapIn e →
        s.Leaves t e r.port (u.launched (InFlight.mk i r.oserial .connect e r.port false false s.order.nextSeq))
          [.sub i r1.partWords false] { s.tapPort e r.port with claim := some i, wanted := w, reapply := true } q) ∧
      ((s.tapPort e r.port).applied = some w →
        s.Leaves t e r.port u [.sub i (r1.complete r.oserial .done).partWords false]
          { s.tapPort e r.port with claim := some i, wanted := w } q) ∧
      (∀ blocked, (s.tapPort e r.port).applied ≠ some w → s.tapOut e blocked →
        s.Leaves t e r.port u [.sub i r1.deferred.partWords false]
          { s.tapPort e r.port with
            claim := some i, wanted := w, reapply := (s.tapPort e r.port).reapply || blocked } q) := by
  intro r r1 w u q
  have hw : s.order.work = [] := hd.2.1
  obtain ⟨b, o, st, heff⟩ := State.starts_connect hroom hd hen hent hfree hheld hon
  have hcb : (b.makeClaim e r.port o.sub).claimOf o.sub = some (e, r.port) :=
    State.claimOf_makeClaim e r.port (by rw [st.claimOf, st.sub, hc])
  have hb := (st.leaves e r.port).trans (b.makeClaim_leaves e r.port o.sub)
  rw [(st.leaves e r.port).port, (st.leaves e r.port).order] at hb
  have hk : o.kind ≠ .audit := by simp [st.ofKind]
  have hi := (State.dueOrder_dispatched hd (by simp)).symm
  refine ⟨_, exec_orderCommand .connect s, ?_⟩
  rw [st.dispatch, heff]
  refine ⟨fun ha hin => ?_, fun ha => ?_, fun blocked ha hout => ?_⟩
  · have hch : (b.makeClaim e r.port o.sub).changes o.sub r1 = b.changes o.sub r1 :=
      State.changes_congr (State.ownRec_congr o.sub rfl rfl rfl rfl)
    have h := hb.flight hw hcb true r.tiers (r := r1) (mark := false) hk (.inr (by rw [st.sub]; exact ha)) hin
    have hne : true ≠ r.wantOn := by simp [show r.wantOn = false from hon]
    rw [hch, st.changes_of_wantOn (r := r1) hi rfl rfl rfl hne, OrderItem.flight, st.once, st.ofKind] at h
    rw [st.sub] at h ⊢
    exact h
  · have h := hb.done hw hcb true r.tiers (r := r1) (may := true) hk (.inr (by rw [st.sub]; exact ha))
    rw [st.sub] at h ⊢
    exact h
  · have h := hb.deferred hw hcb true r.tiers (r := r1) (mark := false) hk (.inr (by rw [st.sub]; exact ha)) hout
    simp only [Bool.or_false] at h
    rw [st.sub] at h ⊢
    exact h

/-- The MOVE: what stands whatever other port is claimed, and what the new port has where the old one was the only claim. -/
theorem move_claims {s : State} {i : Nat} {e e0 : EntryId} {p0 : Port} (hroom : s.bill.queue.length < Config.noticeDepth)
    (hd : s.dueOrder .move i) (hen : (s.dispatched i).enrolled = true)
    (hent : s.entryOfSerial (s.dispatched i).serial = some e)
    (hfree : (s.tapPort e (s.dispatched i).port).claim = none) (hheld : (s.dispatched i).claimHeld = true)
    (hc : s.claimOf i = some (e0, p0)) (hne : (e0, p0) ≠ (e, (s.dispatched i).port)) :
    let r := s.dispatched i
    ∃ t, exec .move s = .next t ∧ t.order.queue = s.order.queue ∧ t.order.taken = none ∧
      (t.tapPort e r.port).claim = some i ∧
      ((∀ d x, (s.tapPort d x).claim = some i → (d, x) = (e0, p0)) →
        let w := s.wantedOf i r.wantOn r.tiers (s.setBands i s.order.index)
        (t.tapPort e r.port).wanted = w ∧
        ((s.tapPort e r.port).applied = some w → t.order.inflight = s.order.inflight ∧
          t.path.line .orderUnit = s.path.line .orderUnit ++ [.sub i (r.claimed.complete r.oserial .done).partWords false]) ∧
        (∀ blocked, (s.tapPort e r.port).applied ≠ some w → s.tapOut e blocked →
          (t.tapPort e r.port).reapply = ((s.tapPort e r.port).reapply || blocked) ∧
          t.order.inflight = s.order.inflight ∧
          t.path.line .orderUnit = s.path.line .orderUnit ++ [.sub i r.claimed.deferred.partWords false]) ∧
        (∀ pl, (s.tapPort e r.port).applied ≠ some w → (s.entry e).state ≠ .lost → (s.entry e).place = some pl →
          (s.eng pl.feeder).state ≠ .off → (s.eng pl.feeder).state ≠ .blocked →
          (t.tapPort e r.port).reapply = true ∧
          t.order.inflight = s.order.inflight ++
            [InFlight.mk i r.oserial .move e r.port false false s.order.nextSeq] ∧
          t.path.line .orderUnit = s.path.line .orderUnit ++
            (if r.claimed.partWords = r.partWords then [] else [.sub i r.claimed.partWords false]))) ∧
      (t.tapPort e0 p0).claim = none ∧ (t.tapPort e0 p0).wanted = PortState.off ∧
      t.bill = { s.bill with queue := s.bill.queue ++ [.notice i .move s.time.minute] } ∧ SameMemory s t := by
  intro r
  have hw : s.order.work = [] := hd.2.1
  have hi := (State.dueOrder_dispatched hd (by simp)).symm
  obtain ⟨b, o, st, heff⟩ := State.starts_move hroom hd hen hent hfree hheld hc hne
  have hk : o.kind ≠ .audit := by simp [st.ofKind]
  obtain ⟨hp0, hp1, hord, hbill, hline, hmem, hown, hlu⟩ := st.movedClaim_facts hne
  have hin1 := st.movedClaim_tapIn (p := r.port) (e0 := e0) (p0 := p0) (e := e)
  have hout1 := st.movedClaim_tapOut (p := r.port) (e0 := e0) (p0 := p0) (e := e)
  have huniq := st.movedClaim_unique hne
  have hch := st.changes hi r.claimed
  obtain ⟨m, hm⟩ : ∃ m, b.movedClaim i e0 p0 e r.port = m := ⟨_, rfl⟩
  rw [hm] at hp0 hp1 hord hbill hline hmem hown hlu hin1 hout1 huniq heff
  obtain rfl := st.sub
  have hmw : m.order.work = [] := by rw [hord]; exact hw
  refine ⟨_, exec_orderCommand .move s, ?_⟩
  rw [st.dispatch, heff]
  have hany : m.claimOf o.sub ≠ none := fun hn => (m.claimOf_eq_none o.sub).1 hn e r.port (by rw [hp1])
  obtain ⟨⟨d, q⟩, hdq⟩ := Option.ne_none_iff_exists'.1 hany
  obtain ⟨u, asks, x, hl, hq, ht, hxc, -⟩ := State.computed_keeps (r := r.claimed) (on := r.wantOn) (tiers := r.tiers)
    hmw hdq hk
  have hclaim := State.claim_of_claimOf hdq
  have hold : (e0, p0) ≠ (d, q) := by
    rintro h
    cases h
    rw [hp0] at hclaim
    exact absurd hclaim (by simp)
  refine ⟨by rw [hl.order, hq, hord], by rw [hl.order, ht, hord], ?_, fun hu => ?_, ?_, ?_, ?_, ?_⟩
  · by_cases hsame : (e, r.port) = (d, q)
    · cases hsame
      rw [hl.port, hxc, hp1]
    · rw [hl.ports _ _ hsame, hp1]
  · intro w
    have hcl := huniq hu
    have hs := m.leaves_self e r.port
    have hwd : m.wantedOf o.sub r.wantOn r.tiers (m.setBands o.sub m.order.index) = w := by
      rw [State.setBands_congr hlu, State.wantedOf_congr hlu, hord]
    have happ : (m.tapPort e r.port).applied = (s.tapPort e r.port).applied := by rw [hp1]
    refine ⟨?_, fun ha => ?_, fun blocked ha hout => ?_, fun pl ha hl1 hp ho hb => ?_⟩
    · obtain ⟨u, asks, x, hl, -, -, -, hxw⟩ := State.computed_keeps (r := r.claimed) (on := r.wantOn)
        (tiers := r.tiers) hmw hcl hk
      rw [hl.port, hxw, hwd]
    · have h := hs.done hmw hcl r.wantOn r.tiers (r := r.claimed) (may := true) hk (.inr (by rw [happ, ha, hwd]))
      exact ⟨by rw [h.order, hord], by rw [h.line, hline]; rfl⟩
    · have h := hs.deferred hmw hcl r.wantOn r.tiers (r := r.claimed) (mark := false) hk
        (.inr (by rw [happ, hwd]; exact ha)) (hout1 blocked hout)
      refine ⟨?_, by rw [h.order, hord], by rw [h.line, hline]⟩
      rw [h.port, hp1, Bool.or_false]
    · have h := hs.flight hmw hcl r.wantOn r.tiers (r := r.claimed) (mark := false) hk
        (.inr (by rw [happ, hwd]; exact ha)) (hin1 (State.tapIn_of hl1 hp ho hb))
      rw [State.changes_congr hown, hch, OrderItem.flight, st.once, st.ofKind, hord] at h
      exact ⟨by rw [h.port], by rw [h.order]; rfl, by rw [h.line, hline, if_congr eq_comm rfl rfl]⟩
  · rw [hl.ports _ _ hold, hp0]
  · rw [hl.ports _ _ hold, hp0]
  · rw [hl.bill_eq, hbill]
  · intro a
    rw [hl.mem, hmem]

/-- Settles O31: a CONNECT that makes a claim, a MOVE, a CONNECT of a subscriber with a claim, and the wanted state. -/
theorem claimsMadeAndMoved : Obligations.ClaimsMadeAndMoved := by
  refine ⟨fun s i e hroom => ?_, fun s i e p hroom hd => ?_, fun s sub wantOn tiers index => ?_⟩
  · intro r hen hent hfree
    refine ⟨fun hd hheld hon hc => ?_, fun e0 p0 hd hheld hc hne => ?_⟩
    · intro w r1 made left
      obtain ⟨t, ht, hin, hdone, hout⟩ := connect_claims hroom hd hen hent hfree hheld hon hc
      refine ⟨fun ha hi => ⟨t, ht, ?_⟩, fun ha => ⟨t, ht, ?_⟩, fun blocked ha ho => ⟨t, ht, ?_⟩⟩
      · have h := hin ha hi
        exact ⟨⟨h.port, h.others, h.line, h.bill, h.sameMemory⟩, h.order⟩
      · have h := hdone ha
        exact ⟨⟨h.port, h.others, h.line, h.bill, h.sameMemory⟩, h.order⟩
      · have h := hout blocked ha ho
        exact ⟨⟨h.port, h.others, h.line, h.bill, h.sameMemory⟩, h.order⟩
    · exact move_claims hroom hd hen hent hfree hheld hc hne
  · intro r hen hheld hc r1 w notices
    obtain ⟨b, o, st, heff⟩ := State.starts_connect_held hroom hd hen hheld
    have hi := (State.dueOrder_dispatched hd (by simp)).symm
    refine ⟨fun hon ha => ?_, fun pl ha hl hp ho hb => ?_, fun blocked ha hout => ?_⟩
    · rw [show (s.dispatched i).wantOn = false from hon] at heff
      obtain ⟨t, ht, h⟩ := st.done hd.2.1 hc (by simp) heff (.inr ha)
      rw [SubRec.connected_oserial, show (s.dispatched i).wantOn = false from hon] at h
      have hn : notices = [.notice i .awaitService s.time.minute] := by simp [notices, hon]
      exact ⟨t, ht, h.order, hn ▸ h.bill, h.line, h.port, h.others, h.sameMemory⟩
    · obtain ⟨t, ht, h⟩ := st.flight hd.2.1 hc (by simp) heff ha (State.tapIn_of hl hp ho hb)
      rw [SubRec.connected_oserial, st.changes_of_connect hi] at h
      exact ⟨t, ht, h.order, h.bill, h.line, h.port, h.others, h.sameMemory⟩
    · obtain ⟨t, ht, h⟩ := st.deferred hd.2.1 hc (by simp) heff ha hout
      exact ⟨t, ht, h.order, h.bill, h.line, h.port, h.others, h.sameMemory⟩
  · refine ⟨fun h => ?_, fun h => ⟨?_, fun b => ?_⟩, fun b k he hb hr hu => Copy.runningIn_of_unique he hb hr hu, ?_,
      fun n x y => State.setBands_getElem?⟩
    · rw [h]
      rfl
    · rw [h]
      rfl
    · subst h
      intro bit
      have hbit : bit = s.passes sub tiers index b := State.passMask_bit ..
      rw [hbit]
      exact ⟨State.passes_closed sub tiers index, State.passes_tier sub tiers index, State.passes_event sub tiers index⟩
    · exact List.length_map _

end Sys2Proof.Machine
end

section
/-! The backlog walk (O27). -/

open Sys2Proof

namespace Sys2Proof.Machine

/-- The queue after a step of the walk. -/
def OrderUnit.walkQueue (o : OrderUnit) (k : Walk) (add : Bool) : List Nat := if add then o.queue ++ [k.next] else o.queue

/-- The Order Unit after a step of the walk `k`, of which the record read is appended or not (R6). -/
def OrderUnit.walked (o : OrderUnit) (k : Walk) (add : Bool) (ns : Nat) : OrderUnit :=
  if 32 ≤ (o.walkQueue k add).length then { o with queue := o.walkQueue k add, walk := none }
  else if k.next + 1 < ns then
    { o with
      queue := o.walkQueue k add, walk := some { next := k.next + 1, appended := k.appended || add, full := k.full } }
  else if (k.appended || add) || k.full then
    { o with queue := o.walkQueue k add, walk := some { next := 0, appended := false, full := false } }
  else { o with queue := o.walkQueue k add, walk := none, backlog := false }

/-- The walk in progress, or the one that starts. -/
def OrderUnit.theWalk (o : OrderUnit) : Walk := o.walk.getD { next := 0, appended := false, full := false }

/-- The walk appends the record it reads. -/
def State.walkAdds (s : State) (k : Walk) : Bool := (s.ownRec k.next).pending && !s.knows k.next

theorem State.knows_congr {s t : State} (h : t.order = s.order) (i : Nat) : t.knows i = s.knows i := by
  simp only [State.knows, State.dispatching, h]

theorem State.walkAdds_iff (s : State) (k : Walk) :
    s.walkAdds k = true ↔ (s.ownRec k.next).pending = true ∧ s.knows k.next = false := by
  simp [State.walkAdds]

theorem State.walkAdds_tookRead (s : State) (r : Requester) (k : Walk) : (s.tookRead r).walkAdds k = s.walkAdds k := by
  rw [State.walkAdds, State.walkAdds, State.ownRec_tookRead, State.knows_congr (s.tookRead_order r)]

@[simp] theorem OrderUnit.walkQueue_length (o : OrderUnit) (k : Walk) (add : Bool) :
    (o.walkQueue k add).length = o.queue.length + bitOf add := by
  cases add <;> simp [OrderUnit.walkQueue, bitOf]

/-- A step of the walk while the queue has room. -/
theorem State.backlogWalkStep_eq {s : State} (hm : s.mayWalk = true)
    (hr : s.hasRead .orderUnit [s.readOrder s.walkNext] = true) (hq : s.order.queue.length < 32) :
    doBacklogWalkStep s =
      { s.tookRead .orderUnit with
        order := s.order.walked s.order.theWalk (s.walkAdds s.order.theWalk) s.map.ns } := by
  have hk : (s.tookRead .orderUnit).map = s.map := by simp [State.map]
  rw [← s.walkAdds_tookRead .orderUnit]
  unfold doBacklogWalkStep
  simp only [hm, hr, Bool.and_self, if_true, State.tookRead_order, hk]
  rw [if_neg (by simpa [Config.orderQueueDepth] using hq)]
  unfold OrderUnit.walked OrderUnit.walkQueue State.walkAdds OrderUnit.theWalk Config.orderQueueDepth
  split_ifs <;> rfl

/-! ### The ends of a step (R6) -/

section
variable (o : OrderUnit) (k : Walk) (add : Bool) (ns : Nat)

theorem OrderUnit.walked_full (h : 32 ≤ (o.walkQueue k add).length) :
    o.walked k add ns = { o with queue := o.walkQueue k add, walk := none } := if_pos h

theorem OrderUnit.walked_next (h : (o.walkQueue k add).length < 32) (hn : k.next + 1 < ns) :
    o.walked k add ns = { o with
      queue := o.walkQueue k add, walk := some { next := k.next + 1, appended := k.appended || add, full := k.full } } :=
  (if_neg (Nat.not_le.2 h)).trans (if_pos hn)

theorem OrderUnit.walked_again (h : (o.walkQueue k add).length < 32) (hn : ns ≤ k.next + 1)
    (ha : ((k.appended || add) || k.full) = true) :
    o.walked k add ns = { o with
      queue := o.walkQueue k add, walk := some { next := 0, appended := false, full := false } } :=
  (if_neg (Nat.not_le.2 h)).trans ((if_neg (Nat.not_lt.2 hn)).trans (if_pos ha))

theorem OrderUnit.walked_done (h : (o.walkQueue k add).length < 32) (hn : ns ≤ k.next + 1)
    (ha : ((k.appended || add) || k.full) = false) :
    o.walked k add ns = { o with queue := o.walkQueue k add, walk := none, backlog := false } :=
  (if_neg (Nat.not_le.2 h)).trans ((if_neg (Nat.not_lt.2 hn)).trans (if_neg (by rw [ha]; simp)))

end

theorem State.mayWalk_of_walk {s : State} {k : Walk} (hp : s.run.part = .running) (hb : s.order.backlog = true)
    (hk : s.order.walk = some k) : s.mayWalk = true := by
  simp [State.mayWalk, hp, hb, hk]

theorem OrderUnit.theWalk_of_some {o : OrderUnit} {k : Walk} (h : o.walk = some k) : o.theWalk = k := by
  rw [OrderUnit.theWalk, h, Option.getD_some]

/-- A step of a walk in progress. -/
theorem State.backlogWalkStep_of_walk {s : State} {k : Walk} (hp : s.run.part = .running) (hb : s.order.backlog = true)
    (hr : s.hasRead .orderUnit [s.readOrder s.walkNext] = true) (hk : s.order.walk = some k)
    (hq : s.order.queue.length < 32) :
    exec .backlogWalkStep s =
      .next { s.tookRead .orderUnit with order := s.order.walked k (s.walkAdds k) s.map.ns } := by
  have h := State.backlogWalkStep_eq (State.mayWalk_of_walk hp hb hk) hr hq
  rw [OrderUnit.theWalk_of_some hk] at h
  exact congrArg Host.Outcome.next h

/-- Settles O27: each step by the walk it finds and by what it makes of the queue. -/
theorem backlogWalks : Obligations.BacklogWalks := by
  intro s hp hb hr
  have hbit := fun b => bitOf_le_one b
  refine ⟨fun hn hq hns => ?_, fun k hk hq hpend hkn => ?_, s.knows_iff, fun k hk hq => ?_, fun k hk hq hns ha hf hpend => ?_⟩
  · have hm : s.mayWalk = true := by simp [State.mayWalk, hp, hb, hq, Config.walkStartDepth]
    have hw : s.order.theWalk = { next := 0, appended := false, full := false } := by rw [OrderUnit.theWalk, hn]; rfl
    have h := State.backlogWalkStep_eq hm hr (by omega)
    have hlen := hbit (s.walkAdds s.order.theWalk)
    rw [OrderUnit.walked_next _ _ _ _ (by rw [OrderUnit.walkQueue_length]; omega) (by rw [hw]; exact hns), hw] at h
    refine ⟨_, congrArg Host.Outcome.next h, hb, ?_, rfl, rfl, fun a => by simp⟩
    simp [OrderUnit.walkQueue, State.walkAdds]
  · have hadd : s.walkAdds k = true := (s.walkAdds_iff k).2 ⟨hpend, hkn⟩
    have h := State.backlogWalkStep_of_walk hp hb hr hk (by omega)
    rw [hadd, OrderUnit.walked_full _ _ _ _ (by rw [OrderUnit.walkQueue_length, hq, bitOf]; simp)] at h
    exact ⟨_, h, hb, rfl, rfl, fun a => by simp⟩
  · intro add
    have hadd : decide add = s.walkAdds k := by
      rw [Bool.eq_iff_iff, decide_eq_true_iff, State.walkAdds_iff]
    have hqueue : s.order.walkQueue k (s.walkAdds k) = if add then s.order.queue ++ [k.next] else s.order.queue := by
      rw [OrderUnit.walkQueue, ← hadd]
      simp
    have hlen := hbit (s.walkAdds k)
    have hlt : (s.order.walkQueue k (s.walkAdds k)).length < 32 := by rw [OrderUnit.walkQueue_length]; omega
    refine ⟨_, State.backlogWalkStep_of_walk hp hb hr hk (by omega), fun a => by simp, fun hns => ?_, fun hns hany => ?_⟩
    · rw [OrderUnit.walked_next _ _ _ _ hlt hns, hqueue, hadd]
    · have hagain : ((k.appended || s.walkAdds k) || k.full) = true := by
        rw [← hadd]
        rcases hany with h | h | h <;> simp [h]
      rw [OrderUnit.walked_again _ _ _ _ hlt hns hagain, hqueue]
  · have hadd : s.walkAdds k = false := by simp [State.walkAdds, hpend]
    have h := State.backlogWalkStep_of_walk hp hb hr hk hq
    rw [hadd, OrderUnit.walked_done _ _ _ _ (by simpa [OrderUnit.walkQueue] using hq) hns (by simp [ha, hf])] at h
    exact ⟨_, h, rfl, rfl, rfl, fun a => by simp⟩

end Sys2Proof.Machine
end

section
/-! Reports to the Order Unit: the step that takes the oldest, the orders in flight that it completes (O34), and the same for
the arrivals of the Billing Unit. -/

open Sys2Proof

namespace Sys2Proof.Machine

/-! ### What a step of the Order Unit leaves of the other blocks -/

/-- The other blocks have the work they had, and memory stands. -/
structure State.Beside (s t : State) : Prop where
  mem : t.mem = s.mem
  lineUp : t.lineUp = s.lineUp
  engines : t.engines = s.engines
  corr : t.corr = s.corr
  scan : t.scan = s.scan
  time : t.time = s.time
  dirWork : t.dir.work = s.dir.work
  billWork : t.bill.work = s.bill.work

theorem State.Beside.trans {s t u : State} (h : s.Beside t) (k : t.Beside u) : s.Beside u :=
  ⟨k.mem.trans h.mem, k.lineUp.trans h.lineUp, k.engines.trans h.engines, k.corr.trans h.corr, k.scan.trans h.scan,
    k.time.trans h.time, k.dirWork.trans h.dirWork, k.billWork.trans h.billWork⟩

theorem State.Beside.sameMemory {s t : State} (h : s.Beside t) : SameMemory s t := fun a => by rw [h.mem]

theorem State.Beside.workOf {s t : State} (h : s.Beside t) {b : Blk} (hne : b ≠ .orderUnit) : t.workOf b = s.workOf b := by
  cases b with
  | orderUnit => exact absurd rfl hne
  | billing => exact h.billWork
  | lineUp => exact congrArg LineUp.work h.lineUp
  | directory => exact h.dirWork
  | engine f => exact congrArg Engine.work (show t.eng f = s.eng f by rw [State.eng, State.eng, h.engines])
  | correlator => exact congrArg Correlator.work h.corr
  | scanner => exact congrArg Scanner.work h.scan
  | timeBase => exact congrArg TimeBase.work h.time

/-- A part in which no block has work stays so while the Order Unit leaves none of its own. -/
theorem State.Beside.quiet {s t : State} (h : s.Beside t) (hq : s.quiet) (hw : t.order.work = []) (ht : t.order.taken = none) :
    t.quiet := by
  refine ⟨fun b => ?_, ht⟩
  by_cases hne : b = .orderUnit
  · rw [hne]
    exact hw
  · rw [h.workOf hne, hq.1 b]

section
variable (s : State)

theorem State.writeSub_beside (i : Nat) (r : SubRec) : s.Beside (s.writeSub i r) := by
  constructor <;> simp [State.writeSub]

theorem State.enqueue_beside (i : Nat) : s.Beside (s.enqueue i) := by
  unfold State.enqueue
  split <;> constructor <;> simp

theorem State.withOrder_beside (u : OrderUnit) : s.Beside { s with order := u } := ⟨rfl, rfl, rfl, rfl, rfl, rfl, rfl, rfl⟩

theorem State.noticed_beside (q : QEntry) : s.Beside (s.noticed q) := ⟨rfl, rfl, rfl, rfl, rfl, rfl, rfl, rfl⟩

theorem State.orderStep_beside (plan : List ReadReq) : s.Beside (s.orderStep plan) := by
  constructor <;> simp

theorem State.stepMade_beside (r : Requester) (plan : List ReadReq) : s.Beside (s.stepMade r plan) := by
  constructor <;> simp

@[simp] theorem State.ownRec_orderStep (plan : List ReadReq) (i : Nat) : (s.orderStep plan).ownRec i = s.ownRec i := by
  unfold State.orderStep
  split
  · exact State.ownRec_congr i rfl rfl rfl rfl
  · exact s.ownRec_tookRead .orderUnit i

@[simp] theorem State.orderStep_line (plan : List ReadReq) (r : Requester) :
    (s.orderStep plan).path.line r = s.path.line r := MemPath.line_congr (s.orderStep_lines plan) r

@[simp] theorem State.stepMade_line (r q : Requester) (plan : List ReadReq) :
    (s.stepMade r plan).path.line q = s.path.line q := MemPath.line_congr (s.stepMade_lines r plan) q

end

/-! ### The oldest report (R4) -/

/-- The state in which a report takes its effect: it has left the queue, and its reads have ended. -/
def State.reported (s : State) (r : OrderReport) (rest : List OrderReport) : State :=
  { s.orderStep (s.reportReads r) with order := { s.order with reports := rest } }

section
variable (s : State) (r : OrderReport) (rest : List OrderReport)

@[simp] theorem State.reported_order : (s.reported r rest).order = { s.order with reports := rest } := rfl
@[simp] theorem State.reported_dir : (s.reported r rest).dir = s.dir := s.orderStep_dir _
@[simp] theorem State.reported_bill : (s.reported r rest).bill = s.bill := s.orderStep_bill _
@[simp] theorem State.reported_line (q : Requester) : (s.reported r rest).path.line q = s.path.line q :=
  s.orderStep_line _ q
@[simp] theorem State.reported_lines : (s.reported r rest).path.lines = s.path.lines := s.orderStep_lines _
@[simp] theorem State.ownRec_reported (i : Nat) : (s.reported r rest).ownRec i = s.ownRec i :=
  (State.ownRec_congr i rfl rfl rfl rfl).trans (s.ownRec_orderStep (s.reportReads r) i)

theorem State.reported_beside : s.Beside (s.reported r rest) :=
  (s.orderStep_beside (s.reportReads r)).trans ((s.orderStep (s.reportReads r)).withOrder_beside _)

end

/-- The work list set empty of a block that has none changes nothing. -/
theorem State.setWork_nil {s : State} {b : Blk} (h : s.workOf b = []) : s.setWork b [] = s := by
  rw [← h, State.setWork_self]

section
variable {s s1 : State} {r : OrderReport} {rest : List OrderReport} {g : OrderReport → State → Option (State × List Task)}
  {ts : List Task}

theorem State.quiet_orderFree (hq : s.quiet) : s.orderFree = true := by
  have hw : s.order.work = [] := hq.1 .orderUnit
  simp [State.orderFree, hw, hq.2]

/-- A report is taken with its tasks, in a part where no block has work. -/
theorem State.takeReport_eq (hq : s.quiet) (hr : s.order.reports = r :: rest)
    (hread : s.hasRead .orderUnit (s.reportReads r) = true) (hg : g r (s.reported r rest) = some (s1, ts)) :
    s.takeReport g = (s1.push .orderUnit ts).settle.stepMade .orderUnit (s.reportReads r) := by
  have hg' : g r { s.orderStep (s.reportReads r) with order := { s.order with reports := rest } } = some (s1, ts) := hg
  unfold State.takeReport
  rw [hr]
  simp only [State.quiet_orderFree hq, hread, Bool.and_self, if_true, hg']

/-- A report without tasks. -/
theorem State.takeReport_done (hq : s.quiet) (hr : s.order.reports = r :: rest)
    (hread : s.hasRead .orderUnit (s.reportReads r) = true) (hg : g r (s.reported r rest) = some (s1, []))
    (hb : s.Beside s1) (hw : s1.order.work = []) (ht : s1.order.taken = none) :
    s.takeReport g = s1.stepMade .orderUnit (s.reportReads r) := by
  have hwork : s1.workOf .orderUnit = [] := hw
  rw [State.takeReport_eq hq hr hread hg, State.push_idle _ .orderUnit _ hwork, State.runTasks_nil, State.setWork_nil hwork,
    State.settle_quiet _ (hb.quiet hq hw ht)]

end

/-! ### An order in flight that completes (R9) -/

/-- The record that a completion writes. -/
def InFlight.completed (x : InFlight) (res : OrderResult) (edit : SubRec → SubRec) (r : SubRec) : SubRec :=
  (edit { r with failures := countFailures res r.failures }).complete x.serial res

theorem State.completeFlight_eq (s : State) (x : InFlight) (res : OrderResult) (edit : SubRec → SubRec) :
    s.completeFlight x res edit = (s.writeSub x.sub (x.completed res edit (s.ownRec x.sub))).leaveFlight x := rfl

theorem State.leaveFlight_eq (s : State) (x : InFlight) :
    s.leaveFlight x =
      State.putBack { s with order := { s.order with inflight := s.order.inflight.filter fun y => y.seq != x.seq } }
        { sub := x.sub, reorder := x.reorder } := rfl

theorem State.putBack_beside (s : State) (d : Dispatch) : s.Beside (s.putBack d) := by
  unfold State.putBack
  split
  · exact s.enqueue_beside d.sub
  · exact ⟨rfl, rfl, rfl, rfl, rfl, rfl, rfl, rfl⟩

section
variable (s : State) (x : InFlight) (res : OrderResult) (edit : SubRec → SubRec)

@[simp] theorem State.completeFlight_line :
    (s.completeFlight x res edit).path.line .orderUnit =
      s.path.line .orderUnit ++ [.sub x.sub (x.completed res edit (s.ownRec x.sub)).partWords false] := by
  rw [State.completeFlight_eq, State.leaveFlight_eq, State.putBack_line]
  exact s.writeSub_line x.sub (x.completed res edit (s.ownRec x.sub))

@[simp] theorem State.completeFlight_dir : (s.completeFlight x res edit).dir = s.dir := by
  rw [State.completeFlight_eq, State.leaveFlight_eq, (State.putBack_keeps _ _).1]
  exact s.writeSub_dir x.sub (x.completed res edit (s.ownRec x.sub))

@[simp] theorem State.completeFlight_bill : (s.completeFlight x res edit).bill = s.bill := by
  rw [State.completeFlight_eq, State.leaveFlight_eq, (State.putBack_keeps _ _).2.1]
  exact s.writeSub_bill x.sub (x.completed res edit (s.ownRec x.sub))

theorem State.completeFlight_beside : s.Beside (s.completeFlight x res edit) := by
  rw [State.completeFlight_eq, State.leaveFlight_eq]
  exact ((s.writeSub_beside x.sub _).trans (State.withOrder_beside _ _)).trans (State.putBack_beside _ _)

/-- The one order in flight leaves the table. -/
theorem State.completeFlight_order (h : s.order.inflight = [x]) :
    (s.completeFlight x res edit).order = OrderUnit.backAgain { s.order with inflight := [] } x.sub x.reorder := by
  rw [State.completeFlight_eq, State.leaveFlight_eq, State.putBack_order]
  simp [h]

end

theorem OrderUnit.backAgain_taken (u : OrderUnit) (i : Nat) (reorder : Bool) :
    (u.backAgain i reorder).taken = u.taken ∧ (u.backAgain i reorder).work = u.work := by
  unfold OrderUnit.backAgain
  split_ifs <;> simp

/-! ### Reports of transactions, of a lost tap and of a blocked feeder (R8, R18, R68) -/

section
variable {s : State} {x : InFlight} {r : OrderReport} {rest : List OrderReport} {res : OrderResult} {edit : SubRec → SubRec}
  {g : OrderReport → State → Option (State × List Task)}

/-- A report that completes the one order in flight. -/
theorem State.takeReport_completes (hq : s.quiet) (hx : s.order.inflight = [x]) (hr : s.order.reports = r :: rest)
    (hread : s.hasRead .orderUnit (s.reportReads r) = true)
    (hg : g r (s.reported r rest) = some ((s.reported r rest).completeFlight x res edit, [])) :
    (s.takeReport g).order = s.order.flown x rest ∧
      (s.takeReport g).path.line .orderUnit = s.path.line .orderUnit ++
        [.sub x.sub (x.completed res edit (s.ownRec x.sub)).partWords false] ∧
      (s.takeReport g).dir = s.dir ∧ SameMemory s (s.takeReport g) := by
  have hw : s.order.work = [] := hq.1 .orderUnit
  have hord : ((s.reported r rest).completeFlight x res edit).order = s.order.flown x rest := by
    rw [State.completeFlight_order _ _ _ _ (by rw [State.reported_order]; exact hx)]
    rfl
  have hkeep := OrderUnit.backAgain_taken { s.order with reports := rest, inflight := [] } x.sub x.reorder
  have hb := (s.reported_beside r rest).trans ((s.reported r rest).completeFlight_beside x res edit)
  rw [State.takeReport_done hq hr hread hg hb (by rw [hord]; exact hkeep.2.trans hw)
    (by rw [hord]; exact hkeep.1.trans hq.2)]
  refine ⟨by rw [State.stepMade_order, hord], by simp, by simp, ?_⟩
  exact (hb.trans (State.stepMade_beside _ .orderUnit _)).sameMemory

/-- A report that completes none. -/
theorem State.takeReport_none (hq : s.quiet) (hr : s.order.reports = r :: rest)
    (hread : s.hasRead .orderUnit (s.reportReads r) = true)
    (hg : g r (s.reported r rest) = some (s.reported r rest, [])) :
    (s.takeReport g).order = { s.order with reports := rest } ∧ SameMemory s (s.takeReport g) := by
  have hb := s.reported_beside r rest
  rw [State.takeReport_done hq hr hread hg hb (hq.1 .orderUnit) hq.2]
  exact ⟨by simp, (hb.trans (State.stepMade_beside _ .orderUnit _)).sameMemory⟩

end

section
variable {s : State} {x : InFlight} {pick : InFlight → Bool} (hx : s.order.inflight = [x])
include hx

theorem State.failFlights_hit (h : pick x = true) : s.failFlights pick = s.completeFlight x x.failure id := by
  simp [State.failFlights, hx, h]

theorem State.failFlights_miss (h : pick x = false) : s.failFlights pick = s := by
  simp [State.failFlights, hx, h]

theorem State.flightReads_hit (h : pick x = true) : s.flightReads pick = [s.readOwned x.sub] := by
  simp [State.flightReads, hx, h]

theorem State.flightReads_miss (h : pick x = false) : s.flightReads pick = [] := by
  simp [State.flightReads, hx, h]

end

@[simp] theorem State.hasRead_nil (s : State) (r : Requester) : s.hasRead r [] = true := rfl

/-- Where nothing is read, a report keeps the turn of the read that the Order Unit presents. -/
theorem State.reported_unread {s : State} {r : OrderReport} {rest : List OrderReport} (h : s.reportReads r = []) :
    s.reported r rest = { s.keepTurn .orderUnit with order := { s.order with reports := rest } } := by
  rw [State.reported, h]
  rfl

/-- An entry as the start of a call that was built when the table gave out `before` arms it (R8). -/
def InFlight.armedBy (x : InFlight) (before : Nat) : InFlight := if x.seq < before then { x with armed := true } else x

section
variable {s : State} {x : InFlight} {e : EntryId} {before : Nat} (hx : s.order.inflight = [x])
include hx

theorem State.armFlights_setPort {p : Port} (h : x.onPort e p = true) :
    s.armFlights .setPort e p before = { s with order := { s.order with inflight := [x.armedBy before] } } := by
  simp [State.armFlights, InFlight.armedBy, hx, h]

theorem State.armFlights_read (p : Port) (h : x.auditOf e = true) :
    s.armFlights .read e p before = { s with order := { s.order with inflight := [x.armedBy before] } } := by
  simp [State.armFlights, InFlight.armedBy, hx, h]

theorem State.auditResults_hit (ports : Vector PortState 4) (h : (x.armed && x.auditOf e) = true) :
    s.auditResults e ports =
      s.completeFlight x (if ports[x.p] = (s.tapPort e x.p).wanted then .auditMatch else .auditMismatch)
        fun r => { r with auditOn := ports[x.p].on, auditMask := ports[x.p].mask } := by
  simp [State.auditResults, hx, h]

end

/-- A report that arms the one order in flight. -/
theorem State.takeReport_arms {s : State} {r : OrderReport} {rest : List OrderReport}
    {g : OrderReport → State → Option (State × List Task)} {y : InFlight} (hq : s.quiet) (hr : s.order.reports = r :: rest)
    (hn : s.reportReads r = [])
    (hg : g r (s.reported r rest) =
      some ({ s.reported r rest with order := { (s.reported r rest).order with inflight := [y] } }, [])) :
    s.takeReport g =
      { s.keepTurn .orderUnit with order := { s.order with reports := rest, inflight := [y] } } := by
  have hb := (s.reported_beside r rest).trans ((s.reported r rest).withOrder_beside
    { (s.reported r rest).order with inflight := [y] })
  rw [State.takeReport_done hq hr (by rw [hn]; rfl) hg hb (hq.1 .orderUnit) hq.2, hn, State.reported_unread hn]
  rfl

section
variable {x : InFlight} {e : EntryId} {p : Port}

theorem InFlight.onPort_self (h : x.kind ≠ .audit) : x.onPort x.e x.p = true := by simp [InFlight.onPort, h]

theorem InFlight.auditOf_self (h : x.kind = .audit) : x.auditOf x.e = true := by simp [InFlight.auditOf, h]

theorem InFlight.failure_of_audit (h : x.kind = .audit) : x.failure = .unreachable := if_pos h

theorem InFlight.failure_of_ne (h : x.kind ≠ .audit) : x.failure = .deferred := if_neg h

/-- A failure is counted (R9). -/
theorem countFailures_failure (x : InFlight) (n : Nat) : countFailures x.failure n = min 255 (n + 1) := by
  unfold InFlight.failure
  split <;> rfl

end

section
variable {s : State} {x : InFlight} {r : OrderReport} {rest : List OrderReport} {pick : InFlight → Bool}
  {g : OrderReport → State → Option (State × List Task)} (hq : s.quiet) (hx : s.order.inflight = [x])
  (hr : s.order.reports = r :: rest) (hplan : s.reportReads r = s.flightReads pick)
  (hg : g r (s.reported r rest) = some ((s.reported r rest).failFlights pick, []))
include hq hx hr hplan hg

/-- A report that fails the one order in flight. -/
theorem State.takeReport_fails (hread : s.hasRead .orderUnit [s.readOwned x.sub] = true) (h : pick x = true) :
    (s.takeReport g).order = s.order.flown x rest ∧
      (s.takeReport g).path.line .orderUnit = s.path.line .orderUnit ++
        [.sub x.sub ({ s.ownRec x.sub with failures := min 255 ((s.ownRec x.sub).failures + 1) }.complete x.serial
          x.failure).partWords false] ∧
      (s.takeReport g).dir = s.dir ∧ SameMemory s (s.takeReport g) := by
  have hx1 : (s.reported r rest).order.inflight = [x] := hx
  rw [State.failFlights_hit hx1 h] at hg
  have hc := State.takeReport_completes hq hx hr (by rw [hplan, State.flightReads_hit hx h]; exact hread) hg
  rw [InFlight.completed, countFailures_failure] at hc
  exact hc

/-- One that finds it in another state leaves it. -/
theorem State.takeReport_spares (h : pick x = false) :
    (s.takeReport g).order = { s.order with reports := rest } ∧ SameMemory s (s.takeReport g) := by
  have hx1 : (s.reported r rest).order.inflight = [x] := hx
  rw [State.failFlights_miss hx1 h] at hg
  exact State.takeReport_none hq hr (by rw [hplan, State.flightReads_miss hx h]; rfl) hg

end

/-- The record of an AUDIT that a READ's answer completes (R18). -/
theorem InFlight.completed_audit (x : InFlight) (ports : Vector PortState 4) (wanted : PortState) (r : SubRec) :
    x.completed (if ports[x.p] = wanted then .auditMatch else .auditMismatch)
        (fun r => { r with auditOn := ports[x.p].on, auditMask := ports[x.p].mask }) r =
      { r with failures := 0, auditOn := ports[x.p].on, auditMask := ports[x.p].mask }.complete x.serial
        (if ports[x.p] = wanted then .auditMatch else .auditMismatch) := by
  unfold InFlight.completed
  split <;> rfl

theorem State.feederBlockedOrders_reported (s : State) (f : Feeder) (rest : List OrderReport) :
    some ((s.reported (.blocked f) rest).feederBlockedOrders f, ([] : List Task)) =
      some ((s.reported (.blocked f) rest).failFlights fun x => !x.armed && (s.entry x.e).on f, []) := by
  simp only [State.feederBlockedOrders, State.entry, State.reported_dir]

/-- Settles O34: each report by the one order in flight that it finds. -/
theorem reportsOfTransactions : Obligations.ReportsOfTransactions := by
  refine ⟨fun s x rest hq hx hk => ⟨fun before hr => ?_, fun hr ha hread => ?_, fun hr ha => ?_⟩,
    fun s x c rest hq hx hc => ?_, fun s x rest hq hx hk => ⟨fun p before hr => ?_, fun ha hread =>
      ⟨fun p ports hr => ?_, fun p hr => ?_⟩⟩⟩
  · have harm := State.armFlights_setPort (s := s.reported (.start .setPort x.e x.p before) rest) (before := before) hx
      (InFlight.onPort_self hk)
    exact congrArg Host.Outcome.next (State.takeReport_arms hq hr rfl (congrArg (fun t => some (t, [])) harm))
  · refine ⟨_, rfl, ?_⟩
    rw [← InFlight.failure_of_ne hk]
    exact State.takeReport_fails (pick := fun x' => x'.armed && x'.onPort x.e x.p) hq hx hr rfl rfl hread
      (by simp [ha, InFlight.onPort_self hk])
  · exact ⟨_, rfl, State.takeReport_spares (pick := fun x' => x'.armed && x'.onPort x.e x.p) hq hx hr rfl rfl (by simp [ha])⟩
  · rcases hc with ⟨rfl, hr⟩ | ⟨f, rfl, hr, hf⟩
    · refine ⟨fun ha hread => ⟨_, rfl, ?_⟩, fun ha => ⟨_, rfl, ?_⟩⟩
      · exact And.imp_right (And.imp_right And.right) (State.takeReport_fails (pick := fun x' => !x'.armed && x'.e == x.e)
          hq hx hr rfl rfl hread (by simp [ha]))
      · exact State.takeReport_spares (pick := fun x' => !x'.armed && x'.e == x.e) hq hx hr rfl rfl (by simp [ha])
    · refine ⟨fun ha hread => ⟨_, rfl, ?_⟩, fun ha => ⟨_, rfl, ?_⟩⟩
      · exact And.imp_right (And.imp_right And.right) (State.takeReport_fails
          (pick := fun x' => !x'.armed && (s.entry x'.e).on f) hq hx hr rfl (State.feederBlockedOrders_reported s f rest)
          hread (by simp [ha, hf]))
      · exact State.takeReport_spares (pick := fun x' => !x'.armed && (s.entry x'.e).on f) hq hx hr rfl
          (State.feederBlockedOrders_reported s f rest) (by simp [ha])
  · have harm := State.armFlights_read (s := s.reported (.start .read x.e p before) rest) (before := before) hx p
      (InFlight.auditOf_self hk)
    exact congrArg Host.Outcome.next (State.takeReport_arms hq hr rfl (congrArg (fun t => some (t, [])) harm))
  · have hpick : (x.armed && x.auditOf x.e) = true := by simp [ha, InFlight.auditOf_self hk]
    have hx1 : (s.reported (.outcome .read x.e p (.readOk ports)) rest).order.inflight = [x] := hx
    have hport : (s.reported (.outcome .read x.e p (.readOk ports)) rest).tapPort x.e x.p = s.tapPort x.e x.p :=
      State.tapPort_congr (by simp) x.e x.p
    have hres := State.auditResults_hit hx1 ports hpick
    rw [hport] at hres
    have hplan : s.reportReads (.outcome .read x.e p (.readOk ports)) = [s.readOwned x.sub] :=
      State.flightReads_hit (pick := fun x' => x'.armed && x'.auditOf x.e) hx hpick
    refine ⟨_, rfl, ?_⟩
    rw [← InFlight.completed_audit x ports (s.tapPort x.e x.p).wanted]
    exact State.takeReport_completes hq hx hr (by rw [hplan]; exact hread) (congrArg (fun t => some (t, [])) hres)
  · refine ⟨_, rfl, ?_⟩
    rw [← InFlight.failure_of_audit hk]
    exact State.takeReport_fails (pick := fun x' => x'.armed && x'.auditOf x.e) hq hx hr rfl rfl hread
      (by simp [ha, InFlight.auditOf_self hk])

end Sys2Proof.Machine
end

section
/-! Confirmations (O35): the notices of a report's work item, the record they lead to, and the order in flight. -/

open Sys2Proof

namespace Sys2Proof.Machine

/-! ### Notices handed one after another (R24, R132) -/

/-- The state when a list of notices has entered the Notice Queue. -/
def State.noticedAll (s : State) (ns : List QEntry) : State := ns.foldl State.noticed s

section
variable (s : State) (ns : List QEntry)

theorem State.noticedAll_cons (n : QEntry) : s.noticedAll (n :: ns) = (s.noticed n).noticedAll ns := rfl

@[simp] theorem State.noticedAll_queue : (s.noticedAll ns).bill.queue = s.bill.queue ++ ns := by
  induction ns generalizing s with
  | nil => simp [State.noticedAll]
  | cons n ns ih => rw [State.noticedAll_cons, ih]; simp

@[simp] theorem State.noticedAll_order : (s.noticedAll ns).order = s.order := by
  induction ns generalizing s with
  | nil => rfl
  | cons n ns ih => rw [State.noticedAll_cons, ih, State.noticed_order]

@[simp] theorem State.noticedAll_dir : (s.noticedAll ns).dir = s.dir := by
  induction ns generalizing s with
  | nil => rfl
  | cons n ns ih => rw [State.noticedAll_cons, ih, State.noticed_dir]

@[simp] theorem State.noticedAll_lines : (s.noticedAll ns).path.lines = s.path.lines := by
  induction ns generalizing s with
  | nil => rfl
  | cons n ns ih => rw [State.noticedAll_cons, ih, State.noticed_lines]

@[simp] theorem State.ownRec_noticedAll (i : Nat) : (s.noticedAll ns).ownRec i = s.ownRec i := by
  induction ns generalizing s with
  | nil => rfl
  | cons n ns ih => rw [State.noticedAll_cons, ih, State.ownRec_noticed]

@[simp] theorem State.noticedAll_line (r : Requester) : (s.noticedAll ns).path.line r = s.path.line r :=
  MemPath.line_congr (s.noticedAll_lines ns) r

theorem State.noticedAll_beside : s.Beside (s.noticedAll ns) := by
  induction ns generalizing s with
  | nil => exact ⟨rfl, rfl, rfl, rfl, rfl, rfl, rfl, rfl⟩
  | cons n ns ih => exact (s.noticed_beside n).trans (ih (s.noticed n))

end

/-- Notices for which the queue has room are handed without waiting. -/
theorem State.runTasks_notices (b : Blk) (ns : List QEntry) (ts : List Task) (s : State)
    (h : s.bill.queue.length + ns.length ≤ Config.noticeDepth) :
    State.runTasks b (ns.map Task.notice ++ ts) s = State.runTasks b ts (s.noticedAll ns) := by
  induction ns generalizing s with
  | nil => rfl
  | cons n ns ih =>
    rw [List.length_cons] at h
    rw [List.map_cons, List.cons_append, State.runTasks_go _ _ _ _ _ (State.doTask_notice n (by omega)), ih,
      State.noticedAll_cons]
    rw [State.noticed_bill, List.length_append, List.length_singleton]
    omega

/-- A report whose notices the queue has room for, and whose last task leaves the Order Unit without work. -/
theorem State.takeReport_handed {s s1 : State} {r : OrderReport} {rest : List OrderReport}
    {g : OrderReport → State → Option (State × List Task)} {ns : List QEntry} {last : Task} (hq : s.quiet)
    (hr : s.order.reports = r :: rest) (hread : s.hasRead .orderUnit (s.reportReads r) = true)
    (hroom : s.bill.queue.length + ns.length ≤ Config.noticeDepth)
    (hg : g r (s.reported r rest) = some (s.reported r rest, ns.map Task.notice ++ [last]))
    (hlast : ((s.reported r rest).noticedAll ns).doTask last = (s1, none)) (hb : s.Beside s1) (hw : s1.order.work = [])
    (ht : s1.order.taken = none) :
    s.takeReport g = s1.stepMade .orderUnit (s.reportReads r) := by
  have hwork : (s.reported r rest).workOf .orderUnit = [] := hq.1 .orderUnit
  have hwork1 : s1.workOf .orderUnit = [] := hw
  rw [State.takeReport_eq hq hr hread hg, State.push_idle _ .orderUnit _ hwork,
    State.runTasks_notices _ _ _ _ (by rw [State.reported_bill]; exact hroom), State.runTasks_go _ _ _ _ _ hlast,
    State.runTasks_nil, State.setWork_nil hwork1, State.settle_quiet _ (hb.quiet hq hw ht)]

/-! ### The tasks of a confirmation (R19) -/

/-- START SERVICE of a confirmation, where the port is on and wanted service ON was not yet confirmed. -/
def startNotice (sub : Nat) (r : SubRec) (answer : PortState) (minute : Nat) : List QEntry :=
  if answer.on = true ∧ r.wantOn = true ∧ r.confirmed ≠ .on then [.notice sub .startService minute] else []

/-- The PPV CHARGE notices of the purchases that a confirmation opens. -/
def chargeNotices (sub : Nat) (r : SubRec) (minute : Nat) (opens : List (Fin 4)) : List QEntry :=
  opens.map fun k => .notice sub (.ppvCharge r.slots[k].price) minute

theorem confirmNotices_eq (sub : Nat) (r : SubRec) (answer : PortState) (minute : Nat) (opens : List (Fin 4)) :
    confirmNotices sub r answer minute opens =
      (startNotice sub r answer minute ++ chargeNotices sub r minute opens).map Task.notice := by
  have hif : (answer.on && r.wantOn && r.confirmed != .on) = true ↔
      answer.on = true ∧ r.wantOn = true ∧ r.confirmed ≠ .on := by
    simp [and_assoc]
  unfold confirmNotices startNotice chargeNotices
  rw [List.map_append, List.map_map]
  congr 1
  by_cases h : answer.on = true ∧ r.wantOn = true ∧ r.confirmed ≠ .on
  · rw [if_pos h, if_pos (hif.2 h)]
    rfl
  · rw [if_neg h, if_neg (mt hif.1 h)]
    rfl

theorem startNotice_length (sub : Nat) (r : SubRec) (answer : PortState) (minute : Nat) :
    (startNotice sub r answer minute).length ≤ 1 := by
  unfold startNotice
  split <;> simp

/-- The confirmation of a port that a subscriber claims. -/
def State.confirmItem (s : State) (sub : Nat) (e : EntryId) (p : Port) (answer : PortState) (minute : Nat) : ConfirmItem :=
  { sub := sub, e := e, p := p, answer := answer, minute := minute, opens := s.opensOf sub (s.ownRec sub) answer }

theorem State.confirmTasks_of_claim {s : State} {e : EntryId} {p : Port} {sub : Nat} (answer : PortState) (minute : Nat)
    (hc : (s.tapPort e p).claim = some sub) :
    s.confirmTasks e p answer minute =
      (startNotice sub (s.ownRec sub) answer minute ++
          chargeNotices sub (s.ownRec sub) minute (s.opensOf sub (s.ownRec sub) answer)).map Task.notice ++
        [.applyConfirm (s.confirmItem sub e p answer minute)] := by
  unfold State.confirmTasks
  rw [hc, ← confirmNotices_eq]
  rfl

theorem State.confirmUnclaimed_of_claim {s : State} {e : EntryId} {p : Port} {sub : Nat}
    (hc : (s.tapPort e p).claim = some sub) : s.confirmUnclaimed e p = s := by
  rw [State.confirmUnclaimed, hc]
  rfl

theorem State.opensOf_congr {s t : State} (hl : t.lineUp = s.lineUp) (hi : t.order.index = s.order.index) (sub : Nat)
    (r : SubRec) (answer : PortState) : t.opensOf sub r answer = s.opensOf sub r answer := by
  simp only [State.opensOf, State.active, hl, hi]

/-- The record that a confirmation leaves. -/
def SubRec.confirmedBy (r : SubRec) (c : ConfirmItem) : SubRec :=
  { r with confirmed := if c.answer.on then .on else .off, lastConfirm := c.minute }.openSlots c.opens

/-- The Purchase Index when a confirmation has opened purchases. -/
def State.opened (s : State) (c : ConfirmItem) : State :=
  c.opens.foldl (fun s' k => s'.setIndex c.sub (s.ownRec c.sub).slots[k].event .booked .opened) s

theorem State.opened_nil {s : State} {c : ConfirmItem} (h : c.opens = []) : s.opened c = s := by
  rw [State.opened, h]
  rfl

theorem State.opened_single {s : State} {c : ConfirmItem} {k : Fin 4} (h : c.opens = [k]) :
    s.opened c = s.setIndex c.sub (s.ownRec c.sub).slots[k].event .booked .opened := by
  rw [State.opened, h]
  rfl

/-- The confirmation of a port with no order in flight. -/
theorem State.applyConfirm_writes {s : State} {c : ConfirmItem} (h : (s.opened c).order.inflight = []) :
    s.applyConfirm c = (s.opened c).writeSub c.sub ((s.ownRec c.sub).confirmedBy c) := by
  have hn : ((s.opened c).order.inflight.find? fun x => x.armed && x.onPort c.e c.p && x.sub == c.sub) = none := by
    rw [h]
    rfl
  unfold State.applyConfirm
  dsimp only
  split
  · next y hy => exact absurd (hy.symm.trans hn) (by simp)
  · rfl

/-- The confirmation of a port whose one order in flight is armed. -/
theorem State.applyConfirm_completes {s : State} {c : ConfirmItem} {x : InFlight} (h : (s.opened c).order.inflight = [x])
    (hx : (x.armed && x.onPort c.e c.p && x.sub == c.sub) = true) :
    s.applyConfirm c = (s.opened c).completeFlight x .done fun r => r.confirmedBy c := by
  have hf : ((s.opened c).order.inflight.find? fun x => x.armed && x.onPort c.e c.p && x.sub == c.sub) = some x := by
    rw [h]
    exact List.find?_cons_of_pos hx
  unfold State.applyConfirm
  dsimp only
  split
  · next y hy =>
    cases hy.symm.trans hf
    rfl
  · next hy => exact absurd (hy.symm.trans hf) (by simp)

/-- A record without used slots opens no purchase. -/
theorem State.opensOf_unused {s : State} {sub : Nat} {r : SubRec} (answer : PortState)
    (h : ∀ k : Fin 4, r.slots[k].used = false) : s.opensOf sub r answer = [] := by
  refine List.filter_eq_nil_iff.2 fun k _ => ?_
  simp only [h k, Bool.and_false, Bool.false_and]
  exact Bool.false_ne_true

/-- The one used slot is opened where its event is RUNNING and the answer has its band on. -/
theorem State.opensOf_single {s : State} {sub : Nat} {r : SubRec} {answer : PortState} {k : Fin 4} {x : IndexEntry}
    (hother : ∀ j : Fin 4, j ≠ k → r.slots[j].used = false) (hu : r.slots[k].used = true) (hb : r.slots[k].state = .booked)
    (hrun : s.active.eventState r.slots[k].event = .running) (hx : s.order.index = [x]) (hsub : x.sub = sub)
    (hev : x.event = r.slots[k].event) :
    s.opensOf sub r answer = if (answer.on && answer.mask.getLsbD x.band) = true then [k] else [] := by
  have hany : (s.order.index.any fun y => y.sub == sub && y.event == r.slots[k].event && answer.mask.getLsbD y.band) =
      answer.mask.getLsbD x.band := by
    simp [hx, hsub, hev]
  have hpred : (fun j : Fin 4 =>
      answer.on && r.slots[j].used && r.slots[j].state == .booked && s.active.eventState r.slots[j].event == .running &&
        (s.order.index.any fun y => y.sub == sub && y.event == r.slots[j].event && answer.mask.getLsbD y.band)) =
      fun j => (j == k) && (answer.on && answer.mask.getLsbD x.band) := by
    funext j
    by_cases hj : j = k
    · subst hj
      simp only [hu, hb, hrun, hany, beq_self_eq_true, Bool.and_true, Bool.true_and]
    · have hjk : (j == k) = false := by simpa using hj
      simp only [hother j hj, hjk, Bool.and_false, Bool.false_and]
  unfold State.opensOf
  dsimp only
  rw [hpred]
  cases answer.on && answer.mask.getLsbD x.band with
  | true => fin_cases k <;> rfl
  | false => simp

/-! ### The step of a confirmation -/

section
variable {s s1 : State} {e : EntryId} {p : Port} {sub minute : Nat} {answer : PortState} {rest : List OrderReport}

/-- A confirmation of a claimed port whose notices the queue has room for. -/
theorem State.confirmation_step (hq : s.quiet) (hr : s.order.reports = .outcome .setPort e p (.setOk answer minute) :: rest)
    (hc : (s.tapPort e p).claim = some sub) (hread : s.hasRead .orderUnit [s.readOwned sub] = true)
    (hroom : s.bill.queue.length +
      (startNotice sub (s.ownRec sub) answer minute ++
        chargeNotices sub (s.ownRec sub) minute (s.opensOf sub (s.ownRec sub) answer)).length ≤ Config.noticeDepth)
    (happ : (((s.reported (.outcome .setPort e p (.setOk answer minute)) rest).noticedAll
      (startNotice sub (s.ownRec sub) answer minute ++
        chargeNotices sub (s.ownRec sub) minute (s.opensOf sub (s.ownRec sub) answer))).applyConfirm
        (s.confirmItem sub e p answer minute)) = s1)
    (hb : s.Beside s1) (hw : s1.order.work = []) (ht : s1.order.taken = none) :
    doConfirmation s = s1.stepMade .orderUnit [s.readOwned sub] := by
  have hplan : s.reportReads (.outcome .setPort e p (.setOk answer minute)) = [s.readOwned sub] := by
    simp only [State.reportReads, hc]
  have hc1 : ((s.reported (.outcome .setPort e p (.setOk answer minute)) rest).tapPort e p).claim = some sub := by
    rw [State.tapPort_congr (s.reported_dir _ rest), hc]
  have hopens : (s.reported (.outcome .setPort e p (.setOk answer minute)) rest).opensOf sub (s.ownRec sub) answer =
      s.opensOf sub (s.ownRec sub) answer :=
    State.opensOf_congr (s.reported_beside _ rest).lineUp rfl sub _ answer
  rw [← hplan]
  refine State.takeReport_handed (last := .applyConfirm (s.confirmItem sub e p answer minute)) hq hr
    (by rw [hplan]; exact hread) hroom ?_ ?_ hb hw ht
  · have hrec := s.ownRec_reported (.outcome .setPort e p (.setOk answer minute)) rest sub
    have htasks := State.confirmTasks_of_claim answer minute hc1
    rw [hrec, hopens, State.confirmItem, hrec, hopens] at htasks
    exact congrArg some (Prod.ext (State.confirmUnclaimed_of_claim hc1) htasks)
  · rw [← happ]
    rfl

end

/-- The part when a confirmation's notices have been handed. -/
def State.confirming (s : State) (r : OrderReport) (rest : List OrderReport) (ns : List QEntry) : State :=
  (s.reported r rest).noticedAll ns

section
variable (s : State) (r : OrderReport) (rest : List OrderReport) (ns : List QEntry)

@[simp] theorem State.confirming_order : (s.confirming r rest ns).order = { s.order with reports := rest } := by
  simp [State.confirming]
@[simp] theorem State.confirming_dir : (s.confirming r rest ns).dir = s.dir := by simp [State.confirming]
@[simp] theorem State.confirming_queue : (s.confirming r rest ns).bill.queue = s.bill.queue ++ ns := by
  simp [State.confirming]
@[simp] theorem State.confirming_line (q : Requester) : (s.confirming r rest ns).path.line q = s.path.line q := by
  simp [State.confirming]
@[simp] theorem State.ownRec_confirming (i : Nat) : (s.confirming r rest ns).ownRec i = s.ownRec i := by
  simp [State.confirming]

theorem State.confirming_beside : s.Beside (s.confirming r rest ns) :=
  (s.reported_beside r rest).trans ((s.reported r rest).noticedAll_beside ns)

end

section
variable {s : State} {r : OrderReport} {rest : List OrderReport} {ns : List QEntry} {c : ConfirmItem}
  {plan : List ReadReq}

/-- What a confirmation leaves that opens no purchase, with no order in flight. -/
theorem State.confirming_unopened (hi : s.order.inflight = []) (ho : c.opens = []) :
    let t := ((s.confirming r rest ns).applyConfirm c).stepMade .orderUnit plan
    (s.Beside ((s.confirming r rest ns).applyConfirm c)) ∧ t.order = { s.order with reports := rest } ∧ t.dir = s.dir ∧
      t.path.line .orderUnit = s.path.line .orderUnit ++ [.sub c.sub ((s.ownRec c.sub).confirmedBy c).partWords false] ∧
      t.bill.queue = s.bill.queue ++ ns := by
  have h : (s.confirming r rest ns).opened c = s.confirming r rest ns := State.opened_nil ho
  have ha := State.applyConfirm_writes (s := s.confirming r rest ns) (c := c) (by rw [h]; simpa using hi)
  rw [h] at ha
  intro t
  simp only [t]
  rw [ha]
  refine ⟨(s.confirming_beside r rest ns).trans (State.writeSub_beside _ _ _), by simp, by simp, by simp, by simp⟩

/-- What a confirmation leaves that opens the one purchase of the index. -/
theorem State.confirming_opened {k : Fin 4} {x : IndexEntry} (hi : s.order.inflight = []) (ho : c.opens = [k])
    (hx : s.order.index = [x]) (hsub : x.sub = c.sub) (hev : x.event = (s.ownRec c.sub).slots[k].event)
    (hb : x.state = .booked) :
    let t := ((s.confirming r rest ns).applyConfirm c).stepMade .orderUnit plan
    (s.Beside ((s.confirming r rest ns).applyConfirm c)) ∧
      t.order = { s.order with reports := rest, index := [{ x with state := .opened }] } ∧ t.dir = s.dir ∧
      t.path.line .orderUnit = s.path.line .orderUnit ++ [.sub c.sub ((s.ownRec c.sub).confirmedBy c).partWords false] ∧
      t.bill.queue = s.bill.queue ++ ns := by
  have h : (s.confirming r rest ns).opened c = (s.confirming r rest ns).reindexed [{ x with state := .opened }] := by
    rw [State.opened_single ho, State.setIndex, State.ownRec_confirming, State.reindexed]
    simp [hx, hsub, hev, hb]
  have ha := State.applyConfirm_writes (s := s.confirming r rest ns) (c := c) (by rw [h]; simpa [State.reindexed] using hi)
  rw [h] at ha
  intro t
  simp only [t]
  rw [ha]
  refine ⟨((s.confirming_beside r rest ns).trans (State.withOrder_beside _ _)).trans (State.writeSub_beside _ _ _), ?_, ?_, ?_,
    ?_⟩ <;> simp [State.reindexed]

/-- What a confirmation leaves that completes the one order in flight. -/
theorem State.confirming_flown {x : InFlight} (hi : s.order.inflight = [x]) (ho : c.opens = [])
    (hx : (x.armed && x.onPort c.e c.p && x.sub == c.sub) = true) :
    let t := ((s.confirming r rest ns).applyConfirm c).stepMade .orderUnit plan
    (s.Beside ((s.confirming r rest ns).applyConfirm c)) ∧ t.order = s.order.flown x rest ∧
      t.path.line .orderUnit = s.path.line .orderUnit ++
        [.sub x.sub (x.completed .done (fun r => r.confirmedBy c) (s.ownRec x.sub)).partWords false] ∧
      t.bill.queue = s.bill.queue ++ ns := by
  have h : (s.confirming r rest ns).opened c = s.confirming r rest ns := State.opened_nil ho
  have hi1 : (s.confirming r rest ns).order.inflight = [x] := by simpa using hi
  have ha := State.applyConfirm_completes (s := s.confirming r rest ns) (c := c) (by rw [h]; exact hi1) hx
  rw [h] at ha
  intro t
  simp only [t]
  rw [ha]
  refine ⟨(s.confirming_beside r rest ns).trans (State.completeFlight_beside _ _ _ _), ?_, by simp, by simp⟩
  rw [State.stepMade_order, State.completeFlight_order _ _ _ _ hi1, State.confirming_order]
  rfl

end

/-- The record of a confirmation that opens nothing. -/
theorem SubRec.confirmedBy_unopened {c : ConfirmItem} (r : SubRec) (h : c.opens = []) :
    r.confirmedBy c = { r with confirmed := if c.answer.on then .on else .off, lastConfirm := c.minute } := by
  rw [SubRec.confirmedBy, h]
  rfl

/-- The record of a confirmation that opens a BOOKED purchase. -/
theorem SubRec.confirmedBy_opened {c : ConfirmItem} {r : SubRec} {k : Fin 4} (h : c.opens = [k])
    (hu : r.slots[k].used = true) (hb : r.slots[k].state = .booked) :
    r.confirmedBy c =
      SubRec.setSlot { r with confirmed := if c.answer.on then .on else .off, lastConfirm := c.minute } k
        { r.slots[k] with state := .opened, charged := true } := by
  rw [SubRec.confirmedBy, h]
  exact if_pos (by rw [hu, hb]; rfl)

/-- The notices of a confirmation (R19, R24). -/
def State.confirmQueue (s : State) (sub : Nat) (answer : PortState) (minute : Nat) : List QEntry :=
  startNotice sub (s.ownRec sub) answer minute ++
    chargeNotices sub (s.ownRec sub) minute (s.opensOf sub (s.ownRec sub) answer)

/-- The state that a confirmation leaves, its notices handed. -/
def State.confirmedState (s : State) (sub : Nat) (e : EntryId) (p : Port) (answer : PortState) (minute : Nat)
    (rest : List OrderReport) : State :=
  ((s.confirming (.outcome .setPort e p (.setOk answer minute)) rest (s.confirmQueue sub answer minute)).applyConfirm
    (s.confirmItem sub e p answer minute)).stepMade .orderUnit [s.readOwned sub]

theorem State.confirmation_exec {s : State} {e : EntryId} {p : Port} {sub minute : Nat} {answer : PortState}
    {rest : List OrderReport} (hq : s.quiet)
    (hr : s.order.reports = .outcome .setPort e p (.setOk answer minute) :: rest)
    (hc : (s.tapPort e p).claim = some sub) (hread : s.hasRead .orderUnit [s.readOwned sub] = true)
    (hroom : s.bill.queue.length + (s.confirmQueue sub answer minute).length ≤ Config.noticeDepth)
    (hb : s.Beside ((s.confirming (.outcome .setPort e p (.setOk answer minute)) rest
      (s.confirmQueue sub answer minute)).applyConfirm (s.confirmItem sub e p answer minute)))
    (hw : (s.confirmedState sub e p answer minute rest).order.work = [])
    (ht : (s.confirmedState sub e p answer minute rest).order.taken = none) :
    exec .confirmation s = .next (s.confirmedState sub e p answer minute rest) ∧
      SameMemory s (s.confirmedState sub e p answer minute rest) := by
  rw [State.confirmedState, State.stepMade_order] at hw ht
  exact ⟨congrArg Host.Outcome.next (State.confirmation_step hq hr hc hread hroom rfl hb hw ht),
    (hb.trans (State.stepMade_beside _ _ _)).sameMemory⟩

/-- Settles O35: a confirmation that opens nothing, one that opens a purchase, and one that completes an order. -/
theorem confirmations : Obligations.Confirmations := by
  refine ⟨fun s e p sub minute answer rest hq hi hr hc hread hunused hroom => ?_,
    fun s e p sub minute answer rest hq hr hc hread => ?_⟩
  · have hno := State.opensOf_unused (s := s) (sub := sub) answer hunused
    have hns : s.confirmQueue sub answer minute = startNotice sub (s.ownRec sub) answer minute := by
      rw [State.confirmQueue, hno]
      exact List.append_nil _
    have hlen := startNotice_length sub (s.ownRec sub) answer minute
    obtain ⟨hb, hord, hdir, hline, hqueue⟩ := State.confirming_unopened (s := s)
      (r := .outcome .setPort e p (.setOk answer minute)) (rest := rest) (ns := s.confirmQueue sub answer minute)
      (c := s.confirmItem sub e p answer minute) (plan := [s.readOwned sub]) hi hno
    obtain ⟨hexec, hmem⟩ := State.confirmation_exec hq hr hc hread (by rw [hns]; omega) hb
      (by rw [State.confirmedState, hord]; exact hq.1 .orderUnit) (by rw [State.confirmedState, hord]; exact hq.2)
    rw [SubRec.confirmedBy_unopened _ hno] at hline
    exact ⟨_, hexec, by rw [State.confirmedState, hord], hdir, hmem, hline, hqueue.trans (by rw [hns]; rfl)⟩
  · intro r start
    have hlen : start.length ≤ 1 := startNotice_length sub (s.ownRec sub) answer minute
    refine ⟨fun k x hi hroom hother hu hb hrun hx hsub hev hbk => ?_, fun x hi ha hk he hp hsub hroom hunused => ?_⟩
    · have hopens := State.opensOf_single (answer := answer) hother hu hb hrun hx hsub hev
      intro r1
      refine ⟨fun hon hmask => ?_, fun hoff => ?_⟩
      · have hk : s.opensOf sub (s.ownRec sub) answer = [k] := by rw [hopens, if_pos (by rw [hon, hmask]; rfl)]
        have hns : s.confirmQueue sub answer minute = start ++ [.notice sub (.ppvCharge r.slots[k].price) minute] := by
          rw [State.confirmQueue, hk]
          rfl
        obtain ⟨hbs, hord, hdir, hline, hqueue⟩ := State.confirming_opened (s := s)
          (r := .outcome .setPort e p (.setOk answer minute)) (rest := rest) (ns := s.confirmQueue sub answer minute)
          (c := s.confirmItem sub e p answer minute) (plan := [s.readOwned sub]) hi hk hx hsub hev hbk
        obtain ⟨hexec, hmem⟩ := State.confirmation_exec hq hr hc hread
          (by rw [hns, List.length_append, List.length_singleton]; omega)
          hbs (by rw [State.confirmedState, hord]; exact hq.1 .orderUnit) (by rw [State.confirmedState, hord]; exact hq.2)
        have hrec : (s.ownRec sub).confirmedBy (s.confirmItem sub e p answer minute) =
            r1.setSlot k { r.slots[k] with state := .opened, charged := true } := SubRec.confirmedBy_opened hk hu hb
        rw [show (s.confirmItem sub e p answer minute).sub = sub from rfl, hrec] at hline
        exact ⟨_, hexec, hord, hdir, hline, hqueue.trans (by rw [hns, List.append_assoc]), hmem⟩
      · have hno : s.opensOf sub (s.ownRec sub) answer = [] := by
          rw [hopens, if_neg]
          rcases hoff with h | h <;> simp [h]
        have hns : s.confirmQueue sub answer minute = start := by
          rw [State.confirmQueue, hno]
          exact List.append_nil _
        obtain ⟨hbs, hord, hdir, hline, hqueue⟩ := State.confirming_unopened (s := s)
          (r := .outcome .setPort e p (.setOk answer minute)) (rest := rest) (ns := s.confirmQueue sub answer minute)
          (c := s.confirmItem sub e p answer minute) (plan := [s.readOwned sub]) hi hno
        obtain ⟨hexec, hmem⟩ := State.confirmation_exec hq hr hc hread (by rw [hns]; omega) hbs
          (by rw [State.confirmedState, hord]; exact hq.1 .orderUnit) (by rw [State.confirmedState, hord]; exact hq.2)
        rw [SubRec.confirmedBy_unopened _ hno] at hline
        exact ⟨_, hexec, hord, hline, hqueue.trans (by rw [hns]), hmem⟩
    · have hno := State.opensOf_unused (s := s) (sub := sub) answer hunused
      have hns : s.confirmQueue sub answer minute = start := by
        rw [State.confirmQueue, hno]
        exact List.append_nil _
      have hhit : (x.armed && x.onPort e p && x.sub == sub) = true := by
        rw [← he, ← hp, InFlight.onPort_self hk, ha, hsub]
        simp
      obtain ⟨hb, hord, hline, hqueue⟩ := State.confirming_flown (s := s)
        (r := .outcome .setPort e p (.setOk answer minute)) (rest := rest) (ns := s.confirmQueue sub answer minute)
        (c := s.confirmItem sub e p answer minute) (plan := [s.readOwned sub]) hi hno hhit
      have hkeep := OrderUnit.backAgain_taken { s.order with reports := rest, inflight := [] } x.sub x.reorder
      obtain ⟨hexec, hmem⟩ := State.confirmation_exec hq hr hc hread (by rw [hns]; omega) hb
        (by rw [State.confirmedState, hord]; exact hkeep.2.trans (hq.1 .orderUnit))
        (by rw [State.confirmedState, hord]; exact hkeep.1.trans hq.2)
      rw [InFlight.completed, SubRec.confirmedBy_unopened _ hno, hsub] at hline
      exact ⟨_, hexec, hord, hline, hqueue.trans (by rw [hns]), hmem⟩

end Sys2Proof.Machine
end

section
/-! The arrivals of the Billing Unit, and notices that waited (O37). -/

open Sys2Proof

namespace Sys2Proof.Machine

/-- The state in which an arrival of the Billing Unit takes its effect: it has left the line, and its reads have ended. -/
def State.arrived (s : State) (a : BillArrival) (rest : List BillArrival) : State :=
  { s.orderStep (s.arrivalReads a) with order := { s.order with billing := rest } }

section
variable (s : State) (a : BillArrival) (rest : List BillArrival)

@[simp] theorem State.arrived_order : (s.arrived a rest).order = { s.order with billing := rest } := rfl
@[simp] theorem State.arrived_dir : (s.arrived a rest).dir = s.dir := s.orderStep_dir _
@[simp] theorem State.arrived_bill : (s.arrived a rest).bill = s.bill := s.orderStep_bill _
@[simp] theorem State.arrived_lineUp : (s.arrived a rest).lineUp = s.lineUp := s.orderStep_lineUp _
@[simp] theorem State.arrived_lines : (s.arrived a rest).path.lines = s.path.lines := s.orderStep_lines _
@[simp] theorem State.arrived_line (r : Requester) : (s.arrived a rest).path.line r = s.path.line r := s.orderStep_line _ r
@[simp] theorem State.ownRec_arrived (i : Nat) : (s.arrived a rest).ownRec i = s.ownRec i :=
  (State.ownRec_congr i rfl rfl rfl rfl).trans (s.ownRec_orderStep (s.arrivalReads a) i)

theorem State.arrived_beside : s.Beside (s.arrived a rest) :=
  (s.orderStep_beside (s.arrivalReads a)).trans ((s.orderStep (s.arrivalReads a)).withOrder_beside _)

variable {s a rest}

theorem State.arrived_unread (h : s.arrivalReads a = []) :
    s.arrived a rest = { s.keepTurn .orderUnit with order := { s.order with billing := rest } } := by
  rw [State.arrived, h]
  rfl

theorem State.arrived_read {q : ReadReq} (h : s.arrivalReads a = [q]) :
    s.arrived a rest = { s.tookRead .orderUnit with order := { s.order with billing := rest } } := by
  rw [State.arrived, h]
  rfl

/-- The oldest arrival is taken at the end of its read. -/
theorem State.takeBilling_eq {g : BillArrival → State → Option State} {t : State} (ha : s.order.billing = a :: rest)
    (hread : s.hasRead .orderUnit (s.arrivalReads a) = true) (hg : g a (s.arrived a rest) = some t) :
    s.takeBilling g = t.stepMade .orderUnit (s.arrivalReads a) := by
  have hg' : g a { s.orderStep (s.arrivalReads a) with order := { s.order with billing := rest } } = some t := hg
  unfold State.takeBilling
  rw [ha]
  simp only [hread, if_true, hg', Option.map_some, Option.getD_some]

end

/-- The end of a read leaves no turn of the block to drop. -/
theorem State.noTurn_tookRead (s : State) (r : Requester) (u : OrderUnit) (v : Billing) :
    State.noTurn { s.tookRead r with order := u, bill := v } r = { s.tookRead r with order := u, bill := v } := by
  simp [State.noTurn, State.tookRead]

/-! ### Overlap reports, settle answers and refresh requests (R23) -/

section
variable {s : State} {sub event minutes : Nat}

theorem State.takeOverlap_of_slot {k : Fin 4} (h : (s.ownRec sub).slotOf event = some k) :
    s.takeOverlap sub event minutes =
      s.ask .orderUnit (.sub sub ((s.ownRec sub).setSlot k
        { (s.ownRec sub).slots[k] with overlap := min 65535 ((s.ownRec sub).slots[k].overlap + minutes) }).partWords true) := by
  unfold State.takeOverlap
  dsimp only
  rw [h]
  rfl

theorem State.takeOverlap_of_none (h : (s.ownRec sub).slotOf event = none) :
    s.takeOverlap sub event minutes = { s with bill := { s.bill with answer := true } } := by
  unfold State.takeOverlap
  dsimp only
  rw [h]

/-- The one SETTLING entry is removed, and the OPEN slot freed. -/
theorem State.takeSettle_of_entry {band : Nat} {k : Fin 4}
    (hx : s.order.index = [{ sub := sub, event := event, band := band, state := .settling }])
    (hk : (s.ownRec sub).openSlotOf event = some k) :
    s.takeSettle sub event = (s.reindexed []).writeSub sub ((s.ownRec sub).setSlot k Purchase.free) := by
  have hslot : s.settledSlot (s.ownRec sub) sub event = some k := by
    simp [State.settledSlot, hx, hk]
  have hset : (s.order.index.any fun x => x.settles sub event) = true := by simp [hx, IndexEntry.settles]
  unfold State.takeSettle
  rw [if_pos hset]
  dsimp only
  rw [hslot, State.reindexed]
  simp [hx, IndexEntry.settles]

end

/-! ### Notices that waited (R132) -/

/-- The Order Unit's last work, a notice that waited, is done once the queue has room. -/
theorem State.noticeHanded_orderUnit {s : State} {n : QEntry} (hroom : s.bill.queue.length < Config.noticeDepth)
    (hw : s.order.work = [.notice n]) :
    doNoticeHanded .orderUnit s = { (s.keepTurn .orderUnit).keepTurn .billing with
      bill := { s.bill with queue := s.bill.queue ++ [n] }, order := { s.order with work := [] } } := by
  have hwork : s.workOf .orderUnit = [.notice n] := hw
  have hrun : s.resumeWork .orderUnit = ((s.keepTurn .orderUnit).noticed n).setWork .orderUnit [] := by
    rw [State.resumeWork, hwork]
    exact State.runTasks_go .orderUnit _ _ _ _ (State.doTask_notice n hroom)
  unfold doNoticeHanded
  rw [if_pos hroom, if_neg (by simp), hwork]
  exact hrun

/-- The Billing Unit's registration that waited enters the queue. -/
theorem State.noticeHanded_billing {s : State} {n : QEntry} (hroom : s.bill.queue.length < Config.noticeDepth)
    (hw : s.bill.regWait = some n) :
    doNoticeHanded .billing s = { s.keepTurn .billing with
      bill := { s.bill with queue := s.bill.queue ++ [n], regWait := none } } := by
  unfold doNoticeHanded
  rw [if_pos hroom, if_pos rfl, State.handRegistration, hw]

/-- Settles O37: each kind of arrival, and the two blocks that hand notices that waited. -/
theorem billingArrivals : Obligations.BillingArrivals := by
  refine ⟨fun s sub event n rest => ⟨fun k ha hread hk => ?_, fun ha hread hk => ?_, fun k ha hread hx hk => ?_,
    fun ha hc => ?_, fun e p ha hc hread => ?_⟩, fun s n hroom => ⟨fun hw => ?_, fun hw => ?_⟩⟩
  · have hplan : s.arrivalReads (.overlap sub event n) = [s.readOwned sub] := rfl
    have heff := State.takeOverlap_of_slot (s := s.arrived (.overlap sub event n) rest) (minutes := n)
      (by rw [State.ownRec_arrived]; exact hk)
    refine ⟨_, congrArg Host.Outcome.next (State.takeBilling_eq ha hread (congrArg some heff)), by simp, ?_, by simp, ?_⟩
    · rw [State.stepMade_line, State.ask_line, if_pos ⟨rfl, rfl⟩, State.arrived_line, State.ownRec_arrived]
    · intro a
      simp [(s.arrived_beside (.overlap sub event n) rest).mem]
  · have heff := State.takeOverlap_of_none (s := s.arrived (.overlap sub event n) rest) (minutes := n)
      (by rw [State.ownRec_arrived]; exact hk)
    rw [State.arrived_read (q := s.readOwned sub) rfl] at heff
    have h := State.takeBilling_eq ha hread (g := fun a s =>
      match a with
      | .overlap sub event minutes => some (s.takeOverlap sub event minutes)
      | _ => none) (congrArg some heff)
    rw [← s.tookRead_bill .orderUnit]
    exact congrArg Host.Outcome.next (h.trans (s.noTurn_tookRead .orderUnit _ _))
  · have hplan : s.arrivalReads (.settle sub event) = [s.readOwned sub] := by
      simp [State.arrivalReads, hx, IndexEntry.settles]
    have heff := State.takeSettle_of_entry (s := s.arrived (.settle sub event) rest) (k := k) hx
      (by rw [State.ownRec_arrived]; exact hk)
    rw [State.ownRec_arrived] at heff
    refine ⟨_, congrArg Host.Outcome.next (State.takeBilling_eq ha (by rw [hplan]; exact hread) (congrArg some heff)),
      by simp [State.reindexed], by simp [State.reindexed], ?_⟩
    intro a
    simp [(s.arrived_beside (.settle sub event) rest).mem, State.reindexed]
  · have hplan : s.arrivalReads (.refresh sub) = [] := by simp [State.arrivalReads, hc]
    have hc1 : (s.arrived (.refresh sub) rest).claimOf sub = none := (State.claimOf_congr_dir (by simp) sub).trans hc
    have h := State.takeBilling_eq ha (by rw [hplan]; rfl) (g := fun a s =>
      match a with
      | .refresh sub => some (s.recompute sub)
      | _ => none) (congrArg some (State.computeWanted_of_none _ _ hc1))
    rw [hplan, State.arrived_unread hplan] at h
    exact congrArg Host.Outcome.next h
  · have hplan : s.arrivalReads (.refresh sub) = [s.readTiers sub] := by simp [State.arrivalReads, hc]
    have hc1 : (s.arrived (.refresh sub) rest).claimOf sub = some (e, p) := (State.claimOf_congr_dir (by simp) sub).trans hc
    have hl := (State.leaves_of_dir (b := s) (t := s.arrived (.refresh sub) rest) (q := []) e p (by simp) (by simp)
      (fun _ => by simp) (by simp) (s.arrived_beside _ rest).mem (by simp) (by simp [State.arrived])).computed hc1
      (s.ownRec sub).wantOn (s.ownRec sub).tiers
    have hrec : (s.arrived (.refresh sub) rest).recompute sub = (s.arrived (.refresh sub) rest).computeWanted sub
        (s.ownRec sub).wantOn (s.ownRec sub).tiers := by
      rw [State.recompute, State.ownRec_arrived]
    refine ⟨_, congrArg Host.Outcome.next (State.takeBilling_eq ha (by rw [hplan]; exact hread) (congrArg some hrec)), ?_, ?_,
      fun d hd => ?_, ?_, ?_, ?_⟩
    · rw [State.stepMade_order]
      exact hl.order
    · rw [State.tapPort_congr (State.stepMade_dir _ _ _), hl.port]
      rfl
    · rw [State.entry_congr (State.stepMade_dir _ _ _)]
      exact hl.others d hd
    · rw [State.stepMade_lines]
      exact hl.silent rfl
    · rw [State.stepMade_bill]
      exact hl.bill_eq
    · intro a
      rw [State.stepMade_mem, hl.mem]
  · exact congrArg Host.Outcome.next (State.noticeHanded_orderUnit hroom hw)
  · exact congrArg Host.Outcome.next (State.noticeHanded_billing hroom hw)

end Sys2Proof.Machine
end

section
/-! Event reports, the walks they begin, and the tasks that wait for a read of their own (O36). -/

open Sys2Proof

namespace Sys2Proof.Machine

/-! ### Reports whose tasks wait (R4, R20–R22) -/

/-- Where no block waits for room or for a burst, none goes on. -/
theorem State.settle_of_mayGoOn {s : State} (h : ∀ b, s.mayGoOn b = false) : s.settle = s := by
  unfold State.settle
  induction allBlocks with
  | nil => rfl
  | cons b bs ih => simp [List.foldl_cons, h, ih]

/-- In a part where the other blocks have no work, none goes on while the Order Unit waits for a read. -/
theorem State.Beside.settle {s t : State} (h : s.Beside t) (hq : s.quiet) (ho : t.mayGoOn .orderUnit = false) :
    t.settle = t := by
  refine State.settle_of_mayGoOn fun b => ?_
  by_cases hne : b = .orderUnit
  · rw [hne]
    exact ho
  · rw [State.mayGoOn, h.workOf hne, hq.1 b]

/-- The computation of a wanted state waits for its read where the subscriber has a claim, and is nothing otherwise (R44). -/
def State.recomputeLeft (s : State) (sub : Nat) : List Task := if (s.claimOf sub).isSome then [.recompute sub] else []

theorem State.runTasks_recompute (s : State) (sub : Nat) :
    State.runTasks .orderUnit [.recompute sub] s = s.setWork .orderUnit (s.recomputeLeft sub) := by
  cases hc : (s.claimOf sub).isSome with
  | true =>
    rw [State.runTasks_wait (w := .recompute sub) (s1 := s), State.recomputeLeft, hc]
    · rfl
    · simp [State.doTask, State.taskReads, hc]
  | false =>
    rw [State.runTasks_go (s1 := s), State.recomputeLeft, hc]
    · rfl
    · simp [State.doTask, State.taskReads, hc]

theorem State.recomputeLeft_congr {s t : State} (h : t.dir = s.dir) (sub : Nat) : t.recomputeLeft sub = s.recomputeLeft sub := by
  rw [State.recomputeLeft, State.recomputeLeft, State.claimOf_congr_dir h]

/-- The freeing of a BOOKED purchase waits for its read (R21). -/
theorem State.runTasks_freeBooked (s : State) (sub event : Nat) (ts : List Task) :
    State.runTasks .orderUnit (.freeBooked sub event :: ts) s = s.setWork .orderUnit (.freeBooked sub event :: ts) :=
  State.runTasks_wait .orderUnit _ _ _ _ _ rfl

/-- An unread report with its tasks. -/
theorem State.takeReport_walks {s : State} {r : OrderReport} {rest : List OrderReport}
    {g : OrderReport → State → Option (State × List Task)} {ts : List Task} {t : State} (hq : s.quiet)
    (hr : s.order.reports = r :: rest) (hn : s.reportReads r = []) (hg : g r (s.reported r rest) = some (s.reported r rest, ts))
    (hrun : State.runTasks .orderUnit ts (s.reported r rest) = t) (hb : s.Beside t) (ho : t.mayGoOn .orderUnit = false) :
    s.takeReport g = t := by
  have hwork : (s.reported r rest).workOf .orderUnit = [] := hq.1 .orderUnit
  rw [State.takeReport_eq hq hr (by rw [hn]; rfl) hg, State.push_idle _ .orderUnit _ hwork, hrun, hb.settle hq ho, hn]
  rfl

theorem State.setWork_orderUnit (s : State) (ts : List Task) :
    s.setWork .orderUnit ts = { s with order := { s.order with work := ts } } := rfl

theorem State.recomputeLeft_waits (s b : State) (u : OrderUnit) (sub : Nat) :
    State.mayGoOn { b with order := { u with work := s.recomputeLeft sub } } .orderUnit = false := by
  have h : ∀ ts : List Task, ts = [] ∨ ts = [.recompute sub] →
      State.mayGoOn { b with order := { u with work := ts } } .orderUnit = false := by
    rintro ts (rfl | rfl) <;> rfl
  refine h _ ?_
  rw [State.recomputeLeft]
  cases (s.claimOf sub).isSome
  · exact .inl rfl
  · exact .inr rfl

/-! ### Reads of a task (R21, R44) -/

/-- The task that waits for the read that ends has its effect, and the work goes on. -/
theorem State.endRead_task {s : State} {t : Task} {ts : List Task} {a n x : Nat} {ws : List Word}
    (hw : s.order.work = t :: ts) (hp : s.path.port = .burst .orderUnit (.read a n) x ws false)
    (hr : s.path.reads[Requester.orderUnit.idx] = []) (ht : s.taskReads t = [(a, n)]) :
    exec .burstComplete s =
      .next ((State.runTasks .orderUnit ts ((s.tookRead .orderUnit).readTask t)).noTurn .orderUnit) := by
  have hread : s.hasRead .orderUnit [(a, n)] = true := by simp [State.hasRead, hp, hr]
  have h : s.completeBurst = s.endRead .orderUnit a n := by
    unfold State.completeBurst
    rw [hp]
  have he : s.endRead .orderUnit a n =
      (State.runTasks .orderUnit ts ((s.tookRead .orderUnit).readTask t)).noTurn .orderUnit := by
    unfold State.endRead
    rw [hw]
    exact if_pos (by rw [ht, hread]; rfl)
  exact congrArg Host.Outcome.next (h.trans he)

/-! ### The walks of one entry (R20–R22) -/

section
variable {s : State} {x : IndexEntry} (hx : s.order.index = [x])
include hx

theorem State.startWalk_single : s.startWalk x.event = [.recompute x.sub] := by simp [State.startWalk, hx]

theorem State.endWalk_booked (minute : Nat) (drop : Bool) (h : x.state = .booked) :
    s.endWalk x.event minute drop = [.freeBooked x.sub x.event, .recompute x.sub] := by simp [State.endWalk, hx, h]

theorem State.endWalk_opened (minute : Nat) (drop : Bool) (h : x.state = .opened) :
    s.endWalk x.event minute drop =
      [.notice (.notice x.sub (.ppvSettle x.event drop) minute), .setSettling x.sub x.event, .recompute x.sub] := by
  simp [State.endWalk, hx, h]

theorem State.setIndex_single (old new : IndexState) (h : x.state = old) :
    s.setIndex x.sub x.event old new = s.reindexed [{ x with state := new }] := by
  simp [State.setIndex, State.reindexed, hx, h]

end

section
variable {s : State} {x : IndexEntry} {r : OrderReport} {rest : List OrderReport} {minute : Nat} {drop : Bool}
  {g : OrderReport → State → Option (State × List Task)} (hq : s.quiet) (hx : s.order.index = [x])
  (hr : s.order.reports = r :: rest) (hn : s.reportReads r = [])
include hq hx hr hn

/-- A start report with one buyer. -/
theorem State.takeReport_start
    (hg : g r (s.reported r rest) = some (s.reported r rest, (s.reported r rest).startWalk x.event)) :
    s.takeReport g =
      { s.keepTurn .orderUnit with order := { s.order with reports := rest, work := s.recomputeLeft x.sub } } := by
  rw [State.startWalk_single (s := s.reported r rest) hx] at hg
  have hrun := (s.reported r rest).runTasks_recompute x.sub
  rw [State.recomputeLeft_congr (s.reported_dir r rest), State.setWork_orderUnit] at hrun
  rw [State.takeReport_walks hq hr hn hg hrun ((s.reported_beside r rest).trans (State.withOrder_beside _ _))
    (State.recomputeLeft_waits s _ _ x.sub), State.reported_unread hn]

/-- An end or a drop of an event with one BOOKED purchase. -/
theorem State.takeReport_endBooked (hb : x.state = .booked)
    (hg : g r (s.reported r rest) = some (s.reported r rest, (s.reported r rest).endWalk x.event minute drop)) :
    s.takeReport g =
      { s.keepTurn .orderUnit with
        order := { s.order with reports := rest, work := [.freeBooked x.sub x.event, .recompute x.sub] } } := by
  rw [State.endWalk_booked (s := s.reported r rest) hx minute drop hb] at hg
  have hrun := (s.reported r rest).runTasks_freeBooked x.sub x.event [.recompute x.sub]
  rw [State.setWork_orderUnit] at hrun
  rw [State.takeReport_walks hq hr hn hg hrun ((s.reported_beside r rest).trans (State.withOrder_beside _ _)) rfl,
    State.reported_unread hn]

/-- An end or a drop of an event with one OPEN purchase. -/
theorem State.takeReport_endOpened (hroom : s.bill.queue.length < Config.noticeDepth) (ho : x.state = .opened)
    (hg : g r (s.reported r rest) = some (s.reported r rest, (s.reported r rest).endWalk x.event minute drop)) :
    (s.takeReport g).order = { s.order with
        reports := rest, index := [{ x with state := .settling }], work := s.recomputeLeft x.sub } ∧
      (s.takeReport g).bill.queue = s.bill.queue ++ [.notice x.sub (.ppvSettle x.event drop) minute] ∧
      (s.takeReport g).dir = s.dir ∧ (s.takeReport g).path.lines = s.path.lines ∧ SameMemory s (s.takeReport g) := by
  rw [State.endWalk_opened (s := s.reported r rest) hx minute drop ho] at hg
  obtain ⟨b, hb⟩ : ∃ b, (s.reported r rest).noticed (.notice x.sub (.ppvSettle x.event drop) minute) = b := ⟨_, rfl⟩
  have hset : b.doTask (.setSettling x.sub x.event) = (b.reindexed [{ x with state := .settling }], none) := by
    rw [← hb]
    exact congrArg (·, none) (State.setIndex_single (s := (s.reported r rest).noticed _) hx .opened .settling ho)
  have hdir : (b.reindexed [{ x with state := .settling }]).dir = s.dir := by
    rw [← hb]
    exact s.reported_dir r rest
  have hrun : State.runTasks .orderUnit
      [.notice (.notice x.sub (.ppvSettle x.event drop) minute), .setSettling x.sub x.event, .recompute x.sub]
      (s.reported r rest) = (b.reindexed [{ x with state := .settling }]).setWork .orderUnit (s.recomputeLeft x.sub) := by
    rw [State.runTasks_go _ _ _ _ _ (State.doTask_notice _ (by rw [State.reported_bill]; exact hroom)), hb,
      State.runTasks_go _ _ _ _ _ hset, State.runTasks_recompute, State.recomputeLeft_congr hdir]
  rw [State.setWork_orderUnit] at hrun
  have hbeside : s.Beside b := hb ▸ (s.reported_beside r rest).trans (State.noticed_beside _ _)
  rw [State.takeReport_walks hq hr hn hg hrun
    ((hbeside.trans (State.withOrder_beside _ _)).trans (State.withOrder_beside _ _)) (State.recomputeLeft_waits s _ _ x.sub)]
  subst hb
  refine ⟨rfl, by simp [State.reindexed], by simp [State.reindexed], by simp [State.reindexed], hbeside.sameMemory⟩

end

/-- A BOOKED purchase is freed with its entry (R21). -/
theorem State.freeBooked_of_slot {s : State} {sub event : Nat} {k : Fin 4} {r : SubRec}
    (hk : (s.ownRec sub).bookedSlotOf event = some k) (hr : s.ownRec sub = r) :
    s.freeBooked sub event = (s.dropIndex sub event).writeSub sub (r.setSlot k Purchase.free) := by
  unfold State.freeBooked
  dsimp only
  rw [hk, hr]

@[simp] theorem State.writeSub_port (s : State) (i : Nat) (r : SubRec) : (s.writeSub i r).path.port = s.path.port :=
  (s.ask_frame .orderUnit _).2.2

/-- The read of words 2–4 that a computation of the wanted state waited for ends (R44): the state `c` that it leaves, from which
the Order Unit's work goes on. -/
theorem State.endRead_recompute {s : State} {sub a : Nat} {e : EntryId} {p : Port} {ts : List Task} {ws : List Word}
    (hw : s.order.work = .recompute sub :: ts)
    (hp : s.path.port = .burst .orderUnit (.read (s.map.sub + 16 * sub + 2) 3) a ws false)
    (hr : s.path.reads[Requester.orderUnit.idx] = []) (hc : s.claimOf sub = some (e, p)) :
    ∃ c, exec .burstComplete s = .next ((State.runTasks .orderUnit ts c).noTurn .orderUnit) ∧ c.path.port = .free ∧
      c.path.map = s.path.map ∧
      s.Leaves c e p { s.order with index := s.setBands sub s.order.index } []
        { s.tapPort e p with
          wanted := s.wantedOf sub (s.ownRec sub).wantOn (s.ownRec sub).tiers (s.setBands sub s.order.index) } [] := by
  have hp' : s.path.port = .burst .orderUnit (.read (s.readTiers sub).1 (s.readTiers sub).2) a ws false := hp
  have hplan : s.taskReads (.recompute sub) = [s.readTiers sub] := by simp [State.taskReads, hc]
  have hend := State.endRead_task hw hp' hr hplan
  have hc1 : (s.tookRead .orderUnit).claimOf sub = some (e, p) := (State.claimOf_congr_dir (by simp) sub).trans hc
  have hrec : (s.tookRead .orderUnit).readTask (.recompute sub) =
      (s.tookRead .orderUnit).computeWanted sub (s.ownRec sub).wantOn (s.ownRec sub).tiers := by
    rw [State.readTask, State.recompute, State.ownRec_tookRead]
  rw [hrec] at hend
  have hl := (State.leaves_of_dir (b := s) (t := s.tookRead .orderUnit) (q := []) e p (by simp) (by simp) (fun _ => by simp)
    (by simp) (by simp) (by simp) (by simp)).computed hc1 (s.ownRec sub).wantOn (s.ownRec sub).tiers
  rw [State.tookRead_order] at hl
  refine ⟨_, hend, ?_, ?_, hl⟩
  · rw [State.computeWanted_path]
    exact (State.tookRead_port s .orderUnit _ _ _ _ hp).1
  · rw [State.computeWanted_path]
    exact s.tookRead_map .orderUnit

/-- Settles O36: the three reports, and the two tasks that wait for a read. -/
theorem eventWalks : Obligations.EventWalks := by
  refine ⟨fun s x minute rest hq hx hroom => ?_, fun s sub event a k hw hp hr hk => ?_, fun s sub a e p hw hc hp hr => ?_⟩
  · intro left
    refine ⟨fun hr => ?_, fun c drop hc => ⟨fun hb => ?_, fun ho => ?_⟩⟩
    · exact congrArg Host.Outcome.next (State.takeReport_start hq hx hr rfl rfl)
    · rcases hc with ⟨rfl, rfl, hr⟩ | ⟨rfl, rfl, hr⟩
      · exact congrArg Host.Outcome.next (State.takeReport_endBooked hq hx hr rfl hb rfl)
      · exact congrArg Host.Outcome.next (State.takeReport_endBooked hq hx hr rfl hb rfl)
    · rcases hc with ⟨rfl, rfl, hr⟩ | ⟨rfl, rfl, hr⟩
      · exact ⟨_, rfl, State.takeReport_endOpened hq hx hr rfl hroom ho rfl⟩
      · exact ⟨_, rfl, State.takeReport_endOpened hq hx hr rfl hroom ho rfl⟩
  · have hp' : s.path.port = .burst .orderUnit (.read (s.readOwned sub).1 (s.readOwned sub).2) a [] false := hp
    have hend := State.endRead_task hw hp' hr rfl
    have hfree : (s.tookRead .orderUnit).readTask (.freeBooked sub event) =
        ((s.tookRead .orderUnit).dropIndex sub event).writeSub sub ((s.ownRec sub).setSlot k Purchase.free) :=
      State.freeBooked_of_slot (by rw [State.ownRec_tookRead]; exact hk) (s.ownRec_tookRead .orderUnit sub)
    have hdir : (((s.tookRead .orderUnit).dropIndex sub event).writeSub sub
        ((s.ownRec sub).setSlot k Purchase.free)).dir = s.dir := by simp [State.dropIndex]
    rw [hfree, State.runTasks_recompute, State.recomputeLeft_congr hdir, State.setWork_orderUnit] at hend
    refine ⟨_, hend, ?_, ?_, ?_, ?_, ?_, fun a => ?_⟩
    · rw [State.noTurn_port, State.writeSub_port]
      exact (State.tookRead_port s .orderUnit _ _ _ _ hp).1
    · simp [State.dropIndex, State.recomputeLeft]
    · simp [State.dropIndex]
    · simp [State.dropIndex]
    · simp [State.dropIndex]
    · simp [State.dropIndex]
  · obtain ⟨c, hend, hport, -, hl⟩ := State.endRead_recompute hw hp hr hc
    have h := hl.closed
    exact ⟨_, hend, (State.closed_port c).trans hport, h.order, congrArg TapPort.wanted h.port, h.others, h.silent rfl,
      h.bill_eq, h.sameMemory⟩

end Sys2Proof.Machine
end

section
/-! The subscriber pass (R25): the tasks of a step, and what it makes of the purchase slots. -/

open Sys2Proof

namespace Sys2Proof.Machine

/-! ### The tasks of a step (R25, R44) -/

/-- The slots as a burst of the pass writes them: those that the pass leaves and that still stand, and free ones. -/
def SubRec.passedSlots (r now : SubRec) : Vector Purchase 4 := Vector.ofFn fun k =>
  if r.slots[k].used && now.slots[k].used then { r.slots[k] with overlap := now.slots[k].overlap } else Purchase.free

/-- What a step of the pass asks to be written. -/
def PassItem.asks (x : PassItem) (now : SubRec) : List Burst :=
  if x.changed then [.sub x.i { x.record with slots := x.record.passedSlots now }.partWords false] else []

theorem State.applyPass_changed {s : State} {x : PassItem} (h : x.changed = true) :
    s.applyPass x = s.writeSub x.i { x.record with slots := x.record.passedSlots (s.ownRec x.i) } := if_pos h

theorem State.applyPass_unchanged {s : State} {x : PassItem} (h : x.changed = false) : s.applyPass x = s :=
  if_neg (by rw [h]; exact Bool.false_ne_true)

section
variable (s : State) (x : PassItem)

@[simp] theorem State.applyPass_order : (s.applyPass x).order = s.order := by
  cases h : x.changed with
  | true => rw [State.applyPass_changed h, State.writeSub_order]
  | false => rw [State.applyPass_unchanged h]

@[simp] theorem State.applyPass_dir : (s.applyPass x).dir = s.dir := by
  cases h : x.changed with
  | true => rw [State.applyPass_changed h, State.writeSub_dir]
  | false => rw [State.applyPass_unchanged h]

@[simp] theorem State.applyPass_bill : (s.applyPass x).bill = s.bill := by
  cases h : x.changed with
  | true => rw [State.applyPass_changed h, State.writeSub_bill]
  | false => rw [State.applyPass_unchanged h]

@[simp] theorem State.applyPass_mem : (s.applyPass x).mem = s.mem := by
  cases h : x.changed with
  | true => rw [State.applyPass_changed h, State.writeSub_mem]
  | false => rw [State.applyPass_unchanged h]

theorem State.applyPass_line :
    (s.applyPass x).path.line .orderUnit = s.path.line .orderUnit ++ x.asks (s.ownRec x.i) := by
  cases h : x.changed with
  | true => rw [State.applyPass_changed h, State.writeSub_line, PassItem.asks, if_pos h]
  | false => rw [State.applyPass_unchanged h, PassItem.asks, h]; exact (List.append_nil _).symm

end

/-- The next record of the pass, or its end (R25). -/
def State.passAfter (s : State) (i : Nat) : StartPhase := if i + 1 < s.map.ns then .pass (i + 1) else .lineup

/-- The end of a step whose record is not pending. -/
theorem State.passNext_eq {s : State} {x : PassItem} (h : x.record.pending = false) :
    s.passNext x = { s with run := { s.run with phase := s.passAfter x.i } } := by
  simp [State.passNext, h, State.passAfter]

/-- A step without a claim runs to its end, its notices handed. -/
theorem State.runTasks_pass {s : State} {x : PassItem} {ns : List QEntry}
    (hroom : ns = [] ∨ s.bill.queue.length + ns.length ≤ Config.noticeDepth)
    (hc : x.record.enrolled = true → s.claimOf x.i = none) :
    State.runTasks .orderUnit (ns.map Task.notice ++ x.tasks) s =
      (((s.noticedAll ns).applyPass x).passNext x).setWork .orderUnit [] := by
  have hgo : ∀ t : State, State.runTasks .orderUnit [.passNext x] t = (t.passNext x).setWork .orderUnit [] :=
    fun t => State.runTasks_go .orderUnit _ _ _ _ rfl
  have hnotices : State.runTasks .orderUnit (ns.map Task.notice ++ x.tasks) s =
      State.runTasks .orderUnit x.tasks (s.noticedAll ns) := by
    rcases hroom with rfl | h
    · rfl
    · exact State.runTasks_notices _ _ _ _ h
  rw [hnotices, PassItem.tasks, List.append_assoc, List.singleton_append,
    State.runTasks_go _ _ _ _ ((s.noticedAll ns).applyPass x) rfl]
  cases he : x.record.enrolled with
  | false => exact hgo _
  | true =>
    have hn : ((s.noticedAll ns).applyPass x).claimOf x.i = none :=
      (State.claimOf_congr_dir (by simp) x.i).trans (hc he)
    have hskip : ((s.noticedAll ns).applyPass x).doTask (.recompute x.i) = ((s.noticedAll ns).applyPass x, none) := by
      simp [State.doTask, State.taskReads, hn]
    exact (State.runTasks_go .orderUnit _ _ _ _ hskip).trans (hgo _)

/-! ### The purchase slots of a step (R25.3) -/

/-- What a step makes of the purchase slots, from the record that it leaves otherwise. -/
def State.passSlots (s : State) (i : Nat) (slots : Vector Purchase 4) (record : SubRec) (changed : Bool) : PassSlots :=
  (List.finRange 4).foldl (s.passSlot i slots) { record := record, changed := changed, index := [], settles := [] }

/-- A purchase slot freed. -/
def PassSlots.free (a : PassSlots) (k : Fin 4) : PassSlots :=
  { a with record := a.record.setSlot k Purchase.free, changed := true }

/-- A purchase entered into the index, BOOKED or OPEN as it reads. -/
def PassSlots.enter (a : PassSlots) (x : IndexEntry) : PassSlots := { a with index := a.index ++ [x] }

/-- A purchase entered into the index SETTLING, with its PPV SETTLE. -/
def PassSlots.settle (a : PassSlots) (x : IndexEntry) (q : QEntry) : PassSlots :=
  { a with index := a.index ++ [x], settles := a.settles ++ [.notice q] }

/-- A slot of lower number holds the event of slot `k`. -/
def secondSlot (slots : Vector Purchase 4) (k : Fin 4) : Bool :=
  (List.finRange 4).any fun j => decide (j < k) && slots[j].used && slots[j].event == slots[k].event

section
variable {s : State} {i : Nat} {slots : Vector Purchase 4} {a : PassSlots} {k : Fin 4}

theorem State.passSlot_unused (h : slots[k].used = false) : s.passSlot i slots a k = a := by
  unfold State.passSlot
  dsimp only
  exact if_pos (by rw [h]; rfl)

variable (hu : slots[k].used = true)
include hu

/-- With 256 entries held a used slot is freed (assumption 19). -/
theorem State.passSlot_full (h : Config.purchaseIndexDepth ≤ s.order.index.length + a.index.length) :
    s.passSlot i slots a k = a.free k := by
  unfold State.passSlot
  dsimp only
  rw [if_neg (by rw [hu]; exact Bool.false_ne_true), if_pos (by exact h)]
  rfl

variable (hl : s.order.index.length + a.index.length < Config.purchaseIndexDepth)
include hl

/-- A BOOKED slot of an event that the bank does not hold is freed, an OPEN one is settled with the drop mark. -/
theorem State.passSlot_gone (hj : s.active.slotOfEvent slots[k].event = none) :
    s.passSlot i slots a k =
      if slots[k].state = .booked then a.free k
      else a.settle { sub := i, event := slots[k].event, band := 0, state := .settling }
        (.notice i (.ppvSettle slots[k].event true) s.runMinute) := by
  unfold State.passSlot
  dsimp only
  rw [if_neg (by rw [hu]; exact Bool.false_ne_true), if_neg (Nat.not_le.2 hl), hj]
  rfl

variable {j : SlotId} (hj : s.active.slotOfEvent slots[k].event = some j)
include hj

/-- The second slot of an event is freed when BOOKED, and settled with the drop mark when OPEN. -/
theorem State.passSlot_second (h : secondSlot slots k = true) :
    s.passSlot i slots a k =
      if slots[k].state = .booked then a.free k
      else a.settle { sub := i, event := slots[k].event, band := s.active.slots[j].band, state := .settling }
        (.notice i (.ppvSettle slots[k].event true) s.runMinute) := by
  unfold State.passSlot
  dsimp only
  rw [if_neg (by rw [hu]; exact Bool.false_ne_true), if_neg (Nat.not_le.2 hl), hj]
  exact if_pos h

/-- A slot of an ended event is freed when BOOKED, and settled without the drop mark when OPEN. -/
theorem State.passSlot_ended (h : secondSlot slots k = false) (he : s.active.ev[j] = .ended) :
    s.passSlot i slots a k =
      if slots[k].state = .booked then a.free k
      else a.settle { sub := i, event := slots[k].event, band := s.active.slots[j].band, state := .settling }
        (.notice i (.ppvSettle slots[k].event false) s.runMinute) := by
  unfold State.passSlot
  dsimp only
  rw [if_neg (by rw [hu]; exact Bool.false_ne_true), if_neg (Nat.not_le.2 hl), hj]
  exact (if_neg (by rw [← secondSlot, h]; exact Bool.false_ne_true)).trans (if_pos he)

/-- A slot of any other event enters the index as it reads. -/
theorem State.passSlot_enters (h : secondSlot slots k = false) (he : s.active.ev[j] ≠ .ended) :
    s.passSlot i slots a k =
      a.enter { sub := i, event := slots[k].event, band := s.active.slots[j].band
                state := if slots[k].state = .booked then .booked else .opened } := by
  unfold State.passSlot
  dsimp only
  rw [if_neg (by rw [hu]; exact Bool.false_ne_true), if_neg (Nat.not_le.2 hl), hj]
  exact (if_neg (by rw [← secondSlot, h]; exact Bool.false_ne_true)).trans (if_neg he)

end

section
variable {α : Type} {f : α → Fin 4 → α}

/-- Of the slots only `k` counts. -/
theorem foldl_slots_single {k : Fin 4} (h : ∀ j a, j ≠ k → f a j = a) (a : α) : (List.finRange 4).foldl f a = f a k := by
  have hl : List.finRange 4 = [0, 1, 2, 3] := rfl
  rw [hl]
  fin_cases k <;> simp [h]

/-- Of the slots only `k` and `l` count. -/
theorem foldl_slots_pair {k l : Fin 4} (hkl : k < l) (h : ∀ j a, j ≠ k → j ≠ l → f a j = a) (a : α) :
    (List.finRange 4).foldl f a = f (f a k) l := by
  have hl : List.finRange 4 = [0, 1, 2, 3] := rfl
  rw [hl]
  fin_cases k <;> fin_cases l <;> simp_all

/-- Of the slots none counts. -/
theorem foldl_slots_none (h : ∀ j a, f a j = a) (a : α) : (List.finRange 4).foldl f a = a := by
  simp [List.foldl_fixed', h]

end

end Sys2Proof.Machine
end

section
/-! The steps of the subscriber pass and its exceptions (O22). -/

open Sys2Proof

namespace Sys2Proof.Machine

/-! ### A step of the pass (R25) -/

section
variable {s : State} {i : Nat}

/-- The step of a record that is not enrolled. -/
theorem State.passStep_unenrolled (h : (s.ownRec i).enrolled = false) :
    s.passStep i = (s, PassItem.tasks { i := i, record := s.ownRec i, changed := strangeRecord (s.subWords i) }) := by
  unfold State.passStep
  dsimp only
  exact if_neg (by rw [h]; exact Bool.false_ne_true)

/-- The record of a claim that is not made again: without it, wanted service OFF. -/
def SubRec.lost (r : SubRec) : SubRec := { (if r.claimHeld then r.unclaimed else r) with wantOn := false }

/-- STOP SERVICE of a record with wanted service ON whose claim is not made (R25.1). -/
def State.stopNotice (s : State) (i : Nat) : List QEntry :=
  if (s.ownRec i).wantOn then [.notice i .stopService s.runMinute] else []

/-- What the step of such a record makes of its slots. -/
def State.lostSlots (s : State) (i : Nat) : PassSlots :=
  s.passSlots i (s.ownRec i).slots (s.ownRec i).lost ((s.ownRec i).claimHeld || (s.ownRec i).wantOn)

theorem State.passStep_lost (he : (s.ownRec i).enrolled = true) (hc : s.passClaim (s.ownRec i) = none)
    (hs : strangeRecord (s.subWords i) = false) :
    s.passStep i =
      (s.reindexed (s.order.index ++ (s.lostSlots i).index),
        (s.stopNotice i).map Task.notice ++ (s.lostSlots i).settles ++
          PassItem.tasks { i := i, record := (s.lostSlots i).record, changed := (s.lostSlots i).changed }) := by
  unfold State.passStep
  dsimp only
  rw [if_pos he, hc, hs]
  have hstop : (if ((none : Option (EntryId × Port)).isNone && (s.ownRec i).wantOn) = true then
      [Task.notice (.notice i .stopService s.runMinute)] else []) = (s.stopNotice i).map Task.notice := by
    rw [State.stopNotice]
    cases (s.ownRec i).wantOn <;> rfl
  rw [hstop]
  rfl

/-- The step of a record whose claim is made again. -/
theorem State.passStep_claimed {e : EntryId} {p : Port} (he : (s.ownRec i).enrolled = true)
    (hc : s.passClaim (s.ownRec i) = some (e, p)) (hs : strangeRecord (s.subWords i) = false)
    (hu : ∀ k : Fin 4, (s.ownRec i).slots[k].used = false) :
    s.passStep i =
      (s.makeClaim e p i, PassItem.tasks { i := i, record := s.ownRec i, changed := false }) := by
  unfold State.passStep
  dsimp only
  rw [if_pos he, hc, hs]
  dsimp only
  rw [foldl_slots_none fun j a => State.passSlot_unused (hu j), List.append_nil]
  rfl

end

/-- A step of the pass is made at the end of the read of its record. -/
theorem State.subscriberPassStep_eq {s : State} {i : Nat} (hp : s.run.phase = .pass i) (hw : s.order.work = [])
    (ht : s.order.taken = none) (hr : s.hasRead .orderUnit [s.readSub i] = true) :
    exec .subscriberPassStep s =
      .next ((((s.tookRead .orderUnit).passStep i).1.push .orderUnit
        ((s.tookRead .orderUnit).passStep i).2).noTurn .orderUnit) := by
  have hf : s.orderFree = true := by simp [State.orderFree, hw, ht]
  have h : doSubscriberPassStep s = (((s.tookRead .orderUnit).passStep i).1.push .orderUnit
      ((s.tookRead .orderUnit).passStep i).2).noTurn .orderUnit := by
    unfold doSubscriberPassStep
    rw [hp]
    exact if_pos (by rw [hf, hr]; rfl)
  exact congrArg Host.Outcome.next h

theorem State.passSlot_congr {s t : State} {i : Nat} {slots : Vector Purchase 4} {a : PassSlots} {k : Fin 4}
    (ho : t.order.index = s.order.index) (ha : t.active = s.active) (hm : t.runMinute = s.runMinute) :
    t.passSlot i slots a k = s.passSlot i slots a k := by
  unfold State.passSlot
  rw [ho, ha, hm]

section
variable (s : State) (r : Requester) (i : Nat)

theorem State.subWords_tookRead : (s.tookRead r).subWords i = s.subWords i := by simp [State.subWords, State.map]

theorem State.passClaim_tookRead (x : SubRec) : (s.tookRead r).passClaim x = s.passClaim x := by
  have he : ∀ sn, (s.tookRead r).entryOfSerial sn = s.entryOfSerial sn := fun sn => by
    simp only [State.entryOfSerial, State.entry, State.tookRead_dir]
  have ht : ∀ e p, (s.tookRead r).tapPort e p = s.tapPort e p := State.tapPort_congr (s.tookRead_dir r)
  simp only [State.passClaim, he, ht]

theorem State.lostSlots_tookRead : (s.tookRead r).lostSlots i = s.lostSlots i := by
  have hp : (s.tookRead r).passSlot i (s.ownRec i).slots = s.passSlot i (s.ownRec i).slots := by
    funext a k
    exact State.passSlot_congr (by rw [State.tookRead_order]) (State.active_congr (s.tookRead_lineUp r))
      (by rw [State.runMinute, State.tookRead_run, State.runMinute])
  rw [State.lostSlots, State.lostSlots, State.passSlots, State.passSlots, State.ownRec_tookRead, hp]

theorem State.stopNotice_tookRead : (s.tookRead r).stopNotice i = s.stopNotice i := by
  simp only [State.stopNotice, State.ownRec_tookRead, State.runMinute, State.tookRead_run]

end

/-! ### What a step leaves (R25) -/

@[simp] theorem State.noticedAll_map (s : State) (ns : List QEntry) : (s.noticedAll ns).path.map = s.path.map := by
  induction ns generalizing s with
  | nil => rfl
  | cons n ns ih => rw [State.noticedAll_cons, ih]; rfl

@[simp] theorem State.writeSub_map (s : State) (i : Nat) (r : SubRec) : (s.writeSub i r).path.map = s.path.map := by
  unfold State.writeSub State.ask
  split <;> rfl

@[simp] theorem State.applyPass_map (s : State) (x : PassItem) : (s.applyPass x).path.map = s.path.map := by
  cases h : x.changed with
  | true => rw [State.applyPass_changed h, State.writeSub_map]
  | false => rw [State.applyPass_unchanged h]

/-- A step of the pass has gone to its end: what it adds to the index, the notices, and what it asks to be written. -/
structure State.Passed (s t : State) (i : Nat) (index : List IndexEntry) (ns : List QEntry) (asks : List Burst) : Prop where
  dir : t.dir = s.dir
  phase : t.run.phase = s.passAfter i
  order : t.order = { s.order with index := s.order.index ++ index }
  queue : t.bill.queue = s.bill.queue ++ ns
  line : t.path.line .orderUnit = s.path.line .orderUnit ++ asks
  silent : asks = [] → t.path.lines = s.path.lines
  mem : t.mem = s.mem

theorem OrderUnit.work_self {u : OrderUnit} {index : List IndexEntry} (h : u.work = []) :
    ({ ({ u with index := index } : OrderUnit) with work := [] } : OrderUnit) = { u with index := index } := by
  rw [← h]

theorem PassItem.unchanged_of_asks {x : PassItem} {now : SubRec} (h : x.asks now = []) : x.changed = false := by
  cases hc : x.changed with
  | false => rfl
  | true => simp [PassItem.asks, hc] at h

section
variable {s b : State} {x : PassItem} {ns : List QEntry} {index : List IndexEntry}

/-- The tasks of a step without a claim, run in the state that the step leaves first. -/
theorem State.push_pass (hb : b = (s.tookRead .orderUnit).reindexed (s.order.index ++ index)) (hw : s.order.work = [])
    (hroom : ns = [] ∨ s.bill.queue.length + ns.length ≤ Config.noticeDepth)
    (hc : x.record.enrolled = true → s.claimOf x.i = none)
    (hp : x.record.pending = false) :
    s.Passed ((b.push .orderUnit (ns.map Task.notice ++ x.tasks)).noTurn .orderUnit) x.i index ns (x.asks (s.ownRec x.i)) := by
  have hwork : b.workOf .orderUnit = [] := by
    rw [hb]
    have h : (s.tookRead .orderUnit).order.work = [] := by simpa using hw
    exact h
  have hbill : b.bill = s.bill := by rw [hb]; simp [State.reindexed]
  have hdir : b.dir = s.dir := by rw [hb]; simp [State.reindexed]
  have hown : b.ownRec x.i = s.ownRec x.i := by
    rw [hb]
    exact (State.ownRec_congr x.i rfl rfl rfl rfl).trans (s.ownRec_tookRead .orderUnit x.i)
  rw [State.push_idle _ .orderUnit _ hwork,
    State.runTasks_pass (by rw [hbill]; exact hroom) fun h => (State.claimOf_congr_dir hdir x.i).trans (hc h),
    State.passNext_eq hp]
  have hmap : ((b.noticedAll ns).applyPass x).map = s.map := by
    have hm : b.path.map = s.path.map := by rw [hb]; exact s.tookRead_map .orderUnit
    rw [State.map, State.applyPass_map, State.noticedAll_map, hm, State.map]
  constructor
  · exact (State.applyPass_dir _ _).trans ((State.noticedAll_dir _ _).trans hdir)
  · exact congrArg (fun m : WindowMap => if x.i + 1 < m.ns then StartPhase.pass (x.i + 1) else .lineup) hmap
  · have ho : ((b.noticedAll ns).applyPass x).order = { s.order with index := s.order.index ++ index } := by
      rw [State.applyPass_order, State.noticedAll_order, hb]
      simp [State.reindexed]
    exact (congrArg (fun u : OrderUnit => { u with work := [] }) ho).trans (OrderUnit.work_self hw)
  · have h : ((b.noticedAll ns).applyPass x).bill.queue = s.bill.queue ++ ns := by
      rw [State.applyPass_bill, State.noticedAll_queue, hbill]
    exact h
  · have h : ((b.noticedAll ns).applyPass x).path.line .orderUnit = s.path.line .orderUnit ++ x.asks (s.ownRec x.i) := by
      rw [State.applyPass_line, State.noticedAll_line, State.ownRec_noticedAll, hown, hb]
      exact congrArg (· ++ _) (s.tookRead_line .orderUnit .orderUnit)
    exact h
  · intro ha
    have h : ((b.noticedAll ns).applyPass x).path.lines = s.path.lines := by
      rw [State.applyPass_unchanged (PassItem.unchanged_of_asks ha), State.noticedAll_lines, hb]
      exact s.tookRead_lines .orderUnit
    exact h
  · have h : ((b.noticedAll ns).applyPass x).mem = s.mem := by
      rw [State.applyPass_mem, (State.noticedAll_beside b ns).mem, hb]
      exact s.tookRead_mem .orderUnit
    exact h

end

theorem PassItem.asks_unchanged {x : PassItem} (now : SubRec) (h : x.changed = false) : x.asks now = [] := by
  rw [PassItem.asks, h]
  rfl

theorem PassItem.asks_changed {x : PassItem} (now : SubRec) (h : x.changed = true) :
    x.asks now = [.sub x.i { x.record with slots := x.record.passedSlots now }.partWords false] := if_pos h

theorem State.Passed.sameMemory {s t : State} {i : Nat} {index : List IndexEntry} {ns : List QEntry} {asks : List Burst}
    (h : s.Passed t i index ns asks) : SameMemory s t := fun a => by rw [h.mem]

theorem State.tookRead_reindexed (s : State) (r : Requester) :
    s.tookRead r = (s.tookRead r).reindexed (s.order.index ++ []) := by
  rw [List.append_nil, State.reindexed, ← s.tookRead_order r]

section
variable {s : State} {i : Nat} (hph : s.run.phase = .pass i) (hw : s.order.work = []) (ht : s.order.taken = none)
  (hr : s.hasRead .orderUnit [s.readSub i] = true)
include hph hw ht hr

/-- The step of a record that is neither enrolled nor pending. -/
theorem State.pass_unenrolled (hpend : (s.ownRec i).pending = false) (he : (s.ownRec i).enrolled = false) :
    ∃ t, exec .subscriberPassStep s = .next t ∧
      s.Passed t i [] [] (PassItem.asks { i := i, record := s.ownRec i, changed := strangeRecord (s.subWords i) }
        (s.ownRec i)) := by
  have hstep := State.subscriberPassStep_eq hph hw ht hr
  rw [State.passStep_unenrolled (by rw [State.ownRec_tookRead]; exact he), State.ownRec_tookRead,
    State.subWords_tookRead] at hstep
  refine ⟨_, hstep, State.push_pass (ns := []) (x := PassItem.mk i (s.ownRec i) (strangeRecord (s.subWords i)))
    (s.tookRead_reindexed .orderUnit) hw (.inl rfl) (fun h => ?_) hpend⟩
  exact absurd (he.symm.trans h) Bool.false_ne_true

/-- The step of a record whose claim is not made, by what it makes of the slots. -/
theorem State.pass_lost {ns : List QEntry} {a : PassSlots} (he : (s.ownRec i).enrolled = true)
    (hc : s.passClaim (s.ownRec i) = none) (hs : strangeRecord (s.subWords i) = false) (hn : s.claimOf i = none)
    (ha : s.lostSlots i = a) (hset : a.settles = ns.map Task.notice) (hpend : a.record.pending = false)
    (hroom : s.bill.queue.length + (s.stopNotice i ++ ns).length ≤ Config.noticeDepth) :
    ∃ t, exec .subscriberPassStep s = .next t ∧
      s.Passed t i a.index (s.stopNotice i ++ ns)
        (PassItem.asks { i := i, record := a.record, changed := a.changed } (s.ownRec i)) := by
  have hstep := State.subscriberPassStep_eq hph hw ht hr
  rw [State.passStep_lost (by rw [State.ownRec_tookRead]; exact he)
    (by rw [State.ownRec_tookRead, State.passClaim_tookRead]; exact hc) (by rw [State.subWords_tookRead]; exact hs),
    State.lostSlots_tookRead, State.stopNotice_tookRead, State.tookRead_order, ha, hset, ← List.map_append] at hstep
  exact ⟨_, hstep, State.push_pass (x := { i := i, record := a.record, changed := a.changed }) rfl hw (.inr hroom)
    (fun _ => hn) hpend⟩

end

/-! ### The records that a step writes (R2, R25) -/

theorem SubRec.passedSlots_get (r now : SubRec) (k : Fin 4) :
    (r.passedSlots now)[k] =
      if r.slots[k].used && now.slots[k].used then { r.slots[k] with overlap := now.slots[k].overlap } else Purchase.free :=
  Vector.getElem_ofFn k.isLt

theorem slots_ext {v w : Vector Purchase 4} (h : ∀ k : Fin 4, v[k] = w[k]) : v = w :=
  Vector.ext fun j hj => h ⟨j, hj⟩

theorem replicate_free_get (k : Fin 4) : (Vector.replicate 4 Purchase.free)[k] = Purchase.free :=
  Vector.getElem_replicate k.isLt

theorem SubRec.setSlot_other {r : SubRec} {j k : Fin 4} {x : Purchase} (h : j ≠ k) : (r.setSlot k x).slots[j] = r.slots[j] :=
  Vector.getElem_set_ne k.isLt j.isLt fun he => h (Fin.ext he.symm)

/-- A record without changes of its own is written as the part reads it. -/
theorem SubRec.partWords_passedSlots (r : SubRec) : { r with slots := r.passedSlots r }.partWords = r.partWords := by
  have hslot : ∀ k : Fin 4, (r.passedSlots r)[k].words = r.slots[k].words := by
    intro k
    rw [SubRec.passedSlots_get]
    cases hu : r.slots[k].used with
    | true => rfl
    | false =>
      have h0 : r.slots[k].event = 0 := by simpa [Purchase.used] using hu
      rw [Purchase.words, Purchase.words, h0]
      rfl
  have h0 : (r.passedSlots r)[(0 : Nat)].words = r.slots[(0 : Nat)].words := hslot 0
  have h1 : (r.passedSlots r)[(1 : Nat)].words = r.slots[(1 : Nat)].words := hslot 1
  have h2 : (r.passedSlots r)[(2 : Nat)].words = r.slots[(2 : Nat)].words := hslot 2
  have h3 : (r.passedSlots r)[(3 : Nat)].words = r.slots[(3 : Nat)].words := hslot 3
  unfold SubRec.partWords
  dsimp only
  rw [h0, h1, h2, h3]

/-- Slots none of which is kept are written free. -/
theorem SubRec.passedSlots_free {r now : SubRec} (h : ∀ k : Fin 4, r.slots[k].used = false) :
    r.passedSlots now = Vector.replicate 4 Purchase.free := by
  refine slots_ext fun k => ?_
  rw [SubRec.passedSlots_get, h k, replicate_free_get]
  rfl

theorem SubRec.setSlot_unused {r : SubRec} {k : Fin 4} (h : ∀ j : Fin 4, j ≠ k → r.slots[j].used = false) (j : Fin 4) :
    (r.setSlot k Purchase.free).slots[j].used = false := by
  by_cases hj : j = k
  · rw [hj, SubRec.setSlot_same]
    rfl
  · rw [SubRec.setSlot_other hj, h j hj]

/-- Of two used slots the second freed leaves the first. -/
theorem SubRec.passedSlots_second {r : SubRec} {k l : Fin 4} (hkl : k ≠ l) (hk : r.slots[k].used = true)
    (h : ∀ j : Fin 4, j ≠ k → j ≠ l → r.slots[j].used = false) :
    (r.setSlot l Purchase.free).passedSlots r = (Vector.replicate 4 Purchase.free).set k r.slots[k] := by
  refine slots_ext fun j => ?_
  rw [SubRec.passedSlots_get]
  by_cases hj : j = k
  · rw [hj, SubRec.setSlot_other hkl, hk]
    exact (Vector.getElem_set_self k.isLt).symm
  · have hset : ((Vector.replicate 4 Purchase.free).set k r.slots[k])[j] = Purchase.free :=
      (Vector.getElem_set_ne k.isLt j.isLt fun he => hj (Fin.ext he.symm)).trans (replicate_free_get j)
    have hunused : (r.setSlot l Purchase.free).slots[j].used = false := by
      by_cases hl : j = l
      · rw [hl, SubRec.setSlot_same]
        rfl
      · rw [SubRec.setSlot_other hl, h j hj hl]
    rw [hset, hunused]
    rfl

end Sys2Proof.Machine
end

section
/-! The exceptions of the subscriber pass, one by one (O22). -/

open Sys2Proof

namespace Sys2Proof.Machine

section
variable {s : State} {i : Nat} (hph : s.run.phase = .pass i) (hw : s.order.work = []) (ht : s.order.taken = none)
  (hr : s.hasRead .orderUnit [s.readSub i] = true)
include hph hw ht hr

/-- The step of a record whose claim is made again waits for the read of its wanted state (R44). -/
theorem State.pass_claimed {e : EntryId} {p : Port} (he : (s.ownRec i).enrolled = true)
    (hc : s.passClaim (s.ownRec i) = some (e, p)) (hu : ∀ k : Fin 4, (s.ownRec i).slots[k].used = false)
    (hs : strangeRecord (s.subWords i) = false) :
    ∃ t x, exec .subscriberPassStep s = .next t ∧ (t.tapPort e p).claim = some i ∧ x.i = i ∧ x.record = s.ownRec i ∧
      t.order.work = [.recompute i, .passNext x] ∧ t.run.phase = .pass i ∧ SameMemory s t := by
  have hstep := State.subscriberPassStep_eq hph hw ht hr
  rw [State.passStep_claimed (e := e) (p := p) (by rw [State.ownRec_tookRead]; exact he)
    (by rw [State.ownRec_tookRead, State.passClaim_tookRead]; exact hc) (by rw [State.subWords_tookRead]; exact hs)
    (by rw [State.ownRec_tookRead]; exact hu), State.ownRec_tookRead] at hstep
  obtain ⟨b, hb⟩ : ∃ b, (s.tookRead .orderUnit).makeClaim e p i = b := ⟨_, rfl⟩
  have hbw : b.workOf .orderUnit = [] := by
    have h : b.order.work = [] := by rw [← hb]; simpa [State.makeClaim] using hw
    exact h
  have hclaim : (b.tapPort e p).claim = some i := by rw [← hb]; simp [State.makeClaim]
  have hsome : (b.claimOf i).isSome = true := by
    rw [← Option.ne_none_iff_isSome]
    exact fun hn => (b.claimOf_eq_none i).1 hn e p hclaim
  obtain ⟨x, hx⟩ : ∃ x : PassItem, { i := i, record := s.ownRec i, changed := false } = x := ⟨_, rfl⟩
  have hxi : x.i = i := by rw [← hx]
  have hxr : x.record = s.ownRec i := by rw [← hx]
  have htasks : x.tasks = [.applyPass x, .recompute i, .passNext x] := by
    rw [PassItem.tasks, if_pos (by rw [hxr]; exact he), hxi]
    rfl
  have happly : b.doTask (.applyPass x) = (b, none) :=
    congrArg (·, none) (State.applyPass_unchanged (by rw [← hx]))
  have hwait : b.doTask (.recompute i) = (b, some (.recompute i)) := by simp [State.doTask, State.taskReads, hsome]
  rw [hx, hb, State.push_idle _ .orderUnit _ hbw, htasks, State.runTasks_go _ _ _ _ _ happly,
    State.runTasks_wait _ _ _ _ _ _ hwait] at hstep
  refine ⟨_, x, hstep, hclaim, hxi, hxr, rfl, ?_, ?_⟩
  · subst hb
    exact (congrArg RunControl.phase (s.tookRead_run .orderUnit)).trans hph
  · subst hb
    exact fun a => congrArg (memGet · a) (s.tookRead_mem .orderUnit)

end

section
variable {s : State} {i : Nat}

theorem SubRec.lost_pending (r : SubRec) : r.lost.pending = r.pending := by
  unfold SubRec.lost
  cases r.claimHeld <;> rfl

theorem SubRec.lost_slots (r : SubRec) : r.lost.slots = r.slots := by
  unfold SubRec.lost
  cases r.claimHeld <;> rfl

theorem SubRec.lost_of_none {r : SubRec} (hc : r.claimHeld = false) (hw : r.wantOn = false) : r.lost = r := by
  rw [SubRec.lost, hc]
  exact congrArg (fun b => { r with wantOn := b }) hw.symm

theorem State.stopNotice_off (h : (s.ownRec i).wantOn = false) : s.stopNotice i = [] := by
  rw [State.stopNotice, h]
  rfl

theorem State.stopNotice_length (s : State) (i : Nat) : (s.stopNotice i).length ≤ 1 := by
  unfold State.stopNotice
  split <;> simp

/-- Without used slots a step enters nothing into the index. -/
theorem State.lostSlots_unused (hu : ∀ k : Fin 4, (s.ownRec i).slots[k].used = false) :
    s.lostSlots i = { record := (s.ownRec i).lost, changed := (s.ownRec i).claimHeld || (s.ownRec i).wantOn
                      index := [], settles := [] } :=
  foldl_slots_none (fun j _ => State.passSlot_unused (hu j)) _

/-- What a step starts from of a record out of service without a claim. -/
def SubRec.slotsStart (r : SubRec) : PassSlots := { record := r, changed := false, index := [], settles := [] }

theorem State.lostSlots_single {k : Fin 4} (hc : (s.ownRec i).claimHeld = false) (hw : (s.ownRec i).wantOn = false)
    (hu : ∀ j : Fin 4, j ≠ k → (s.ownRec i).slots[j].used = false) :
    s.lostSlots i = s.passSlot i (s.ownRec i).slots (s.ownRec i).slotsStart k := by
  rw [State.lostSlots, SubRec.lost_of_none hc hw, hc, hw]
  exact foldl_slots_single (fun j a hj => State.passSlot_unused (hu j hj)) _

theorem State.lostSlots_pair {k l : Fin 4} (hkl : k < l) (hc : (s.ownRec i).claimHeld = false)
    (hw : (s.ownRec i).wantOn = false) (hu : ∀ j : Fin 4, j ≠ k → j ≠ l → (s.ownRec i).slots[j].used = false) :
    s.lostSlots i =
      s.passSlot i (s.ownRec i).slots (s.passSlot i (s.ownRec i).slots (s.ownRec i).slotsStart k) l := by
  rw [State.lostSlots, SubRec.lost_of_none hc hw, hc, hw]
  exact foldl_slots_pair hkl (fun j a hj hl => State.passSlot_unused (hu j hj hl)) _

theorem secondSlot_of_unused {slots : Vector Purchase 4} {k : Fin 4} (h : ∀ j : Fin 4, j < k → slots[j].used = false) :
    secondSlot slots k = false := by
  refine Bool.eq_false_iff.2 fun hany => ?_
  obtain ⟨j, -, hj⟩ := List.any_eq_true.1 hany
  simp only [Bool.and_eq_true, decide_eq_true_eq] at hj
  obtain ⟨⟨hlt, hused⟩, -⟩ := hj
  exact Bool.false_ne_true ((h j hlt).symm.trans hused)

theorem secondSlot_pair {slots : Vector Purchase 4} {k l : Fin 4} (hkl : k < l) (hk : slots[k].used = true)
    (he : slots[l].event = slots[k].event) : secondSlot slots l = true := by
  refine List.any_eq_true.2 ⟨k, List.mem_finRange k, ?_⟩
  rw [he, hk]
  simp [hkl]

end

/-- A claim whose serial no entry holds, or whose port is claimed, is not made (R25.1). -/
theorem State.passClaim_lost {s : State} {r : SubRec} (h : s.entryOfSerial r.claimSerial = none ∨
    ∃ e, s.entryOfSerial r.claimSerial = some e ∧ (s.tapPort e r.claimPort).claim ≠ none) : s.passClaim r = none := by
  unfold State.passClaim
  split
  · rcases h with h | ⟨e, h, hclaim⟩
    · rw [h]
    · rw [h]
      exact if_pos (Option.isSome_iff_ne_none.2 hclaim)
  · rfl

/-! ### What a step writes (R25.3) -/

section
variable {s : State} {i : Nat} (hph : s.run.phase = .pass i) (hw : s.order.work = []) (ht : s.order.taken = none)
  (hr : s.hasRead .orderUnit [s.readSub i] = true) (he : (s.ownRec i).enrolled = true)
  (hpend : (s.ownRec i).pending = false) (hs : strangeRecord (s.subWords i) = false) (hn : s.claimOf i = none)
  (hroom : s.bill.queue.length < Config.noticeDepth)
include hph hw ht hr he hpend hs hn hroom

/-- A record without used slots whose claim is not made. -/
theorem State.pass_unclaimed (hc : s.passClaim (s.ownRec i) = none) (hu : ∀ k : Fin 4, (s.ownRec i).slots[k].used = false)
    (hch : ((s.ownRec i).claimHeld || (s.ownRec i).wantOn) = true) :
    ∃ t, exec .subscriberPassStep s = .next t ∧
      s.Passed t i [] (s.stopNotice i)
        [.sub i { (s.ownRec i).lost with slots := Vector.replicate 4 Purchase.free }.partWords false] := by
  have hlen := s.stopNotice_length i
  obtain ⟨t, hexec, h⟩ := State.pass_lost hph hw ht hr (ns := []) he hc hs hn (State.lostSlots_unused hu) rfl
    (by rw [SubRec.lost_pending]; exact hpend) (by rw [List.append_nil]; omega)
  rw [List.append_nil, PassItem.asks_changed _ hch] at h
  have hfree : (s.ownRec i).lost.passedSlots (s.ownRec i) = Vector.replicate 4 Purchase.free :=
    SubRec.passedSlots_free (by rw [SubRec.lost_slots]; exact hu)
  rw [hfree] at h
  exact ⟨t, hexec, h⟩

variable (hheld : (s.ownRec i).claimHeld = false) (hon : (s.ownRec i).wantOn = false)
include hheld hon

/-- A record out of service without a claim, by what the step makes of its slots. -/
theorem State.pass_slots {ns : List QEntry} {a : PassSlots} (ha : s.lostSlots i = a) (hset : a.settles = ns.map Task.notice)
    (hap : a.record.pending = (s.ownRec i).pending) (hlen : ns.length ≤ 1) :
    ∃ t, exec .subscriberPassStep s = .next t ∧
      s.Passed t i a.index ns (PassItem.asks { i := i, record := a.record, changed := a.changed } (s.ownRec i)) := by
  have hc : s.passClaim (s.ownRec i) = none := by simp [State.passClaim, hheld]
  have hstop := State.stopNotice_off hon
  have h := State.pass_lost hph hw ht hr he hc hs hn ha hset (by rw [hap]; exact hpend)
    (by rw [hstop, List.nil_append]; omega)
  rw [hstop, List.nil_append] at h
  exact h

variable {k : Fin 4}

/-- The one used slot freed. -/
theorem State.pass_frees (ha : s.lostSlots i = (s.ownRec i).slotsStart.free k)
    (hu : ∀ j : Fin 4, j ≠ k → (s.ownRec i).slots[j].used = false) :
    ∃ t, exec .subscriberPassStep s = .next t ∧
      s.Passed t i [] [] [.sub i { s.ownRec i with slots := Vector.replicate 4 Purchase.free }.partWords false] := by
  obtain ⟨t, hexec, h⟩ := State.pass_slots hph hw ht hr he hpend hs hn hroom hheld hon (ns := []) ha rfl rfl (by simp)
  rw [PassItem.asks_changed _ rfl] at h
  have hfree : ((s.ownRec i).setSlot k Purchase.free).passedSlots (s.ownRec i) = Vector.replicate 4 Purchase.free :=
    SubRec.passedSlots_free (SubRec.setSlot_unused hu)
  have hrec : ({ (s.ownRec i).setSlot k Purchase.free with
      slots := ((s.ownRec i).setSlot k Purchase.free).passedSlots (s.ownRec i) } : SubRec) =
      { s.ownRec i with slots := Vector.replicate 4 Purchase.free } := by
    rw [hfree]
    rfl
  refine ⟨t, hexec, ?_⟩
  rw [← hrec]
  exact h

/-- The one used slot entered as it reads. -/
theorem State.pass_enters {x : IndexEntry} (ha : s.lostSlots i = (s.ownRec i).slotsStart.enter x) :
    ∃ t, exec .subscriberPassStep s = .next t ∧ s.Passed t i [x] [] [] :=
  State.pass_slots hph hw ht hr he hpend hs hn hroom hheld hon (ns := []) ha rfl rfl (by simp)

/-- The one used slot settled. -/
theorem State.pass_settles {x : IndexEntry} {q : QEntry} (ha : s.lostSlots i = (s.ownRec i).slotsStart.settle x q) :
    ∃ t, exec .subscriberPassStep s = .next t ∧ s.Passed t i [x] [q] [] :=
  State.pass_slots hph hw ht hr he hpend hs hn hroom hheld hon (ns := [q]) ha rfl rfl (by simp)

/-- Of two slots of one event the first entered, the second freed. -/
theorem State.pass_second {l : Fin 4} {x : IndexEntry} (hkl : k ≠ l) (hk : (s.ownRec i).slots[k].used = true)
    (hu : ∀ j : Fin 4, j ≠ k → j ≠ l → (s.ownRec i).slots[j].used = false)
    (ha : s.lostSlots i = ((s.ownRec i).slotsStart.enter x).free l) :
    ∃ t, exec .subscriberPassStep s = .next t ∧
      s.Passed t i [x] [] [.sub i { s.ownRec i with
        slots := (Vector.replicate 4 Purchase.free).set k (s.ownRec i).slots[k] }.partWords false] := by
  obtain ⟨t, hexec, h⟩ := State.pass_slots hph hw ht hr he hpend hs hn hroom hheld hon (ns := []) ha rfl rfl (by simp)
  rw [PassItem.asks_changed _ rfl] at h
  have hrec : ({ (s.ownRec i).setSlot l Purchase.free with
      slots := ((s.ownRec i).setSlot l Purchase.free).passedSlots (s.ownRec i) } : SubRec) =
      { s.ownRec i with slots := (Vector.replicate 4 Purchase.free).set k (s.ownRec i).slots[k] } := by
    rw [SubRec.passedSlots_second hkl hk hu]
    rfl
  refine ⟨t, hexec, ?_⟩
  rw [← hrec]
  exact h

/-- Of two slots of one event the first entered, the second settled. -/
theorem State.pass_secondSettles {x y : IndexEntry} {q : QEntry}
    (ha : s.lostSlots i = ((s.ownRec i).slotsStart.enter x).settle y q) :
    ∃ t, exec .subscriberPassStep s = .next t ∧ s.Passed t i [x, y] [q] [] :=
  State.pass_slots hph hw ht hr he hpend hs hn hroom hheld hon (ns := [q]) ha rfl rfl (by simp)

end

/-- Settles O22: the steps of the pass and their exceptions, and the end of the read of words 2–4. -/
theorem subscriberPassSteps : Obligations.SubscriberPassSteps := by
  refine ⟨fun s i hph hw ht hr => ⟨fun he hpend hs => ?_, fun he hpend hs => ?_, fun e p he hc hu hs => ?_, ?_⟩,
    fun s x e p a hw hc hpend hreads hport => ?_⟩
  · obtain ⟨t, hexec, h⟩ := State.pass_unenrolled hph hw ht hr hpend he
    rw [hs, PassItem.asks_unchanged _ rfl] at h
    exact ⟨t, hexec, h.dir, h.order.trans (by rw [List.append_nil]), h.silent rfl, h.phase, h.sameMemory⟩
  · obtain ⟨t, hexec, h⟩ := State.pass_unenrolled hph hw ht hr hpend he
    rw [hs, PassItem.asks_changed _ rfl, SubRec.partWords_passedSlots] at h
    exact ⟨t, hexec, h.dir, h.order.trans (by rw [List.append_nil]), h.line, h.sameMemory⟩
  · exact State.pass_claimed hph hw ht hr he hc hu hs
  · intro r next free settle he hpend hs hn hroom
    refine ⟨fun hu => ⟨fun hheld hlost => ?_, fun hheld hon => ?_⟩, fun hheld hon => ?_⟩
    · have hclaim : s.passClaim r = none := State.passClaim_lost hlost
      obtain ⟨t, hexec, h⟩ := State.pass_unclaimed hph hw ht hr he hpend hs hn hroom hclaim hu
        (by rw [show (s.ownRec i).claimHeld = true from hheld]; rfl)
      rw [SubRec.lost, if_pos hheld] at h
      exact ⟨t, hexec, h.dir, h.order.trans (by rw [List.append_nil]), h.phase, h.queue, h.line, h.sameMemory⟩
    · have hclaim : s.passClaim r = none := by simp [State.passClaim, hheld]
      obtain ⟨t, hexec, h⟩ := State.pass_unclaimed hph hw ht hr he hpend hs hn hroom hclaim hu
        (by rw [show (s.ownRec i).wantOn = true from hon]; exact Bool.or_true _)
      rw [SubRec.lost, if_neg (by rw [show (s.ownRec i).claimHeld = false from hheld]; exact Bool.false_ne_true),
        State.stopNotice, if_pos (show (s.ownRec i).wantOn = true from hon)] at h
      exact ⟨t, hexec, h.dir, h.order.trans (by rw [List.append_nil]), h.phase, h.queue, h.line, h.sameMemory⟩
    · intro entry made freed
      have hmade : ∀ {ix : List IndexEntry} {ns : List QEntry} {bs : List Burst},
          (∃ t, exec .subscriberPassStep s = .next t ∧ s.Passed t i ix ns bs) → made ix ns bs := by
        rintro ix ns bs ⟨t, hexec, h⟩
        exact ⟨t, hexec, h.dir, h.phase, h.order, h.queue, h.line, h.sameMemory⟩
      have henters : ∀ x, s.lostSlots i = r.slotsStart.enter x → made [x] [] [] := fun x ha =>
        hmade (State.pass_enters hph hw ht hr he hpend hs hn hroom hheld hon ha)
      have hsettles : ∀ x q, s.lostSlots i = r.slotsStart.settle x q → made [x] [q] [] := fun x q ha =>
        hmade (State.pass_settles hph hw ht hr he hpend hs hn hroom hheld hon ha)
      refine ⟨fun k hk hother => ?_, fun k l j hkl hk hl hother hev hj hend hb hroom2 => ?_⟩
      · have hsingle := State.lostSlots_single hheld hon hother
        have hfirst : secondSlot r.slots k = false := secondSlot_of_unused fun j hj => hother j (ne_of_lt hj)
        have hfrees : s.lostSlots i = r.slotsStart.free k → made [] [] freed := fun ha =>
          hmade (State.pass_frees hph hw ht hr he hpend hs hn hroom hheld hon ha hother)
        have hopen : r.slots[k].state = .opened → ¬ r.slots[k].state = .booked := fun ho => by
          rw [ho]
          simp
        refine ⟨fun hfull => hfrees (hsingle.trans (State.passSlot_full hk hfull)), fun hl256 => ?_⟩
        have hl : s.order.index.length + r.slotsStart.index.length < Config.purchaseIndexDepth := hl256
        refine ⟨fun j hj => ⟨fun hend => ?_, fun hend => ?_⟩, fun hj => ?_⟩
        · have hslot := hsingle.trans (State.passSlot_enters hk hl hj hfirst hend)
          exact ⟨fun hb => henters _ (hslot.trans (by rw [if_pos hb])),
            fun ho => henters _ (hslot.trans (by rw [if_neg (hopen ho)]))⟩
        · have hslot := hsingle.trans (State.passSlot_ended hk hl hj hfirst hend)
          exact ⟨fun hb => hfrees (hslot.trans (if_pos hb)), fun ho => hsettles _ _ (hslot.trans (if_neg (hopen ho)))⟩
        · have hslot := hsingle.trans (State.passSlot_gone hk hl hj)
          exact ⟨fun hb => hfrees (hslot.trans (if_pos hb)), fun ho => hsettles _ _ (hslot.trans (if_neg (hopen ho)))⟩
      · have hpair := State.lostSlots_pair hkl hheld hon hother
        have hfirst : secondSlot r.slots k = false :=
          secondSlot_of_unused fun m hm => hother m (ne_of_lt hm) (ne_of_lt (hm.trans hkl))
        have hroom1 : s.order.index.length + r.slotsStart.index.length < Config.purchaseIndexDepth :=
          Nat.lt_of_succ_lt hroom2
        rw [State.passSlot_enters hk hroom1 hj hfirst hend, if_pos hb] at hpair
        have hslot := hpair.trans (State.passSlot_second hl hroom2 (by rw [hev]; exact hj) (secondSlot_pair hkl hk hev))
        refine ⟨fun hb2 => ?_, fun ho2 => ?_⟩
        · exact hmade (State.pass_second hph hw ht hr he hpend hs hn hroom hheld hon (ne_of_lt hkl) hk hother
            (hslot.trans (if_pos hb2)))
        · exact hmade (State.pass_secondSettles hph hw ht hr he hpend hs hn hroom hheld hon
            (hslot.trans (if_neg (by rw [ho2]; simp))))
  · obtain ⟨c, hend, hfree, hmap, hl⟩ := State.endRead_recompute hw hport hreads hc
    have hnext : c.doTask (.passNext x) = ({ c with run := { c.run with phase := c.passAfter x.i } }, none) :=
      congrArg (·, none) (State.passNext_eq hpend)
    rw [State.runTasks_go _ _ _ _ _ hnext, State.runTasks_nil] at hend
    have h := hl.closed
    have hphase : c.passAfter x.i = if x.i + 1 < s.map.ns then .pass (x.i + 1) else .lineup := by
      rw [State.passAfter, State.map, State.map, hmap]
    exact ⟨_, hend, hfree, h.order, congrArg TapPort.wanted h.port, h.others, h.silent rfl, hphase, h.sameMemory⟩

end Sys2Proof.Machine
end

section
/-! The layer under the line-up: what asking for a burst leaves, bank states and results, and the parts of a bank read for a
validation (R30, R33, R176). -/

open Sys2Proof

namespace Sys2Proof.Machine

/-! ### What asking for a burst leaves of the Memory Path (R176) -/

section
variable (s : State) (r : Requester) (b : Burst)

@[simp] theorem State.ask_port : (s.ask r b).path.port = s.path.port := (s.ask_frame r b).2.2
@[simp] theorem State.ask_protActive : (s.ask r b).path.protActive = s.path.protActive := by
  unfold State.ask
  split <;> rfl
@[simp] theorem State.ask_protSealed : (s.ask r b).path.protSealed = s.path.protSealed := by
  unfold State.ask
  split <;> rfl

/-- A burst that no waiting one carries stands behind what its block asked for before. -/
theorem State.ask_line_behind (h : b.carries = false) : (s.ask r b).path.line r = s.path.line r ++ [b] := by
  rw [State.ask_line, if_pos ⟨rfl, by rw [h, Bool.false_and]⟩]

end

section
variable (s : State) (r : Requester) (bs : List Burst)

@[simp] theorem State.asks_protActive : (s.asks r bs).path.protActive = s.path.protActive :=
  foldl_keeps (·.path.protActive) _ (fun s b => s.ask_protActive r b) bs s
@[simp] theorem State.asks_protSealed : (s.asks r bs).path.protSealed = s.path.protSealed :=
  foldl_keeps (·.path.protSealed) _ (fun s b => s.ask_protSealed r b) bs s

/-- Bursts that no waiting one carries stand in order behind what their block asked for before. -/
theorem State.asks_line_behind (h : ∀ b ∈ bs, b.carries = false) : (s.asks r bs).path.line r = s.path.line r ++ bs := by
  induction bs generalizing s with
  | nil => exact (List.append_nil _).symm
  | cons b bs ih =>
    have hb : (s.ask r b).path.line r = s.path.line r ++ [b] := s.ask_line_behind r b (h b List.mem_cons_self)
    rw [show s.asks r (b :: bs) = (s.ask r b).asks r bs from rfl, ih _ fun c hc => h c (List.mem_cons_of_mem b hc), hb,
      List.append_assoc, List.singleton_append]

end

/-! ### Word 5 of the slots noted as written (R43) -/

section
variable (s : State) (ks : List SlotId)

/-- What a note of word 5 leaves, notes of several leave. -/
theorem State.noteWord5s_keep {γ : Type} (π : State → γ) (h : ∀ s k, π (State.noteWord5 s k) = π s) :
    π (ks.foldl State.noteWord5 s) = π s := foldl_keeps π State.noteWord5 h ks s

@[simp] theorem State.noteWord5s_path : (ks.foldl State.noteWord5 s).path = s.path :=
  s.noteWord5s_keep ks (·.path) fun _ _ => rfl
@[simp] theorem State.noteWord5s_run : (ks.foldl State.noteWord5 s).run = s.run := s.noteWord5s_keep ks (·.run) fun _ _ => rfl
@[simp] theorem State.noteWord5s_mem : (ks.foldl State.noteWord5 s).mem = s.mem := s.noteWord5s_keep ks (·.mem) fun _ _ => rfl
@[simp] theorem State.noteWord5s_order : (ks.foldl State.noteWord5 s).order = s.order :=
  s.noteWord5s_keep ks (·.order) fun _ _ => rfl
@[simp] theorem State.noteWord5s_bill : (ks.foldl State.noteWord5 s).bill = s.bill :=
  s.noteWord5s_keep ks (·.bill) fun _ _ => rfl
@[simp] theorem State.noteWord5s_buyers : (ks.foldl State.noteWord5 s).lineUp.buyers = s.lineUp.buyers :=
  s.noteWord5s_keep ks (·.lineUp.buyers) fun _ _ => rfl
@[simp] theorem State.noteWord5s_outgoing : (ks.foldl State.noteWord5 s).lineUp.outgoing = s.lineUp.outgoing :=
  s.noteWord5s_keep ks (·.lineUp.outgoing) fun _ _ => rfl
@[simp] theorem State.noteWord5s_bankState : (ks.foldl State.noteWord5 s).lineUp.bankState = s.lineUp.bankState :=
  s.noteWord5s_keep ks (·.lineUp.bankState) fun _ _ => rfl
@[simp] theorem State.noteWord5s_results : (ks.foldl State.noteWord5 s).lineUp.results = s.lineUp.results :=
  s.noteWord5s_keep ks (·.lineUp.results) fun _ _ => rfl

end

/-! ### Bank states and results (R30, 11.4) -/

section
variable (l : LineUp) (b : Bank) (st : BankState)

@[simp] theorem LineUp.setBank_same : (l.setBank b st).bankState[b] = st := Vector.getElem_set_self ..

theorem Bank.other_ne : Bank.other b ≠ b := by
  revert b
  decide

theorem LineUp.setBank_ne {c : Bank} (h : b ≠ c) : (l.setBank b st).bankState[c] = l.bankState[c] :=
  Vector.getElem_set_ne b.isLt c.isLt fun hv => h (Fin.ext hv)

@[simp] theorem LineUp.setResult_same (r : ValResult) (k : Option SlotId) : (l.setResult b r k).results[b] = resultField r k :=
  Vector.getElem_set_self ..

end

/-! ### A part of a bank read for a validation (R33) -/

/-- The part to read next, and the validation that asks for it. -/
theorem State.readPart_spec (s : State) (v : Validation) :
    (s.readPart v).lineUp = { s.lineUp with validation := some v } ∧
      (s.readPart v).path.line .lineUp = s.path.line .lineUp ++ [.readBank v.bank v.part] :=
  ⟨State.ask_lineUp .., State.ask_line_behind _ _ _ rfl⟩

section
variable (s : State) (v : Validation)

@[simp] theorem State.readPart_mem : (s.readPart v).mem = s.mem := State.ask_mem ..
@[simp] theorem State.readPart_run : (s.readPart v).run = s.run := State.ask_run ..
@[simp] theorem State.readPart_port : (s.readPart v).path.port = s.path.port := State.ask_port ..
@[simp] theorem State.readPart_protActive : (s.readPart v).path.protActive = s.path.protActive := State.ask_protActive ..
@[simp] theorem State.readPart_protSealed : (s.readPart v).path.protSealed = s.path.protSealed := State.ask_protSealed ..

end

end Sys2Proof.Machine
end

section
/-! The commit word (O38): what it is answered in each part state, and the validation or the withdrawal that it begins. -/

open Sys2Proof

namespace Sys2Proof.Machine

/-! ### The arrival judged by the part state (R32) -/

section
variable {w : Word} {s : State} {b : Bank}

theorem State.commitArrival_idle (h : s.run.part = .idle) (g : State → State) : s.commitArrival g = s.answerCommit .notRunning := by
  rw [State.commitArrival, h]

theorem State.commitArrival_starting (h : s.run.part = .starting) (g : State → State) :
    s.commitArrival g = s.answerCommit .busy := by
  rw [State.commitArrival, h]

theorem State.commitArrival_judged (h : s.run.part = .running ∨ s.run.part = .halting ∨ s.run.part = .halted)
    (g : State → State) : s.commitArrival g = g s := by
  unfold State.commitArrival
  rcases h with h | h | h <;> rw [h]

/-- A COMMIT is refused in IDLE and STARTING, whatever bank it names. -/
theorem exec_commit_early (hf : s.first .commit w) (ha : actionCode w = 1) :
    (s.run.part = .idle → exec (.commit w) s = .next (s.popped.answerCommit .notRunning)) ∧
      (s.run.part = .starting → exec (.commit w) s = .next (s.popped.answerCommit .busy)) := by
  have he : exec (.commit w) s = .next (doCommit w s) := rfl
  rw [he, doCommit, if_pos ha, State.arrive_spec _ _ _ _ hf]
  exact ⟨fun hp => congrArg _ (State.commitArrival_idle (s := s.popped) hp _),
    fun hp => congrArg _ (State.commitArrival_starting (s := s.popped) hp _)⟩

/-- A WITHDRAW is refused in IDLE and STARTING, whatever bank it names. -/
theorem exec_withdraw_early (hf : s.first .commit w) (ha : actionCode w = 2) :
    (s.run.part = .idle → exec (.withdraw w) s = .next (s.popped.answerCommit .notRunning)) ∧
      (s.run.part = .starting → exec (.withdraw w) s = .next (s.popped.answerCommit .busy)) := by
  have he : exec (.withdraw w) s = .next (doWithdraw w s) := rfl
  rw [he, doWithdraw, if_pos ha, State.arrive_spec _ _ _ _ hf]
  exact ⟨fun hp => congrArg _ (State.commitArrival_idle (s := s.popped) hp _),
    fun hp => congrArg _ (State.commitArrival_starting (s := s.popped) hp _)⟩

section
variable (hf : s.first .commit w) (hp : s.run.part = .running ∨ s.run.part = .halting ∨ s.run.part = .halted)
include hf hp

/-- What a COMMIT of a bank leads to, by the state of the bank (R32, R33). -/
theorem exec_commit_judged (ha : actionCode w = 1) (hb : commitBank w = some b) :
    (s.lineUp.bankState[b] = .active → exec (.commit w) s = .next (s.popped.answerCommit .notPendingBank)) ∧
      (s.lineUp.bankState[b] = .sealed → exec (.commit w) s = .next (s.popped.answerCommit .alreadySealed)) ∧
      (s.lineUp.bankState[b] = .validating → exec (.commit w) s = .next (s.popped.answerCommit .busy)) ∧
      (s.lineUp.bankState[b] = .editable → exec (.commit w) s = .next (s.popped.startValidation b)) := by
  have he : exec (.commit w) s = .next (doCommit w s) := rfl
  rw [he, doCommit, if_pos ha, State.arrive_spec _ _ _ _ hf, State.commitArrival_judged (s := s.popped) hp]
  refine ⟨?_, ?_, ?_, ?_⟩ <;> intro hst <;> simp only [hb, State.popped_lineUp, hst]

/-- What a WITHDRAW of a bank leads to, by the state of the bank (R32, R36). -/
theorem exec_withdraw_judged (ha : actionCode w = 2) (hb : commitBank w = some b) :
    (s.lineUp.bankState[b] = .active → exec (.withdraw w) s = .next (s.popped.answerCommit .notPendingBank)) ∧
      (s.lineUp.bankState[b] = .editable ∨ s.lineUp.bankState[b] = .validating →
        exec (.withdraw w) s = .next (s.popped.answerCommit .nothingSealed)) ∧
      (s.lineUp.bankState[b] = .sealed → s.lineUp.switching = true →
        exec (.withdraw w) s = .next (s.popped.answerCommit .busy)) ∧
      (s.lineUp.bankState[b] = .sealed → s.lineUp.switching = false →
        exec (.withdraw w) s = .next (s.popped.withdrawBank b)) := by
  have he : exec (.withdraw w) s = .next (doWithdraw w s) := rfl
  rw [he, doWithdraw, if_pos ha, State.arrive_spec _ _ _ _ hf, State.commitArrival_judged (s := s.popped) hp]
  refine ⟨fun hst => ?_, ?_, fun hst hsw => ?_, fun hst hsw => ?_⟩
  · simp only [hb, State.popped_lineUp, hst]
  · rintro (hst | hst) <;> simp only [hb, State.popped_lineUp, hst]
  · simp only [hb, State.popped_lineUp, hst, hsw, if_true]
  · simp only [hb, State.popped_lineUp, hst, hsw, Bool.false_eq_true, if_false]

/-- Another action, or a bank that is neither 0 nor 1, is refused as such (R32). -/
theorem exec_commitBadAction_judged (h : actionCode w = 0 ∨ 2 < actionCode w ∨ commitBank w = none) :
    exec (.commitBadAction w) s = .next (s.popped.answerCommit .badAction) := by
  have he : exec (.commitBadAction w) s = .next (doCommitBadAction w s) := rfl
  have hbad : ¬ ((actionCode w = 1 ∨ actionCode w = 2) ∧ commitBank w ≠ none) := by
    rintro ⟨ha, hb⟩
    rcases h with h | h | h
    · omega
    · omega
    · exact hb h
  rw [he, doCommitBadAction, if_neg hbad, State.arrive_spec _ _ _ _ hf, State.commitArrival_judged (s := s.popped) hp]

end

/-! ### An accepted COMMIT and an accepted WITHDRAW (R33, R36) -/

theorem State.startValidation_line (s : State) (b : Bank) :
    (s.startValidation b).path.line .lineUp = s.path.line .lineUp ++ [.header b, .readBank b 0] := by
  rw [State.startValidation, (State.readPart_spec _ _).2, State.ask_line_behind _ _ _ rfl, List.append_assoc]
  rfl

theorem State.withdrawBank_line (s : State) (b : Bank) :
    (s.withdrawBank b).path.line .lineUp = s.path.line .lineUp ++ [.header b] :=
  State.ask_line_behind _ _ _ rfl

theorem State.withdrawBank_lineUp (s : State) (b : Bank) :
    (s.withdrawBank b).lineUp =
      { (s.lineUp.setBank b .editable).setResult b .withdrawn none with epoch := .none, result := .accepted } :=
  State.ask_lineUp ..

theorem State.withdrawBank_protected (s : State) (b : Bank) :
    (s.withdrawBank b).path.protActive = s.path.protActive ∧ (s.withdrawBank b).path.protSealed = none :=
  ⟨State.ask_protActive .., State.ask_protSealed ..⟩

end

/-- Settles O38, by the part state and then by the state of the bank that the word names. -/
theorem commits : Obligations.Commits := by
  intro w s hf
  refine ⟨fun hp ha => (exec_commit_early hf ha).1 hp, fun hp ha => (exec_commit_early hf ha).2 hp,
    fun hp ha => (exec_withdraw_early hf ha).1 hp, fun hp ha => (exec_withdraw_early hf ha).2 hp,
    fun hp => ⟨fun b ha hb => ?_, fun b ha hb => ?_, exec_commitBadAction_judged hf hp⟩⟩
  · obtain ⟨hactive, hsealed, hvalidating, heditable⟩ := exec_commit_judged hf hp ha hb
    refine ⟨hactive, hsealed, hvalidating, fun hst => ⟨_, heditable hst, ?_⟩⟩
    have hlineUp : (s.popped.startValidation b).lineUp = { s.lineUp.setBank b .validating with
        result := .accepted, validation := (s.popped.startValidation b).lineUp.validation } := by
      simp [State.startValidation, (State.readPart_spec _ _).1]
    refine ⟨by rw [hlineUp], by rw [hlineUp]; exact LineUp.setBank_same s.lineUp b _, ?_, ?_, State.startValidation_line .., ?_, ?_, ?_,
      fun a => ?_⟩
    · rw [hlineUp]
      exact LineUp.setBank_ne _ _ _ (Bank.other_ne b).symm
    · exact ⟨_, by rw [State.startValidation, (State.readPart_spec _ _).1], rfl, rfl, rfl⟩
    all_goals simp [State.startValidation]
  · obtain ⟨hactive, hother, hbusy, hsealed⟩ := exec_withdraw_judged hf hp ha hb
    refine ⟨hactive, hother, hbusy, fun hst hsw => ⟨_, hsealed hst hsw, ?_⟩⟩
    obtain ⟨hact, hprot⟩ := s.popped.withdrawBank_protected b
    refine ⟨?_, ?_, ?_, ?_, hprot, hact, State.withdrawBank_line .., fun a => by rw [(State.withdrawBank_frame _ b).1]; rfl⟩ <;>
      rw [State.withdrawBank_lineUp]
    · exact LineUp.setBank_same ..
    · exact LineUp.setResult_same ..

end Sys2Proof.Machine
end

section
/-! The end of a burst in a part where no block has work, and the bursts of a validation (R33, R35, R176). -/

open Sys2Proof

namespace Sys2Proof.Machine

/-! ### The end of a burst of a quiet part (R176) -/

/-- A part in which no block has work stays so while each block keeps the work it has. -/
theorem State.quiet_congr {s t : State} (hq : s.quiet) (horder : t.order = s.order) (hbill : t.bill = s.bill)
    (hlineUp : t.lineUp.work = s.lineUp.work) (hdir : t.dir = s.dir) (hengines : t.engines = s.engines)
    (hcorr : t.corr = s.corr) (hscan : t.scan = s.scan) (htime : t.time = s.time) : t.quiet := by
  refine ⟨fun b => ?_, by rw [horder]; exact hq.2⟩
  rw [← hq.1 b]
  cases b with
  | orderUnit => exact congrArg OrderUnit.work horder
  | billing => exact congrArg Billing.work hbill
  | lineUp => exact hlineUp
  | directory => exact congrArg Directory.work hdir
  | engine f => exact congrArg Engine.work (show t.eng f = s.eng f by rw [State.eng, State.eng, hengines])
  | correlator => exact congrArg Correlator.work hcorr
  | scanner => exact congrArg Scanner.work hscan
  | timeBase => exact congrArg TimeBase.work htime

/-- The end of a burst that is no step's read, and what it brings about in its block (R176). -/
theorem State.completeBurst_eq {s : State} {r : Requester} {b : Burst} {a : Nat} {ws : List Word}
    (hp : s.path.port = .burst r b a ws false) (hb : ∀ n m, b ≠ .read n m) :
    s.completeBurst = ((s.endBurst a ws).burstEnded b).settle := by
  unfold State.completeBurst
  rw [hp]
  split
  · next h =>
    injection h with _ hread
    exact absurd hread (hb _ _)
  · next h => cases h; rfl
  · next h => exact absurd rfl (h _ _ _ _ _)

/-- The same where the block waits for nothing at its end. -/
theorem State.completeBurst_quiet {s : State} {r : Requester} {b : Burst} {a : Nat} {ws : List Word}
    (hp : s.path.port = .burst r b a ws false) (hb : ∀ n m, b ≠ .read n m) (hq : ((s.endBurst a ws).burstEnded b).quiet) :
    s.completeBurst = (s.endBurst a ws).burstEnded b := by
  rw [State.completeBurst_eq hp hb, State.settle_quiet _ hq]

/-! ### The bursts of a validation (R33) -/

section
variable {s : State} {v : Validation} {a : Nat}

theorem State.readPart_quiet (hq : s.quiet) : (s.readPart v).quiet := by
  apply State.quiet_congr hq <;> simp [State.readPart]

/-- The end of a read of the validated bank: its words are checked, and no block that waits goes on. -/
theorem exec_validationBurst (hv : s.lineUp.validation = some v)
    (hp : s.path.port = .burst .lineUp (.readBank v.bank v.part) a [] false) (hq : ((s.endBurst a []).checkPart v).quiet) :
    exec .validationBurst s = .next ((s.endBurst a []).checkPart v) := by
  have hend : (s.endBurst a []).burstEnded (.readBank v.bank v.part) = (s.endBurst a []).checkPart v := by
    have hv' : (s.endBurst a []).lineUp.validation = some v := hv
    simp only [State.burstEnded, State.validationRead, hv', and_self, if_true]
  have hdo : doValidationBurst s = s.completeBurst := by
    unfold doValidationBurst
    rw [hp]
  have hc := State.completeBurst_quiet hp (fun _ _ h => nomatch h) (by rw [hend]; exact hq)
  rw [show exec .validationBurst s = .next (doValidationBurst s) from rfl, hdo, hc, hend]

/-- What a read that leads to the next read leaves (R33). -/
theorem exec_validationBurst_next {n : Validation} (hq : s.quiet) (hv : s.lineUp.validation = some v)
    (hp : s.path.port = .burst .lineUp (.readBank v.bank v.part) a [] false)
    (hc : (s.endBurst a []).checkPart v = (s.endBurst a []).readPart n) (hb : n.bank = v.bank) :
    ∃ t, exec .validationBurst s = .next t ∧ t.lineUp.validation = some n ∧
      t.path.line .lineUp = s.path.line .lineUp ++ [.readBank v.bank n.part] ∧ t.path.port = .free ∧
      t.lineUp.bankState = s.lineUp.bankState ∧ SameMemory s t := by
  have hfreed : (s.endBurst a []).quiet := State.quiet_congr hq rfl rfl rfl rfl rfl rfl rfl rfl
  refine ⟨_, exec_validationBurst hv hp (by rw [hc]; exact State.readPart_quiet hfreed), ?_⟩
  obtain ⟨hlineUp, hline⟩ := (s.endBurst a []).readPart_spec n
  rw [hc, hlineUp, hline, hb]
  exact ⟨rfl, rfl, State.readPart_port .., rfl, fun x => by rw [State.readPart_mem]; rfl⟩

end

/-! ### The end of a validation (R35) -/

/-- The result and failing slot with which a validation ends, none where the bank passes (R35). -/
def Validation.refusal (v : Validation) (fault : Option (ValResult × Option SlotId)) : Option (ValResult × Option SlotId) :=
  if v.edited then some (.edited, none) else fault

section
variable {v : Validation} (r : ValResult)

theorem Validation.refusal_slot (k : Option SlotId) :
    v.refusal (some (r, k)) = some (if v.edited then (.edited, none) else (r, k)) := by
  unfold Validation.refusal
  split <;> rfl

theorem Validation.refusal_noSlot : v.refusal (some (r, none)) = some (if v.edited then .edited else r, none) := by
  unfold Validation.refusal
  split <;> rfl

theorem Validation.refusal_edited (fault : Option (ValResult × Option SlotId)) (h : v.edited = true) :
    v.refusal fault = some (.edited, none) := if_pos h

theorem Validation.refusal_none (h : v.edited = false) : v.refusal none = none := by
  unfold Validation.refusal
  split <;> simp_all

end

/-- The outcome of a validation goes to the header, and a start that waits for it goes on (R35, R46). -/
def State.outcomeOut (s : State) (v : Validation) : State :=
  let s1 := s.ask .lineUp (.header v.bank)
  if v.startup then { s1 with run := { s1.run with phase := .states false false } } else s1

section
variable (s : State) (v : Validation)

@[simp] theorem State.outcomeOut_lineUp : (s.outcomeOut v).lineUp = s.lineUp := by
  unfold State.outcomeOut
  split <;> simp
@[simp] theorem State.outcomeOut_mem : (s.outcomeOut v).mem = s.mem := by
  unfold State.outcomeOut
  split <;> simp
@[simp] theorem State.outcomeOut_time : (s.outcomeOut v).time = s.time := by
  unfold State.outcomeOut
  split <;> simp
@[simp] theorem State.outcomeOut_protSealed : (s.outcomeOut v).path.protSealed = s.path.protSealed := by
  unfold State.outcomeOut
  split <;> simp

theorem State.outcomeOut_line : (s.outcomeOut v).path.line .lineUp = s.path.line .lineUp ++ [.header v.bank] := by
  unfold State.outcomeOut
  split <;> exact State.ask_line_behind _ _ _ rfl

theorem State.outcomeOut_phase (h : v.startup = true) : (s.outcomeOut v).run.phase = .states false false := by
  simp [State.outcomeOut, h]

theorem State.outcomeOut_quiet (hq : s.quiet) : (s.outcomeOut v).quiet := by
  unfold State.outcomeOut
  apply State.quiet_congr hq <;> split <;> simp

end

section
variable {s : State} {v : Validation} {fault : Option (ValResult × Option SlotId)}

/-- The Line-up Unit after a validation that refuses the bank (R35). -/
def LineUp.refused (l : LineUp) (b : Bank) (r : ValResult) (k : Option SlotId) : LineUp :=
  ({ l with validation := none }.setBank b .editable).setResult b r k

/-- The Line-up Unit after a validation that the bank passes (R35). -/
def LineUp.passed (l : LineUp) (v : Validation) : LineUp :=
  { ({ l with validation := none }.setBank v.bank .sealed).setResult v.bank .passed none with
    epoch := .scheduled, epochReq := v.minute }

theorem State.endValidation_refused {x : ValResult × Option SlotId} (h : v.refusal fault = some x) :
    s.endValidation v fault = State.outcomeOut { s with lineUp := s.lineUp.refused v.bank x.1 x.2 } v := by
  have hst : (s.lineUp.refused v.bank x.1 x.2).bankState[v.bank] ≠ .sealed := by
    rw [show (s.lineUp.refused v.bank x.1 x.2).bankState[v.bank] = .editable from LineUp.setBank_same ..]
    decide
  unfold Validation.refusal at h
  unfold State.endValidation
  cases he : v.edited with
  | true =>
    simp only [he, if_true, Option.some.injEq] at h
    subst h
    simp only [if_true]
    exact if_neg hst
  | false =>
    simp only [he, Bool.false_eq_true, if_false] at h
    subst h
    simp only [Bool.false_eq_true, if_false]
    exact if_neg hst

theorem State.epochCheck_early (h : s.time.minute < s.lineUp.epochReq) : s.epochCheck = s := by
  refine if_neg fun hc => ?_
  obtain ⟨_, _, hle, _⟩ := hc
  exact absurd hle (Nat.not_le.2 h)

theorem State.endValidation_passed (h : v.refusal fault = none) (hm : s.time.minute < v.minute) :
    s.endValidation v fault =
      State.outcomeOut (State.protect { s with lineUp := s.lineUp.passed v } s.path.protActive (some v.bank)) v := by
  unfold Validation.refusal at h
  cases he : v.edited with
  | true => simp [he] at h
  | false =>
    simp only [he, Bool.false_eq_true, if_false] at h
    subst h
    unfold State.endValidation
    simp only [he, Bool.false_eq_true, if_false]
    refine (if_pos (LineUp.setBank_same ..)).trans (State.epochCheck_early (s := State.outcomeOut _ v) ?_)
    rw [State.outcomeOut_time, State.outcomeOut_lineUp]
    exact hm

/-- What a read at which the validation refuses the bank leaves (R35). -/
theorem exec_validationBurst_refused {a : Nat} {x : ValResult × Option SlotId} (hq : s.quiet)
    (hv : s.lineUp.validation = some v) (hp : s.path.port = .burst .lineUp (.readBank v.bank v.part) a [] false)
    (hc : (s.endBurst a []).checkPart v = (s.endBurst a []).endValidation v fault) (hr : v.refusal fault = some x) :
    ∃ t, exec .validationBurst s = .next t ∧ t.lineUp.validation = none ∧ t.lineUp.bankState[v.bank] = .editable ∧
      t.lineUp.results[v.bank] = resultField x.1 x.2 ∧ t.lineUp.last = (x.1, v.bank, x.2) ∧
      t.path.line .lineUp = s.path.line .lineUp ++ [.header v.bank] ∧ t.path.protSealed = s.path.protSealed ∧
      SameMemory s t := by
  rw [State.endValidation_refused hr] at hc
  have hend := exec_validationBurst hv hp
    (by rw [hc]; exact State.outcomeOut_quiet _ v (State.quiet_congr hq rfl rfl rfl rfl rfl rfl rfl rfl))
  refine ⟨_, hend, ?_⟩
  rw [hc, State.outcomeOut_lineUp, State.outcomeOut_line, State.outcomeOut_protSealed]
  refine ⟨rfl, LineUp.setBank_same .., LineUp.setResult_same .., rfl, rfl, rfl, fun y => ?_⟩
  rw [State.outcomeOut_mem]
  rfl

/-- What the read of the last slot leaves where the bank passes before its requested minute (R35, R46). -/
theorem exec_validationBurst_passed {a : Nat} (hq : s.quiet) (hv : s.lineUp.validation = some v)
    (hp : s.path.port = .burst .lineUp (.readBank v.bank v.part) a [] false)
    (hc : (s.endBurst a []).checkPart v = (s.endBurst a []).endValidation v none) (he : v.edited = false)
    (hm : s.time.minute < v.minute) :
    ∃ t, exec .validationBurst s = .next t ∧ t.lineUp = s.lineUp.passed v ∧ t.path.protSealed = some v.bank ∧
      t.path.line .lineUp = s.path.line .lineUp ++ [.header v.bank] ∧
      (v.startup = true → t.run.phase = .states false false) ∧ SameMemory s t := by
  rw [State.endValidation_passed (s := s.endBurst a []) (Validation.refusal_none he) hm] at hc
  have hend := exec_validationBurst hv hp
    (by rw [hc]; exact State.outcomeOut_quiet _ v (State.quiet_congr hq rfl rfl rfl rfl rfl rfl rfl rfl))
  refine ⟨_, hend, ?_⟩
  rw [hc, State.outcomeOut_lineUp, State.outcomeOut_line, State.outcomeOut_protSealed]
  refine ⟨rfl, rfl, rfl, State.outcomeOut_phase _ v, fun y => ?_⟩
  rw [State.outcomeOut_mem]
  rfl

end

end Sys2Proof.Machine
end

section
/-! The checks of a slot and of a band plan, and the parts of a validation (O39). -/

open Sys2Proof

namespace Sys2Proof.Machine

/-! ### The checks of a slot in their order (R34) -/

section
variable {plan : Vector BandPlan 8} {lower : List Slot} {changed : Slot → Bool} {x : Slot}

theorem Slot.isLit_iff : x.isLit = true ↔ x.cls ≠ .dark := by simp [Slot.isLit]

theorem Slot.isEvent_iff : x.isEvent = true ↔ x.cls = .event := by simp [Slot.isEvent]

theorem anyChannel_iff : (lower.any fun y => y.isLit && y.channel == x.channel) = true ↔
    ∃ y ∈ lower, y.cls ≠ .dark ∧ y.channel = x.channel := by
  simp [Slot.isLit]

theorem anyOverlap_iff : (lower.any fun y => y.isEvent && y.band == x.band && x.overlaps y) = true ↔
    ∃ y ∈ lower, y.cls = .event ∧ y.band = x.band ∧ x.start < y.stop ∧ y.start < x.stop := by
  simp [Slot.isEvent, Slot.overlaps, and_assoc]

theorem anyEvent_iff : (lower.any fun y => y.isEvent && y.event == x.event) = true ↔
    ∃ y ∈ lower, y.cls = .event ∧ y.event = x.event := by
  simp [Slot.isEvent]

/-- The kind of band that a lit slot's class asks for, against the band's own. -/
theorem Slot.wrongBand_iff (hlit : x.cls ≠ .dark) (kind : BandKind) : kind ≠ (if x.isEvent then .event else .tier) ↔
    (x.cls = .regular ∧ kind ≠ .tier) ∨ (x.cls = .event ∧ kind ≠ .event) := by
  cases hc : x.cls with
  | dark => exact absurd hc hlit
  | regular => simp [Slot.isEvent, hc]
  | event => simp [Slot.isEvent, hc]

theorem slotFault_dark (h : x.cls = .dark) : slotFault plan lower changed (some x) = none := by
  have hl : x.isLit = false := by simp [Slot.isLit, h]
  simp [slotFault, hl]

theorem slotFault_badChannel (hlit : x.cls ≠ .dark) (h : x.channel < 2 ∨ 158 < x.channel) :
    slotFault plan lower changed (some x) = some .badChannel := by
  simp only [slotFault, Slot.isLit_iff.2 hlit, Bool.not_true, Bool.false_eq_true, if_false, if_pos h]

section
variable (hlit : x.cls ≠ .dark) (hc : ¬ (x.channel < 2 ∨ 158 < x.channel))
include hlit hc

theorem slotFault_duplicate (h : ∃ y ∈ lower, y.cls ≠ .dark ∧ y.channel = x.channel) :
    slotFault plan lower changed (some x) = some .duplicateChannel := by
  simp only [slotFault, Slot.isLit_iff.2 hlit, Bool.not_true, Bool.false_eq_true, if_false, if_neg hc, anyChannel_iff.2 h, if_true]

variable (hd : ¬ ∃ y ∈ lower, y.cls ≠ .dark ∧ y.channel = x.channel)
include hd

/-- The checks that are left once the channel is good. -/
theorem slotFault_channelGood : slotFault plan lower changed (some x) =
    if x.tune = 0 then some .badTune
    else if plan[Fin.ofNat 8 x.band].kind ≠ (if x.isEvent then .event else .tier) then some .classBand
    else if x.isEvent then x.eventFault lower changed else none := by
  simp only [slotFault, Slot.isLit_iff.2 hlit, Bool.not_true, Bool.false_eq_true, if_false, if_neg hc,
    if_neg (mt anyChannel_iff.1 hd)]

end

/-- Checks 7–11 of an EVENT slot with an id, whose window is good. -/
theorem Slot.eventFault_windowGood (he : x.event ≠ 0) (hw : ¬ (x.stop ≤ x.start ∨ x.start + 720 < x.stop)) :
    x.eventFault lower changed =
      if lower.any fun y => y.isEvent && y.band == x.band && x.overlaps y then some .eventOverlap
      else if lower.any fun y => y.isEvent && y.event == x.event then some .duplicateEvent
      else if changed x then some .eventChanged else none := by
  rw [Slot.eventFault, if_neg he, if_neg hw]

end

/-! ### The band plan, and an event that has changed (R34) -/

theorem BandPlan.ofWord_isSome (w : Word) : (BandPlan.ofWord w).isSome = true ↔ bits w 0 4 ≤ 2 := by
  unfold BandPlan.ofWord
  split
  · next h => simp [h]
  · next h => simp [h]
  · next h => simp [h]
  · next h0 h1 h2 =>
    have hlt : bits w 0 4 ≠ 0 ∧ bits w 0 4 ≠ 1 ∧ bits w 0 4 ≠ 2 := ⟨h0, h1, h2⟩
    simp only [Option.isSome_none, Bool.false_eq_true, false_iff]
    omega

theorem planGood_iff (ws : List Word) : planGood ws = true ↔ ∀ b, b < 8 → bits (wordAt ws b) 0 4 ≤ 2 := by
  simp only [planGood, List.all_eq_true, List.mem_range, BandPlan.ofWord_isSome]

theorem State.eventChanged_iff (s : State) (x : Slot) : s.eventChanged x = true ↔ ∃ k : SlotId, s.active.ev[k] = .running ∧
    s.active.slots[k].event = x.event ∧ s.active.slots[k].start ≠ x.start := by
  simp [State.eventChanged, and_assoc]

/-! ### The parts of a bank (R33) -/

section
variable {s : State} {v : Validation}

theorem State.checkPart_header (h : v.part = 0) :
    s.checkPart v = s.readPart { v with part := 1, minute := (wordAt (s.bankPart v.bank 0) 1).toNat } := by
  simp [State.checkPart, h]

theorem State.checkPart_planGood (h : v.part = 1) (hg : planGood (s.bankPart v.bank 1) = true) :
    s.checkPart v = s.readPart { v with part := 2, plan := planOf (s.bankPart v.bank 1) } := by
  simp [State.checkPart, h, hg]

theorem State.checkPart_planBad (h : v.part = 1) (hg : planGood (s.bankPart v.bank 1) = false) :
    s.checkPart v = s.endValidation v (some (.classBand, none)) := by
  simp [State.checkPart, h, hg]

theorem State.checkPart_rates (h : v.part = 2 ∨ v.part = 3) : s.checkPart v = s.readPart { v with part := v.part + 1 } := by
  rcases h with h | h <;> simp [State.checkPart, h]

section
variable (h : 4 ≤ v.part)
include h

theorem State.checkPart_slotFails {r : ValResult}
    (hf : slotFault v.plan v.slots s.eventChanged (Slot.ofWords (s.bankPart v.bank v.part)) = some r) :
    s.checkPart v = s.endValidation v (some (r, some (Fin.ofNat 72 (v.part - 4)))) := by
  have hpart : v.part ≠ 0 ∧ v.part ≠ 1 ∧ ¬ v.part < 4 := by omega
  simp only [State.checkPart, hpart, if_false, hf]

theorem State.checkPart_slotPasses {x : Slot} (h75 : v.part < 75) (hx : Slot.ofWords (s.bankPart v.bank v.part) = some x)
    (hf : slotFault v.plan v.slots s.eventChanged (some x) = none) :
    s.checkPart v = s.readPart { v with part := v.part + 1, slots := v.slots ++ [x] } := by
  have hpart : v.part ≠ 0 ∧ v.part ≠ 1 ∧ ¬ v.part < 4 := by omega
  simp only [State.checkPart, hpart, if_false, hx, hf, if_pos h75, Option.getD_some]

omit h in
theorem State.checkPart_lastPasses (h75 : v.part = 75)
    (hf : slotFault v.plan v.slots s.eventChanged (Slot.ofWords (s.bankPart v.bank 75)) = none) :
    s.checkPart v = s.endValidation v none := by
  simp [State.checkPart, h75, hf]

end

end

/-- Settles O39: the parts of a validation one after another, and the checks of a slot in their order. -/
theorem validations : Obligations.Validations := by
  refine ⟨fun s v a hq hv hp => ?_, fun plan lower changed x => ?_, planGood_iff, State.eventChanged_iff⟩
  · have hnext : ∀ {n : Validation}, (s.endBurst a []).checkPart v = (s.endBurst a []).readPart n → n.bank = v.bank →
        ∃ t, exec .validationBurst s = .next t ∧ t.lineUp.validation = some n ∧
          t.path.line .lineUp = s.path.line .lineUp ++ [.readBank v.bank n.part] ∧ SameMemory s t := fun hc hb => by
      obtain ⟨t, hexec, hn, hline, -, -, hmem⟩ := exec_validationBurst_next hq hv hp hc hb
      exact ⟨t, hexec, hn, hline, hmem⟩
    refine ⟨fun h => exec_validationBurst_next hq hv hp (State.checkPart_header h) rfl,
      fun h hg => hnext (State.checkPart_planGood h hg) rfl,
      fun h hg => exec_validationBurst_refused (x := (if v.edited then .edited else .classBand, none)) hq hv hp
        (State.checkPart_planBad h hg) (Validation.refusal_noSlot _),
      fun h => hnext (State.checkPart_rates h) rfl,
      fun x h4 h75 hx hf => hnext (State.checkPart_slotPasses h4 h75 hx hf) rfl, fun r h4 _ hf => ?_,
      fun h75 hf => ⟨fun he => ?_, fun he hm => ?_⟩⟩
    · obtain ⟨t, hexec, hn, hst, hres, hlast, hrest⟩ := exec_validationBurst_refused hq hv hp
        (State.checkPart_slotFails h4 hf) (Validation.refusal_slot r _)
      refine ⟨t, hexec, hn, hst, fun k hk => ?_, hrest⟩
      have hslot : Fin.ofNat 72 (v.part - 4) = k :=
        Fin.ext ((congrArg (· % 72) (by omega : v.part - 4 = k.val)).trans (Nat.mod_eq_of_lt k.isLt))
      rw [hslot] at hres hlast
      exact ⟨hres, hlast⟩
    · obtain ⟨t, hexec, hn, hst, hres, -, -, -, hmem⟩ := exec_validationBurst_refused hq hv hp
        (State.checkPart_lastPasses h75 hf) (Validation.refusal_edited _ he)
      exact ⟨t, hexec, hn, hst, hres, hmem⟩
    · obtain ⟨t, hexec, hlineUp, hprot, hline, hphase, hmem⟩ := exec_validationBurst_passed hq hv hp
        (State.checkPart_lastPasses h75 hf) he hm
      refine ⟨t, hexec, ?_, ?_, ?_, ?_, ?_, hprot, hline, hphase, hmem⟩ <;> rw [hlineUp]
      · rfl
      · exact LineUp.setBank_same ..
      · exact LineUp.setResult_same ..
      all_goals rfl
  · intro fault dup kind wrongBand badWindow overlap dupEvent
    refine ⟨rfl, slotFault_dark, slotFault_badChannel, fun hlit h2 h158 => ?_⟩
    have hc : ¬ (x.channel < 2 ∨ 158 < x.channel) := by omega
    have hwrong : kind ≠ (if x.isEvent then .event else .tier) ↔ wrongBand := Slot.wrongBand_iff hlit kind
    have hgood := fun hd : ¬ dup => slotFault_channelGood (plan := plan) (changed := changed) hlit hc hd
    refine ⟨slotFault_duplicate hlit hc, fun hd ht => (hgood hd).trans (if_pos ht),
      fun hd ht hw => (hgood hd).trans ((if_neg ht).trans (if_pos (hwrong.2 hw))), fun hd ht hw => ?_⟩
    have hband := (hgood hd).trans ((if_neg ht).trans (if_neg (mt hwrong.1 hw)))
    refine ⟨fun hr => hband.trans (if_neg ?_), fun he => ?_⟩
    · rw [Slot.isEvent_iff, hr]
      decide
    · have hevent : fault = x.eventFault lower changed := hband.trans (if_pos (Slot.isEvent_iff.2 he))
      refine ⟨fun h0 => hevent.trans (if_pos h0), fun h0 hbad => hevent.trans ((if_neg h0).trans (if_pos hbad)),
        fun h0 hwin hov => ?_, fun h0 hwin hov hdup => ?_, fun h0 hwin hov hdup => ?_⟩ <;>
        rw [hevent, Slot.eventFault_windowGood h0 hwin]
      · exact if_pos (anyOverlap_iff.2 hov)
      · rw [if_neg (mt anyOverlap_iff.1 hov), if_pos (anyEvent_iff.2 hdup)]
      · rw [if_neg (mt anyOverlap_iff.1 hov), if_neg (mt anyEvent_iff.1 hdup)]

end Sys2Proof.Machine
end

section
/-! The reports of a switch: which events are carried, and the drop, start and end reports in their order (R40). -/

open Sys2Proof

namespace Sys2Proof.Machine

section
variable (old new : Copy) (minute : Nat)

/-! ### Events carried and dropped (R40) -/

theorem mem_openEvents (k : SlotId) :
    k ∈ openEvents old ↔ old.slots[k].isEvent = true ∧ (old.ev[k] = .scheduled ∨ old.ev[k] = .running) := by
  simp [openEvents, allSlots]

theorem carries_of_none {k : SlotId} (h : new.slotOfEvent old.slots[k].event = none) : carries old new k = false := by
  rw [carries, h]

theorem carries_of_some {k j : SlotId} (h : new.slotOfEvent old.slots[k].event = some j) :
    carries old new k = true ↔ old.ev[k] = .scheduled ∨ new.slots[j].start = old.slots[k].start := by
  rw [carries, h]
  simp

/-- The events dropped, in the outgoing slot order. -/
def droppedEvents : List SlotId := (openEvents old).filter fun k => !carries old new k

theorem mem_droppedEvents (k : SlotId) : k ∈ droppedEvents old new ↔
    old.slots[k].isEvent = true ∧ (old.ev[k] = .scheduled ∨ old.ev[k] = .running) ∧ carries old new k = false := by
  simp [droppedEvents, mem_openEvents, and_assoc]

/-- The outgoing slot of the carried event that a slot of the new copy holds. -/
def carriedInto (j : SlotId) : Option SlotId :=
  if new.slots[j].isEvent then (openEvents old).find? fun k => old.slots[k].event == new.slots[j].event && carries old new k
  else none

/-- The start or end report of a slot of the new copy. -/
def carriedReport (j : SlotId) : Option OrderReport :=
  (carriedInto old new j).bind fun k => changeReport old.ev[k] new.ev[j] new.slots[j].event minute

/-- The start and end reports with their slots, in the new slot order. -/
def carriedReports : List (SlotId × OrderReport) :=
  allSlots.filterMap fun j => (carriedReport old new minute j).map fun r => (j, r)

/-- The reports of a switch: drops first, then starts and ends. -/
def switchReportList : List OrderReport :=
  (droppedEvents old new).map (fun k => .eventDrop old.slots[k].event minute) ++ (carriedReports old new minute).map Prod.snd

theorem switchReports_eq : switchReports old new minute = (switchReportList old new minute).map Task.orderReport := by
  rw [switchReports, switchReportList, List.map_append, List.map_map, List.map_map, carriedReports, List.map_filterMap]
  congr 2
  funext j
  unfold carriedReport carriedInto
  by_cases he : new.slots[j].isEvent = true
  · rw [if_pos he, if_pos he]
    cases hf : (openEvents old).find? fun k => old.slots[k].event == new.slots[j].event && carries old new k with
    | none => rfl
    | some k => rw [Option.bind_some, Option.map_map]; rfl
  · rw [if_neg he, if_neg he]
    rfl

section
variable {old new minute}

theorem carriedInto_spec {j k : SlotId} (h : carriedInto old new j = some k) : old.slots[k].isEvent = true ∧
    carries old new k = true ∧ new.slots[j].isEvent = true ∧ new.slots[j].event = old.slots[k].event := by
  unfold carriedInto at h
  split at h
  · next he =>
    have hp := List.find?_some h
    obtain ⟨hk, _⟩ := (mem_openEvents old k).1 (List.mem_of_find?_eq_some h)
    simp only [Bool.and_eq_true, beq_iff_eq] at hp
    exact ⟨hk, hp.2, he, hp.1.symm⟩
  · exact absurd h (by simp)

/-- The one outgoing slot of a carried event is the one found for a slot of the new copy that holds the event. -/
theorem carriedInto_of_unique {j k : SlotId} (hk : k ∈ openEvents old) (hc : carries old new k = true)
    (he : new.slots[j].isEvent = true) (hid : new.slots[j].event = old.slots[k].event)
    (hu : ∀ i, i ≠ k → ¬ (old.slots[i].isEvent = true ∧ old.slots[i].event = old.slots[k].event)) :
    carriedInto old new j = some k := by
  cases hf : carriedInto old new j with
  | none =>
    rw [carriedInto, if_pos he, List.find?_eq_none] at hf
    exact absurd (by rw [hid, hc]; simp) (hf k hk)
  | some i =>
    obtain ⟨hi, _, _, hie⟩ := carriedInto_spec hf
    by_contra hne
    exact hu i (fun h => hne (h ▸ rfl)) ⟨hi, hie.symm.trans hid⟩

theorem mem_carriedReports {c : SlotId × OrderReport} :
    c ∈ carriedReports old new minute ↔ carriedReport old new minute c.1 = some c.2 := by
  simp only [carriedReports, allSlots, List.mem_filterMap, List.mem_finRange, true_and, Option.map_eq_some_iff]
  constructor
  · rintro ⟨j, r, hr, rfl⟩
    exact hr
  · intro h
    exact ⟨_, _, h, rfl⟩

/-- A start or end report comes of a carried event whose state has changed. -/
theorem carriedReport_spec {j : SlotId} {r : OrderReport} (h : carriedReport old new minute j = some r) :
    ∃ k : SlotId, old.slots[k].isEvent = true ∧ carries old new k = true ∧ new.slots[j].isEvent = true ∧
      new.slots[j].event = old.slots[k].event ∧ changeReport old.ev[k] new.ev[j] old.slots[k].event minute = some r := by
  obtain ⟨k, hk, hr⟩ := Option.bind_eq_some_iff.1 h
  obtain ⟨hke, hc, he, hid⟩ := carriedInto_spec hk
  exact ⟨k, hke, hc, he, hid, hid ▸ hr⟩

theorem drop_mem_switchReports {k : SlotId} (hk : k ∈ openEvents old) (hc : carries old new k = false) :
    Task.orderReport (.eventDrop old.slots[k].event minute) ∈ switchReports old new minute := by
  rw [switchReports_eq]
  refine List.mem_map_of_mem (List.mem_append_left _ (List.mem_map_of_mem (f := fun k => OrderReport.eventDrop _ _) ?_))
  obtain ⟨hke, hst⟩ := (mem_openEvents old k).1 hk
  exact (mem_droppedEvents old new k).2 ⟨hke, hst, hc⟩

theorem change_mem_switchReports {j : SlotId} {r : OrderReport} (h : carriedReport old new minute j = some r) :
    Task.orderReport r ∈ switchReports old new minute := by
  rw [switchReports_eq]
  exact List.mem_map_of_mem (List.mem_append_right _ (List.mem_map.2 ⟨(j, r), mem_carriedReports.2 h, rfl⟩))

end

/-! ### The order of the reports (R40) -/

theorem allSlots_pairwise : allSlots.Pairwise (· < ·) := List.pairwise_lt_finRange 72

theorem droppedEvents_pairwise : (droppedEvents old new).Pairwise (· < ·) := (allSlots_pairwise.filter _).filter _

theorem carriedReports_pairwise : ((carriedReports old new minute).map Prod.fst).Pairwise (· < ·) := by
  rw [List.pairwise_map]
  refine allSlots_pairwise.filterMap _ fun i j hij c hc d hd => ?_
  obtain ⟨_, _, rfl⟩ := Option.map_eq_some_iff.1 hc
  obtain ⟨_, _, rfl⟩ := Option.map_eq_some_iff.1 hd
  exact hij

end

end Sys2Proof.Machine
end

section
/-! The work of a switch: what its tasks leave whether or not they wait, and where they stand once there was room (R39). -/

open Sys2Proof

namespace Sys2Proof.Machine

/-! ### The tasks of a switch, waiting or not (R39) -/

/-- The kinds of task that a switch is made of from step 3 on. -/
inductive Task.OfSwitch : Task → Prop
  | orderReport (r : OrderReport) : OfSwitch (.orderReport r)
  | notice (q : QEntry) : OfSwitch (.notice q)
  | burst (b : Burst) : OfSwitch (.burst .lineUp b)
  | takeBuyers : OfSwitch .takeBuyers
  | switchReportOut : OfSwitch .switchReportOut
  | alarm (kind : AlarmKind) (sev : Severity) (subject : Subject) (value : Word) (stamp : Option Nat) :
      OfSwitch (.alarm kind sev subject value stamp)
  | switchDone : OfSwitch .switchDone

/-- What the tasks of a switch leave: the copy and the banks, the protected set, and the work of the other blocks. -/
structure State.SwitchKept (s t : State) : Prop where
  copy : t.lineUp.copy = s.lineUp.copy
  active : t.lineUp.active = s.lineUp.active
  epoch : t.lineUp.epoch = s.lineUp.epoch
  bankState : t.lineUp.bankState = s.lineUp.bankState
  protActive : t.path.protActive = s.path.protActive
  protSealed : t.path.protSealed = s.path.protSealed
  work : ∀ b, b ≠ .lineUp → t.workOf b = s.workOf b

theorem State.SwitchKept.refl (s : State) : s.SwitchKept s := ⟨rfl, rfl, rfl, rfl, rfl, rfl, fun _ _ => rfl⟩

theorem State.SwitchKept.trans {s t u : State} (h : s.SwitchKept t) (k : t.SwitchKept u) : s.SwitchKept u :=
  ⟨k.copy.trans h.copy, k.active.trans h.active, k.epoch.trans h.epoch, k.bankState.trans h.bankState,
    k.protActive.trans h.protActive, k.protSealed.trans h.protSealed, fun b hb => (k.work b hb).trans (h.work b hb)⟩

section
variable (s : State)

/-- The work of a block other than the Line-up Unit is read off the parts that the tasks of a switch leave. -/
theorem State.workOf_congr {s t : State} {b : Blk} (hb : b ≠ .lineUp) (horder : t.order.work = s.order.work)
    (hbill : t.bill.work = s.bill.work) (hdir : t.dir = s.dir) (hengines : t.engines = s.engines) (hcorr : t.corr = s.corr)
    (hscan : t.scan = s.scan) (htime : t.time = s.time) : t.workOf b = s.workOf b := by
  cases b with
  | orderUnit => exact horder
  | billing => exact hbill
  | lineUp => exact absurd rfl hb
  | directory => exact congrArg Directory.work hdir
  | engine f => exact congrArg Engine.work (show t.eng f = s.eng f by rw [State.eng, State.eng, hengines])
  | correlator => exact congrArg Correlator.work hcorr
  | scanner => exact congrArg Scanner.work hscan
  | timeBase => exact congrArg TimeBase.work htime

theorem State.noteWord5_switchKept (k : SlotId) : s.SwitchKept (s.noteWord5 k) :=
  ⟨rfl, rfl, rfl, rfl, rfl, rfl, fun _ hb => State.workOf_congr hb rfl rfl rfl rfl rfl rfl rfl⟩

theorem State.noteWord5s_switchKept (ks : List SlotId) : s.SwitchKept (ks.foldl State.noteWord5 s) := by
  induction ks generalizing s with
  | nil => exact .refl s
  | cons k ks ih => exact (s.noteWord5_switchKept k).trans (ih _)

theorem State.submit_switchKept (k : AlarmKind) (sv : Severity) (sj : Subject) (v : Word) (m : Option Nat) :
    s.SwitchKept (s.submit k sv sj v m).1 := by
  rcases s.submit_spec k sv sj v m with ⟨-, h⟩ | ⟨-, -, h⟩ | ⟨-, -, h⟩ <;> rw [h]
  · exact .refl s
  · exact ⟨rfl, rfl, rfl, rfl, rfl, rfl, fun _ hb => State.workOf_congr hb rfl rfl rfl rfl rfl rfl rfl⟩
  · exact .refl s

theorem State.ask_switchKept (r : Requester) (b : Burst) : s.SwitchKept (s.ask r b) := by
  refine ⟨?_, ?_, ?_, ?_, ?_, ?_, fun _ hb => State.workOf_congr hb ?_ ?_ ?_ ?_ ?_ ?_ ?_⟩ <;> simp

theorem State.takeBuyers_switchKept : s.SwitchKept s.takeBuyers := by
  refine ⟨?_, ?_, ?_, ?_, ?_, ?_, fun _ hb => State.workOf_congr hb ?_ ?_ ?_ ?_ ?_ ?_ ?_⟩ <;> simp

theorem State.doTask_takeBuyers : s.doTask .takeBuyers = (allSlots.foldl State.noteWord5 s.takeBuyers, none) := rfl

/-- A task of a switch leaves what it should, and what is left of it when it waits is a task of a switch. -/
theorem State.doTask_ofSwitch {t : Task} (h : t.OfSwitch) :
    s.SwitchKept (s.doTask t).1 ∧ ∀ w, (s.doTask t).2 = some w → w.OfSwitch := by
  cases h with
  | orderReport r =>
    by_cases hroom : s.order.reports.length < Config.orderReportDepth
    · simp only [State.doTask, if_pos hroom]
      exact ⟨⟨rfl, rfl, rfl, rfl, rfl, rfl, fun _ hb => State.workOf_congr hb rfl rfl rfl rfl rfl rfl rfl⟩, by simp⟩
    · simp only [State.doTask, if_neg hroom]
      exact ⟨.refl s, fun w hw => Option.some.inj hw ▸ .orderReport r⟩
  | notice q =>
    by_cases hroom : s.bill.queue.length < Config.noticeDepth
    · simp only [State.doTask, if_pos hroom]
      exact ⟨⟨rfl, rfl, rfl, rfl, rfl, rfl, fun _ hb => State.workOf_congr hb rfl rfl rfl rfl rfl rfl rfl⟩, by simp⟩
    · simp only [State.doTask, if_neg hroom]
      exact ⟨.refl s, fun w hw => Option.some.inj hw ▸ .notice q⟩
  | burst b => exact ⟨s.ask_switchKept .lineUp b, fun w hw => absurd hw (by simp [State.doTask])⟩
  | takeBuyers =>
    rw [State.doTask_takeBuyers]
    exact ⟨s.takeBuyers_switchKept.trans (State.noteWord5s_switchKept _ allSlots), fun w hw => nomatch hw⟩
  | switchReportOut => exact ⟨.refl s, fun w hw => Option.some.inj hw ▸ .switchReportOut⟩
  | alarm kind sev subject value stamp =>
    refine ⟨s.submit_switchKept kind sev subject value stamp, fun w hw => ?_⟩
    have hw' : (s.submit kind sev subject value stamp).2 = some w := hw
    rcases s.submit_spec kind sev subject value stamp with ⟨-, h⟩ | ⟨-, -, h⟩ | ⟨-, -, h⟩ <;> rw [h] at hw'
    · exact absurd hw' (by simp)
    · exact absurd hw' (by simp)
    · exact Option.some.inj hw' ▸ .alarm kind sev subject value _
  | switchDone =>
    exact ⟨⟨rfl, rfl, rfl, rfl, rfl, rfl, fun _ hb => State.workOf_congr hb rfl rfl rfl rfl rfl rfl rfl⟩,
      fun w hw => absurd hw (by simp [State.doTask])⟩

theorem State.setWork_switchKept (ts : List Task) : s.SwitchKept (s.setWork .lineUp ts) :=
  ⟨rfl, rfl, rfl, rfl, rfl, rfl, fun _ hb => State.workOf_congr hb rfl rfl rfl rfl rfl rfl rfl⟩

/-- The work list that the Line-up Unit is left with is all that changes. -/
theorem State.setWork_lineUp_keeps (ts : List Task) : (s.setWork .lineUp ts).order = s.order ∧
    (s.setWork .lineUp ts).bill = s.bill ∧ (s.setWork .lineUp ts).path = s.path ∧
    (s.setWork .lineUp ts).lineUp.buyers = s.lineUp.buyers ∧ (s.setWork .lineUp ts).lineUp.outgoing = s.lineUp.outgoing ∧
    (s.setWork .lineUp ts).lineUp.work = ts := ⟨rfl, rfl, rfl, rfl, rfl, rfl⟩

/-- The work of a switch goes on until a task of it waits. -/
theorem State.runTasks_ofSwitch (ts : List Task) (h : ∀ t ∈ ts, t.OfSwitch) :
    s.SwitchKept (State.runTasks .lineUp ts s) ∧ ∀ t ∈ (State.runTasks .lineUp ts s).lineUp.work, t.OfSwitch := by
  induction ts generalizing s with
  | nil => exact ⟨s.setWork_switchKept [], fun t ht => nomatch ht⟩
  | cons t ts ih =>
    obtain ⟨hkept, hleft⟩ := s.doTask_ofSwitch (h t List.mem_cons_self)
    have hrest : ∀ x ∈ ts, x.OfSwitch := fun x hx => h x (List.mem_cons_of_mem t hx)
    rcases hd : s.doTask t with ⟨s1, _ | w⟩ <;> rw [hd] at hkept hleft
    · rw [State.runTasks_go _ _ _ _ _ hd]
      obtain ⟨hgo, hwork⟩ := ih s1 hrest
      exact ⟨hkept.trans hgo, hwork⟩
    · rw [State.runTasks_wait _ _ _ _ _ _ hd]
      refine ⟨hkept.trans (s1.setWork_switchKept _), fun x hx => ?_⟩
      rcases List.mem_cons.1 hx with rfl | hx
      · exact hleft x rfl
      · exact hrest x hx

end

/-- With work left to the Line-up Unit alone, calling on the blocks that wait takes up that work alone. -/
theorem State.settle_ofSwitch {s t : State} (hs : ∀ b, b ≠ .lineUp → s.workOf b = []) (hk : s.SwitchKept t)
    (hw : ∀ x ∈ t.lineUp.work, x.OfSwitch) : s.SwitchKept t.settle := by
  unfold State.settle
  suffices h : ∀ (bs : List Blk) (u : State), s.SwitchKept u → (∀ x ∈ u.lineUp.work, x.OfSwitch) →
      s.SwitchKept (bs.foldl (fun s b => if s.mayGoOn b then s.resumeWork b else s) u) from h _ t hk hw
  intro bs
  induction bs with
  | nil => exact fun u hu _ => hu
  | cons b bs ih =>
    intro u hu hwork
    rw [List.foldl_cons]
    by_cases hb : b = .lineUp
    · subst hb
      split
      · obtain ⟨hgo, hleft⟩ := u.runTasks_ofSwitch u.lineUp.work hwork
        exact ih _ (hu.trans hgo) hleft
      · exact ih u hu hwork
    · have hidle : u.mayGoOn b = false := by simp [State.mayGoOn, hu.work b hb, hs b hb]
      rw [hidle]
      exact ih u hu hwork

/-! ### The tasks of a switch with room (R39, R98, R132) -/

/-- The state after a report has been handed to the Order Unit. -/
def State.handed (s : State) (r : OrderReport) : State :=
  { s.keepTurn .orderUnit with order := { s.order with reports := s.order.reports ++ [r] } }

/-- The state after several reports have been handed to the Order Unit. -/
def State.handedAll (s : State) (rs : List OrderReport) : State := rs.foldl State.handed s

section
variable (s : State) (rs : List OrderReport)

theorem State.handedAll_reports : (s.handedAll rs).order.reports = s.order.reports ++ rs := by
  induction rs generalizing s with
  | nil => exact (List.append_nil _).symm
  | cons r rs ih => exact (ih _).trans (by rw [show (s.handed r).order.reports = s.order.reports ++ [r] from rfl]; simp)

@[simp] theorem State.handedAll_index : (s.handedAll rs).order.index = s.order.index :=
  foldl_keeps (·.order.index) State.handed (fun _ _ => rfl) rs s
@[simp] theorem State.handedAll_lineUp : (s.handedAll rs).lineUp = s.lineUp :=
  foldl_keeps (·.lineUp) State.handed (fun _ _ => rfl) rs s
@[simp] theorem State.handedAll_bill : (s.handedAll rs).bill = s.bill :=
  foldl_keeps (·.bill) State.handed (fun _ _ => rfl) rs s
@[simp] theorem State.handedAll_lines : (s.handedAll rs).path.lines = s.path.lines :=
  foldl_keeps (·.path.lines) State.handed (fun _ _ => rfl) rs s

theorem State.runTasks_reports (b : Blk) (ts : List Task)
    (h : s.order.reports.length + rs.length ≤ Config.orderReportDepth) :
    State.runTasks b (rs.map Task.orderReport ++ ts) s = State.runTasks b ts (s.handedAll rs) := by
  induction rs generalizing s with
  | nil => rfl
  | cons r rs ih =>
    rw [List.length_cons] at h
    have hdo : s.doTask (.orderReport r) = (s.handed r, none) :=
      if_pos (show s.order.reports.length < Config.orderReportDepth by omega)
    rw [List.map_cons, List.cons_append, State.runTasks_go _ _ _ _ _ hdo]
    refine ih _ ?_
    rw [show (s.handed r).order.reports = s.order.reports ++ [r] from rfl, List.length_append, List.length_singleton]
    omega

theorem State.runTasks_bursts (b : Blk) (r : Requester) (bs : List Burst) (ts : List Task) :
    State.runTasks b (bs.map (Task.burst r) ++ ts) s = State.runTasks b ts (s.asks r bs) := by
  induction bs generalizing s with
  | nil => rfl
  | cons x bs ih => exact (State.runTasks_go _ _ _ _ _ rfl).trans (ih _)

end

/-! ### Step 3 of a switch (R39) -/

/-- The state at step 3: the staged copy and its bank are the active ones, and the old bank is EDITABLE. -/
def State.switched (s : State) (w : Switch) : State :=
  let l := { s.lineUp with
    copy := some w.staging, active := some w.bank, epoch := .none, switch := some { w with made := true },
    outgoing := some { outgoing := s.active, carried :=
      ((openEvents s.active).filter (carries s.active w.staging)).map fun k : SlotId => s.active.slots[k].event } }
  State.protect
    { s with lineUp := (l.setBank (Bank.other w.bank) .editable).setBank w.bank .active
             scan := { s.scan with sample := s.scan.sample.map fun x => { x with old := x.old || x.slot.isSome } } }
    (some w.bank) none

/-- What is left once the hand-offs and the bursts of a switch have been made: the switch report, and the switch's end. -/
def State.switchEnd (s : State) : List Task :=
  [.switchReportOut, .alarm .epochSwitched .info .none (word s.bill.boundary.number) none, .switchDone]

/-- The tasks of a switch from step 3 on. -/
def State.switchTasks (s : State) (w : Switch) : List Task :=
  switchReports s.active w.staging w.minute ++
    ([.notice (.epochReg w.minute s.bill.boundary.number), .burst .lineUp (.header (Bank.other w.bank)),
      .burst .lineUp (.header w.bank), .takeBuyers] ++ (allSlots.map Burst.word5).map (Task.burst .lineUp) ++ s.switchEnd)

section
variable {s : State} {w : Switch}

theorem State.madeSwitch_eq (h : s.lineUp.switch = some w) : s.madeSwitch = (s.switched w).push .lineUp (s.switchTasks w) := by
  unfold State.madeSwitch
  rw [h]
  simp only [State.switchTasks, List.map_map, ← List.append_assoc]
  rfl

theorem State.switchTasks_ofSwitch : ∀ t ∈ s.switchTasks w, t.OfSwitch := by
  intro t ht
  rw [State.switchTasks, switchReports_eq] at ht
  simp only [State.switchEnd, List.mem_append, List.mem_map, List.mem_cons, List.not_mem_nil, or_false] at ht
  rcases ht with ⟨r, -, rfl⟩ | (((rfl | rfl | rfl | rfl) | ⟨b, -, rfl⟩) | (rfl | rfl | rfl)) <;> constructor

@[simp] theorem State.switched_bankState : (s.switched w).lineUp.bankState[w.bank] = .active := LineUp.setBank_same ..

@[simp] theorem State.switched_oldState : (s.switched w).lineUp.bankState[Bank.other w.bank] = .editable :=
  (LineUp.setBank_ne _ _ _ (Bank.other_ne w.bank).symm).trans (LineUp.setBank_same ..)

/-- With no work in any block the other blocks have none at step 3. -/
theorem State.switched_work (hq : s.quiet) (b : Blk) : (s.switched w).workOf b = [] := by
  rw [← hq.1 b]
  cases b <;> rfl

/-- Where a switch stands once its reports have been handed, the registration has entered the Notice Queue, and the headers wait
to be written. -/
def State.switchHanded (s : State) (w : Switch) : State :=
  (((s.switched w).handedAll (switchReportList s.active w.staging w.minute)).noticed
    (.epochReg w.minute s.bill.boundary.number)).asks .lineUp [.header (Bank.other w.bank), .header w.bank]

/-- Where it stands once the buyers are counted, and word 5 of every slot waits to be written. -/
def State.switchOut (s : State) (w : Switch) : State :=
  (allSlots.foldl State.noteWord5 (s.switchHanded w).takeBuyers).asks .lineUp (allSlots.map .word5)

/-- With room in the queues the work of a switch goes on to its switch report. -/
theorem State.runTasks_switch (hq : s.bill.queue.length < Config.noticeDepth)
    (hr : s.order.reports.length + (switchReports s.active w.staging w.minute).length ≤ Config.orderReportDepth) :
    State.runTasks .lineUp (s.switchTasks w) (s.switched w) = (s.switchOut w).setWork .lineUp s.switchEnd := by
  rw [switchReports_eq, List.length_map] at hr
  have hnotice := State.doTask_notice (s := (s.switched w).handedAll (switchReportList s.active w.staging w.minute))
    (.epochReg w.minute s.bill.boundary.number) (by rw [State.handedAll_bill]; exact hq)
  rw [State.switchTasks, switchReports_eq, State.runTasks_reports (s.switched w) _ _ _ hr]
  simp only [List.cons_append, List.nil_append]
  rw [State.runTasks_go _ _ _ _ _ hnotice, State.runTasks_go _ _ _ _ _ rfl, State.runTasks_go _ _ _ _ _ rfl,
    State.runTasks_go _ _ _ _ _ (State.doTask_takeBuyers _), State.runTasks_bursts]
  exact State.runTasks_wait _ _ _ _ _ _ rfl

end

end Sys2Proof.Machine
end

section
/-! The steps of a switch and their bursts (O40). -/

open Sys2Proof

namespace Sys2Proof.Machine

/-! ### The staging copy, and the two bursts (R39) -/

section
variable {s : State}

/-- With the boundary answered and the bank read, the copy is staged and the two bursts are asked for. -/
theorem exec_epochSwitch {m : Nat} {a : Bank} (hask : s.lineUp.ask = .answered m) (hact : s.lineUp.active = some a)
    (hnone : s.lineUp.switch = none) (hread : s.hasRead .lineUp (s.bankReads (Bank.other a)) = true) :
    exec .epochSwitch s = .next (State.asks
      { s.tookRead .lineUp with lineUp := { s.lineUp with
          ask := .none
          switch := some (Switch.mk (Bank.other a) m ((s.view .lineUp).readCopy (Bank.other a) m) false) } }
      .lineUp [.prevRates, .switchAnchor]) := by
  have he : exec .epochSwitch s = .next (doEpochSwitch s) := rfl
  rw [he, doEpochSwitch, hask, hact]
  simp only [hnone, hread, Option.isNone_none, Bool.and_self, if_true, State.tookRead_lineUp]

/-- The oldest burst of the Line-up Unit is granted with the words as they stand. -/
theorem exec_memoryPortGrant_lineUp {b : Burst} {rest : List Burst} (hp : s.path.port = .free) (hc : s.path.cycle = none)
    (hr : s.nextRequester = some .lineUp) (ht : ∀ q, s.readTurn .lineUp ≠ some (0, q))
    (hl : s.path.line .lineUp = b :: rest) : ∃ t, exec .memoryPortGrant s = .next t ∧ t.path.line .lineUp = rest ∧
      t.path.port = .burst .lineUp b (s.burstWords b).1 (s.burstWords b).2 false := by
  refine ⟨s.grantBurst .lineUp b rest, ?_, (MemPath.line_setLine s.path .lineUp .lineUp rest).trans (if_pos rfl), rfl⟩
  have he : exec .memoryPortGrant s = .next s.grant := rfl
  rw [he, State.grant, if_pos hp, hc, hr]
  exact congrArg _ (State.grantPart_burst s .lineUp b rest hl ht)

/-- The anchor words of the switch in progress (R39.3, R148). -/
theorem State.switchWords_eq {w : Switch} (h : s.lineUp.switch = some w) :
    s.switchWords = [word w.bank.val, word s.bill.boundary.number, word w.minute] := by
  rw [State.switchWords, h]

end

/-! ### The end of the anchor burst (R39.3) -/

section
variable {s : State} {w : Switch} {n : Nat} {ws : List Word}

theorem State.endBurst_quiet (n : Nat) (ws : List Word) (hq : s.quiet) : (s.endBurst n ws).quiet :=
  State.quiet_congr hq rfl rfl rfl rfl rfl rfl rfl rfl

/-- The end of the anchor burst begins the work of the switch, and the blocks that wait go on. -/
theorem exec_burstComplete_switch (hq : s.quiet) (hw : s.lineUp.switch = some w)
    (hp : s.path.port = .burst .lineUp .switchAnchor n ws false) : exec .burstComplete s = .next
      (State.runTasks .lineUp ((s.endBurst n ws).switchTasks w) ((s.endBurst n ws).switched w)).settle := by
  have hend : (s.endBurst n ws).burstEnded .switchAnchor = (s.endBurst n ws).madeSwitch := rfl
  have hidle := State.switched_work (w := w) (State.endBurst_quiet n ws hq) .lineUp
  rw [show exec .burstComplete s = .next s.completeBurst from rfl, State.completeBurst_eq hp (fun _ _ h => nomatch h), hend,
    State.madeSwitch_eq (show (s.endBurst n ws).lineUp.switch = some w from hw), State.push_idle _ _ _ hidle]

/-- What the end of the anchor burst leaves, whatever the switch has to wait for (R39). -/
theorem burstComplete_switch_kept (hq : s.quiet) (hw : s.lineUp.switch = some w)
    (hp : s.path.port = .burst .lineUp .switchAnchor n ws false) :
    ∃ t, exec .burstComplete s = .next t ∧ ((s.endBurst n ws).switched w).SwitchKept t ∧ t.mem = memWriteWords s.mem n ws := by
  refine ⟨_, exec_burstComplete_switch hq hw hp, ?_, ?_⟩
  · obtain ⟨hkept, hwork⟩ := ((s.endBurst n ws).switched w).runTasks_ofSwitch _ State.switchTasks_ofSwitch
    exact State.settle_ofSwitch (fun b _ => State.switched_work (State.endBurst_quiet n ws hq) b) hkept hwork
  · rw [(State.settle_frame _).1, (State.runTasks_frame _ _ _).1]
    rfl

/-- With room for its hand-offs the switch comes to its switch report in this step (R39). -/
theorem exec_burstComplete_switchOut (hq : s.quiet) (hw : s.lineUp.switch = some w)
    (hp : s.path.port = .burst .lineUp .switchAnchor n ws false) (hn : s.bill.queue.length < Config.noticeDepth)
    (hr : s.order.reports.length + (switchReports s.active w.staging w.minute).length ≤ Config.orderReportDepth) :
    exec .burstComplete s = .next (((s.endBurst n ws).switchOut w).setWork .lineUp s.switchEnd) := by
  have hrun := State.runTasks_switch (s := s.endBurst n ws) (w := w) hn hr
  have hwaits : ∀ b, (State.runTasks .lineUp ((s.endBurst n ws).switchTasks w) ((s.endBurst n ws).switched w)).mayGoOn b =
      false := by
    intro b
    by_cases hb : b = .lineUp
    · rw [hb, hrun]
      rfl
    · obtain ⟨hkept, -⟩ := ((s.endBurst n ws).switched w).runTasks_ofSwitch ((s.endBurst n ws).switchTasks w)
        State.switchTasks_ofSwitch
      simp [State.mayGoOn, hkept.work b hb, State.switched_work (State.endBurst_quiet n ws hq) b]
  rw [exec_burstComplete_switch hq hw hp, State.settle_of_mayGoOn hwaits, hrun]
  rfl

end

/-! ### Where a switch stands with its hand-offs made (R39, R43) -/

section
variable (s : State) (w : Switch)

theorem State.switchHanded_order : (s.switchHanded w).order.index = s.order.index ∧
    (s.switchHanded w).order.reports = s.order.reports ++ switchReportList s.active w.staging w.minute := by
  have h : (s.switchHanded w).order = ((s.switched w).handedAll (switchReportList s.active w.staging w.minute)).order := by
    simp [State.switchHanded]
  rw [h, State.handedAll_index, State.handedAll_reports]
  exact ⟨rfl, rfl⟩

theorem State.switchHanded_active : (s.switchHanded w).active = w.staging := by
  have h : (s.switchHanded w).lineUp = (s.switched w).lineUp := by simp [State.switchHanded]
  rw [State.active_congr h]
  rfl

theorem State.switchHanded_line : (s.switchHanded w).path.line .lineUp =
    s.path.line .lineUp ++ [.header (Bank.other w.bank), .header w.bank] := by
  have hcarry : ∀ b ∈ [Burst.header (Bank.other w.bank), .header w.bank], b.carries = false := by
    simp only [List.mem_cons, List.not_mem_nil, or_false]
    rintro b (rfl | rfl) <;> rfl
  rw [State.switchHanded, State.asks_line_behind _ _ _ hcarry, State.noticed_line,
    MemPath.line_congr (State.handedAll_lines (s.switched w) _)]
  rfl

theorem State.switchOut_order : (s.switchOut w).order = (s.switchHanded w).order := by
  simp [State.switchOut]

theorem State.switchOut_queue :
    (s.switchOut w).bill.queue = s.bill.queue ++ [.epochReg w.minute s.bill.boundary.number] := by
  have h : (s.switchOut w).bill.queue = (s.switched w).bill.queue ++ [.epochReg w.minute s.bill.boundary.number] := by
    simp [State.switchOut, State.switchHanded]
  exact h

theorem word5s_carries : ∀ b ∈ allSlots.map Burst.word5, b.carries = false := by
  intro b hb
  obtain ⟨k, -, rfl⟩ := List.mem_map.1 hb
  rfl

theorem State.switchOut_line : (s.switchOut w).path.line .lineUp =
    s.path.line .lineUp ++ [.header (Bank.other w.bank), .header w.bank] ++ allSlots.map Burst.word5 := by
  rw [State.switchOut, State.asks_line_behind _ _ _ word5s_carries, State.noteWord5s_path, State.takeBuyers_path,
    State.switchHanded_line]

theorem State.switchOut_buyers (k : SlotId) : (s.switchOut w).lineUp.buyers[k] =
    if w.staging.slots[k].isEvent then (s.order.index.filter fun x => x.event == w.staging.slots[k].event).length else 0 := by
  have h : (s.switchOut w).lineUp.buyers[k] = (s.switchHanded w).buyerCount k := by
    rw [State.switchOut, State.asks_lineUp, State.noteWord5s_buyers, State.takeBuyers_lineUp]
    exact Vector.getElem_ofFn _
  rw [h, State.buyerCount, State.switchHanded_active, (s.switchHanded_order w).1]

theorem State.switchOut_outgoing : (s.switchOut w).lineUp.outgoing = some (SwitchReport.mk s.active
    (((openEvents s.active).filter (carries s.active w.staging)).map fun k : SlotId => s.active.slots[k].event)) := by
  have h : (s.switchOut w).lineUp.outgoing = (s.switched w).lineUp.outgoing := by
    simp [State.switchOut, State.switchHanded]
  exact h

end

/-- Settles O40: the steps of a switch one after another, and the reports of the events it carries and drops. -/
theorem switches : Obligations.Switches := by
  refine ⟨⟨fun s m a hask hact hnone hread => ?_, fun s w rest hp hc hr hw ht => ⟨fun hl => ?_, fun hl => ?_⟩,
    fun s w n ws hq hw hp => ?_⟩, fun s w n ws hq hw hp hn hr => ?_, fun old new minute k hke hst => ?_,
    fun old new minute => ?_⟩
  · have hcarry : ∀ b ∈ [Burst.prevRates, .switchAnchor], b.carries = false := by decide
    refine ⟨_, exec_epochSwitch hask hact hnone hread, ?_⟩
    rw [State.asks_lineUp, State.asks_line_behind _ _ _ hcarry]
    refine ⟨rfl, rfl, hact, rfl, ?_, ?_, ?_, fun x => ?_⟩
    · exact congrArg (· ++ _) (s.tookRead_line .lineUp .lineUp)
    all_goals simp
  · exact exec_memoryPortGrant_lineUp hp hc hr ht hl
  · obtain ⟨t, hexec, hline, hport⟩ := exec_memoryPortGrant_lineUp hp hc hr ht hl
    exact ⟨t, hexec, hline, hport.trans (congrArg (PortUse.burst _ _ _ · _) (State.switchWords_eq hw))⟩
  · obtain ⟨t, hexec, hkept, hmem⟩ := burstComplete_switch_kept hq hw hp
    refine ⟨t, hexec, hkept.copy, hkept.active, hkept.epoch, ?_, ?_, hkept.protActive, hkept.protSealed, hmem⟩ <;>
      rw [hkept.bankState]
    · exact State.switched_bankState
    · exact State.switched_oldState
  · obtain ⟨hindex, hreports⟩ := (s.endBurst n ws).switchHanded_order w
    have hline := (s.endBurst n ws).switchOut_line w
    have hheader : ∀ b ∈ [Burst.header (Bank.other w.bank), .header w.bank],
        b ∈ ((s.endBurst n ws).switchOut w).path.line .lineUp := fun b hb => by
      rw [hline]
      exact List.mem_append_left _ (List.mem_append_right _ hb)
    have hnew : Burst.header w.bank ∈ ((s.endBurst n ws).switchOut w).path.line .lineUp :=
      hheader _ (.tail _ (.head _))
    have hold : Burst.header (Bank.other w.bank) ∈ ((s.endBurst n ws).switchOut w).path.line .lineUp :=
      hheader _ (.head _)
    refine ⟨_, exec_burstComplete_switchOut hq hw hp hn hr, ?_⟩
    obtain ⟨horder, hbill, hpath, hbuyers, houtgoing, hwork⟩ :=
      ((s.endBurst n ws).switchOut w).setWork_lineUp_keeps s.switchEnd
    rw [horder, hbill, hpath, hbuyers, houtgoing, hwork, State.switchOut_order, hindex, hreports]
    refine ⟨?_, rfl, (s.endBurst n ws).switchOut_queue w, hnew, hold, fun k => ⟨?_, (s.endBurst n ws).switchOut_buyers w k⟩,
      (s.endBurst n ws).switchOut_outgoing w, rfl⟩
    · rw [switchReports_eq, ← List.map_append]
      rfl
    · exact hline ▸ List.mem_append_right _ (List.mem_map_of_mem (List.mem_finRange k))
  · have hk := (mem_openEvents old k).2 ⟨hke, hst⟩
    refine ⟨carries_of_none old new, fun j hj => carries_of_some old new hj, drop_mem_switchReports hk,
      fun j r hc he hid hu hr => change_mem_switchReports (j := j) ?_⟩
    rw [carriedReport, carriedInto_of_unique hk hc he hid hu, Option.bind_some, hid]
    exact hr
  · refine ⟨droppedEvents old new, carriedReports old new minute, ?_, droppedEvents_pairwise old new,
      carriedReports_pairwise old new minute, fun k => (mem_droppedEvents old new k).1,
      fun c hc => carriedReport_spec (mem_carriedReports.1 hc)⟩
    rw [switchReports_eq, switchReportList, List.map_append, List.map_map, List.map_map]
    rfl

end Sys2Proof.Machine
end

section
/-! The start-up of the Line-up Unit and of the scanner (R46, R128, R183). -/

open Sys2Proof

namespace Sys2Proof.Machine

/-! ### Bursts that wait (R176) -/

/-- What waits on a line waits there still when more is asked for. -/
theorem State.mem_asks_of_mem {s : State} {r q : Requester} {b : Burst} (bs : List Burst) (h : b ∈ s.path.line q) :
    b ∈ (s.asks r bs).path.line q := by
  induction bs generalizing s with
  | nil => exact h
  | cons c bs ih =>
    refine ih (s := s.ask r c) ?_
    rw [State.ask_line]
    split
    · exact List.mem_append_left _ h
    · exact h

/-- Each of several bursts asked for waits on the line. -/
theorem State.mem_asks_line {s : State} {r : Requester} {b : Burst} {bs : List Burst} (h : b ∈ bs) :
    b ∈ (s.asks r bs).path.line r := by
  induction bs generalizing s with
  | nil => exact absurd h (by simp)
  | cons c bs ih =>
    rcases List.mem_cons.1 h with rfl | h
    · exact State.mem_asks_of_mem (s := s.ask r b) bs (s.mem_ask_line r b)
    · exact ih (s := s.ask r c) h

/-! ### The banks (R46) -/

section
variable {s : State} {b : Bank}

/-- The active bank is ACTIVE and alone protected, and its header waits to be written. -/
def State.activeShown (s : State) (b : Bank) : State :=
  (State.protect { s with lineUp := s.lineUp.setBank b .active, run := { s.run with phase := .lineupWait } } (some b) none).ask
    .lineUp (.header b)

theorem exec_lineupStartup (hp : s.run.phase = .lineup) (hw : s.order.work = []) (ha : s.lineUp.active = some b) :
    exec .lineupStartup s = .next ((allSlots.foldl State.noteWord5 (s.activeShown b).takeBuyers).asks .lineUp
      (allSlots.map .word5 ++ [.readPending (Bank.other b)])) := by
  have he : exec .lineupStartup s = .next (doLineupStartup s) := rfl
  rw [he, doLineupStartup, if_pos ⟨hp, hw⟩, ha]
  rfl

/-- What the start of the Line-up Unit leaves: its line, the bank states and results, and the protected set. -/
theorem lineupStartup_leaves (hp : s.run.phase = .lineup) (hw : s.order.work = []) (ha : s.lineUp.active = some b) :
    ∃ t, exec .lineupStartup s = .next t ∧ t.lineUp.bankState = (s.lineUp.setBank b .active).bankState ∧
      t.lineUp.results = s.lineUp.results ∧ t.path.protActive = some b ∧ t.path.protSealed = none ∧
      t.run.phase = .lineupWait ∧ t.mem = s.mem ∧
      t.path.line .lineUp =
        s.path.line .lineUp ++ [.header b] ++ (allSlots.map Burst.word5 ++ [.readPending (Bank.other b)]) := by
  have hcarry : ∀ c ∈ allSlots.map Burst.word5 ++ [.readPending (Bank.other b)], c.carries = false := by
    intro c hc
    rcases List.mem_append.1 hc with hc | hc
    · exact word5s_carries c hc
    · rw [List.mem_singleton.1 hc]
      rfl
  have hline : (s.activeShown b).path.line .lineUp = s.path.line .lineUp ++ [.header b] := State.ask_line_behind _ _ _ rfl
  refine ⟨_, exec_lineupStartup hp hw ha, ?_, ?_, ?_, ?_, ?_, ?_, ?_⟩
  case refine_7 =>
    rw [State.asks_line_behind _ _ _ hcarry, State.noteWord5s_path, State.takeBuyers_path, hline]
  all_goals simp [State.activeShown, LineUp.setBank]

/-- The Line-up Unit with the result field of the pending bank's header as read. -/
def State.keptResult (s : State) (p : Bank) : LineUp :=
  { s.lineUp with results := s.lineUp.results.set p (s.headerResult p) }

/-- The outcome of a pending bank that is not validated again: its header waits to be written, and the start goes on. -/
def State.pendingShown (s : State) (p : Bank) (l : LineUp) : State :=
  let s1 := State.ask { s with lineUp := l } .lineUp (.header p)
  { s1 with run := { s1.run with phase := .states false false } }

/-- The state word of the pending bank as its header reads (R46). -/
def State.pendingCode (s : State) (p : Bank) : Nat := bits (wordAt (s.bankPart p 0) 2) 0 4

/-- The validation of a pending bank that read SEALED, from its first part (R46). -/
def Validation.again (p : Bank) : Validation :=
  { bank := p, part := 0, edited := false, minute := 0, plan := Vector.replicate 8 BandPlan.closed, slots := [],
    startup := true }

section
variable (s : State) (p : Bank)

theorem State.startPending_sealed (h : s.pendingCode p = 4) :
    s.startPending p = State.readPart { s with lineUp := (s.keptResult p).setBank p .validating } (.again p) := if_pos h

theorem State.startPending_validating (h : s.pendingCode p = 3) :
    s.startPending p = s.pendingShown p (((s.keptResult p).setBank p .editable).setResult p .aborted none) :=
  (if_neg (by rw [show bits _ _ _ = 3 from h]; decide)).trans (if_pos h)

theorem State.startPending_other (h3 : s.pendingCode p ≠ 3) (h4 : s.pendingCode p ≠ 4) :
    s.startPending p = s.pendingShown p ((s.keptResult p).setBank p .editable) :=
  (if_neg h4).trans (if_neg h3)

end

theorem State.pendingShown_quiet {l : LineUp} (p : Bank) (hq : s.quiet) (hl : l.work = s.lineUp.work) :
    (s.pendingShown p l).quiet := by
  apply State.quiet_congr hq <;> simp [State.pendingShown, hl]

theorem State.startPending_quiet (p : Bank) (hq : s.quiet) : (s.startPending p).quiet := by
  by_cases h4 : s.pendingCode p = 4
  · rw [State.startPending_sealed _ _ h4]
    exact State.readPart_quiet (State.quiet_congr hq rfl rfl rfl rfl rfl rfl rfl rfl)
  · by_cases h3 : s.pendingCode p = 3
    · rw [State.startPending_validating _ _ h3]
      exact State.pendingShown_quiet p hq rfl
    · rw [State.startPending_other _ _ h3 h4]
      exact State.pendingShown_quiet p hq rfl

/-- What showing the pending bank leaves, with its header waiting to be written. -/
theorem State.pendingShown_spec (s : State) (p : Bank) (l : LineUp) : (s.pendingShown p l).lineUp = l ∧
    Burst.header p ∈ (s.pendingShown p l).path.line .lineUp ∧ (s.pendingShown p l).run.phase = .states false false ∧
    (s.pendingShown p l).path.port = s.path.port ∧ (s.pendingShown p l).path.protActive = s.path.protActive ∧
    (s.pendingShown p l).path.protSealed = s.path.protSealed :=
  ⟨State.ask_lineUp .., State.mem_ask_line _ .lineUp (.header p), rfl, State.ask_port .., State.ask_protActive ..,
    State.ask_protSealed ..⟩

/-- The end of the read of the pending bank's header shows the bank by the state word read. -/
theorem exec_burstComplete_pending {p : Bank} {a : Nat} (hq : s.quiet) (hph : s.run.phase = .lineupWait)
    (hp : s.path.port = .burst .lineUp (.readPending p) a [] false) :
    exec .burstComplete s = .next ((s.endBurst a []).startPending p) := by
  have hend : (s.endBurst a []).burstEnded (.readPending p) = (s.endBurst a []).startPending p :=
    if_pos (show (s.endBurst a []).run.phase = .lineupWait from hph)
  have hquiet := State.startPending_quiet p (State.endBurst_quiet a [] hq)
  rw [show exec .burstComplete s = .next s.completeBurst from rfl,
    State.completeBurst_quiet hp (fun _ _ h => nomatch h) (by rw [hend]; exact hquiet), hend]

/-- What is kept of the other bank, of the protected set and of memory, whatever the pending bank's state. -/
theorem State.startPending_keeps (s : State) (p : Bank) : (s.startPending p).path.port = s.path.port ∧
    (s.startPending p).lineUp.bankState[Bank.other p] = s.lineUp.bankState[Bank.other p] ∧
    (s.startPending p).path.protActive = s.path.protActive ∧ (s.startPending p).path.protSealed = s.path.protSealed := by
  have hbank : ∀ st, ((s.keptResult p).setBank p st).bankState[Bank.other p] = s.lineUp.bankState[Bank.other p] := fun st =>
    LineUp.setBank_ne _ _ _ (Bank.other_ne p).symm
  by_cases h4 : s.pendingCode p = 4
  · rw [State.startPending_sealed _ _ h4, (State.readPart_spec _ _).1]
    exact ⟨State.readPart_port .., hbank _, State.readPart_protActive .., State.readPart_protSealed ..⟩
  · by_cases h3 : s.pendingCode p = 3
    · rw [State.startPending_validating _ _ h3]
      obtain ⟨hl, -, -, hport, hact, hsealed⟩ :=
        s.pendingShown_spec p (((s.keptResult p).setBank p .editable).setResult p .aborted none)
      exact ⟨hport, by rw [hl]; exact hbank _, hact, hsealed⟩
    · rw [State.startPending_other _ _ h3 h4]
      obtain ⟨hl, -, -, hport, hact, hsealed⟩ := s.pendingShown_spec p ((s.keptResult p).setBank p .editable)
      exact ⟨hport, by rw [hl]; exact hbank _, hact, hsealed⟩

theorem State.keptResult_results (s : State) (p : Bank) : (s.keptResult p).results[p] = s.headerResult p :=
  Vector.getElem_set_self ..

end

/-! ### The scanner (R128) -/

/-- The scanner as it starts: the configuration's mode and interval, and every record cleared but for the counts. -/
def State.scannerShown (s : State) (co : Bool) : State :=
  { s with
    scan := { s.scan with
      mode := s.cfg.scanMode, interval := s.cfg.scanInterval, scanning := false, late := false, carrier := none,
      seqCount := 0, startMin := 0, endMin := 0, entries := Vector.replicate 8 TeleEntry.cleared,
      slots := Vector.ofFn fun k => { TeleSlot.cleared with loss := s.scan.slots[k].loss }, retained := [] }
    run := { s.run with phase := StartPhase.afterStates true co } }

/-- Every record that the scanner keeps in memory. -/
def scannerBursts : List Burst :=
  [.teleHeader] ++ (List.finRange 8).map .teleEntry ++ allSlots.map .teleSlot ++ allSlots.map .carrier

theorem exec_scannerStartup {s : State} {co : Bool} (hp : s.run.phase = .states false co) :
    exec .scannerStartup s = .next ((s.scannerShown co).asks .scanner scannerBursts) := by
  have he : exec .scannerStartup s = .next (doScannerStartup s) := rfl
  rw [he, doScannerStartup, hp]
  rfl

theorem StartPhase.afterStates_scanner (co : Bool) :
    StartPhase.afterStates true co = if co then .recon 0 else .states true false := by
  cases co <;> rfl

theorem StartPhase.afterStates_correlator (sc : Bool) :
    StartPhase.afterStates sc true = if sc then .recon 0 else .states false true := by
  cases sc <;> rfl

theorem mem_scannerBursts : Burst.teleHeader ∈ scannerBursts ∧ (∀ i : ScanId, Burst.teleEntry i ∈ scannerBursts) ∧
    (∀ k : SlotId, Burst.teleSlot k ∈ scannerBursts) ∧ ∀ k : SlotId, Burst.carrier k ∈ scannerBursts := by
  have hslot : ∀ (c : SlotId → Burst) (k : SlotId), c k ∈ allSlots.map c := fun c k =>
    List.mem_map_of_mem (List.mem_finRange k)
  unfold scannerBursts
  simp only [List.mem_append]
  exact ⟨.inl (.inl (.inl List.mem_cons_self)),
    fun i => .inl (.inl (.inr (List.mem_map_of_mem (List.mem_finRange i)))), fun k => .inl (.inr (hslot _ k)),
    fun k => .inr (hslot _ k)⟩

end Sys2Proof.Machine
end

section
/-! The runs of a feeder's row (R96): the stretches of LOST taps that no other tap divides. -/

open Sys2Proof

namespace Sys2Proof.Machine

/-! ### First and last positions of a row -/

theorem Row.firstPos_mem {r : Row} (h : r ≠ []) : ∃ x ∈ r, Row.firstPos r = x.1 := by
  cases r with
  | nil => exact absurd rfl h
  | cons x r => exact ⟨x, List.mem_cons_self, rfl⟩

theorem Row.lastPos_mem {r : Row} (h : r ≠ []) : ∃ x ∈ r, Row.lastPos r = x.1 :=
  ⟨r.getLast h, List.getLast_mem h, by rw [Row.lastPos, List.getLast?_eq_some_getLast h]; rfl⟩

/-- A row by rising positions starts at its first. -/
theorem Row.firstPos_le {r : Row} (h : r.Pairwise fun x y => x.1 < y.1) {x : Nat × EntryId} (hx : x ∈ r) :
    Row.firstPos r ≤ x.1 := by
  cases r with
  | nil => exact absurd hx (by simp)
  | cons y r =>
    rcases List.mem_cons.1 hx with rfl | hx
    · exact Nat.le_refl _
    · exact Nat.le_of_lt ((List.pairwise_cons.1 h).1 x hx)

/-! ### The division of a row, from its far end (R96) -/

/-- The stretch being gathered closed, with those gathered before. -/
def closedRuns (a : Row × List Row) : List Row := if a.1.isEmpty then a.2 else a.1 :: a.2

theorem mem_closedRuns {a : Row × List Row} {r : Row} : r ∈ closedRuns a ↔ (r = a.1 ∧ a.1 ≠ []) ∨ r ∈ a.2 := by
  unfold closedRuns
  split
  · next h => simp [List.isEmpty_iff.1 h]
  · next h =>
    have hne : a.1 ≠ [] := fun he => h (by rw [he]; rfl)
    simp [hne]

theorem State.runs_eq (s : State) (f : Feeder) : s.runs f = closedRuns ((s.row f).foldr s.runStep ([], [])) := rfl

/-- What the division of a row `l` has gathered: the LOST taps it begins with, and the runs behind them, each apart from what
comes before it by a tap that is not LOST. -/
structure State.Divided (s : State) (l : Row) (a : Row × List Row) : Prop where
  front : a.1 <+: l
  frontLost : ∀ x ∈ a.1, (s.entry x.2).state = .lost
  run : ∀ r ∈ a.2, r ≠ [] ∧ r <:+: l ∧ ∀ x ∈ r, (s.entry x.2).state = .lost
  all : ∀ x ∈ l, (s.entry x.2).state = .lost → x ∈ a.1 ∨ ∃ r ∈ a.2, x ∈ r
  behind : ∀ r ∈ a.2, ∃ x ∈ l, (s.entry x.2).state ≠ .lost ∧ (∀ y ∈ a.1, y.1 < x.1) ∧ x.1 < Row.firstPos r
  apart : a.2.Pairwise fun r q => ∃ x ∈ l, (s.entry x.2).state ≠ .lost ∧ Row.lastPos r < x.1 ∧ x.1 < Row.firstPos q

section
variable {s : State} {x : Nat × EntryId} {l : Row} {a : Row × List Row}

theorem State.Divided.nil (s : State) : s.Divided [] ([], []) :=
  ⟨List.prefix_refl _, by simp, by simp, by simp, by simp, .nil⟩

/-- A LOST tap lengthens the stretch being gathered. -/
theorem State.Divided.lost (h : s.Divided l a) (hx : (s.entry x.2).state = .lost) (hlt : ∀ y ∈ l, x.1 < y.1) :
    s.Divided (x :: l) (x :: a.1, a.2) where
  front := List.cons_prefix_cons.2 ⟨rfl, h.front⟩
  frontLost := List.forall_mem_cons.2 ⟨hx, h.frontLost⟩
  run r hr := by
    obtain ⟨hne, hin, hlost⟩ := h.run r hr
    exact ⟨hne, hin.trans (List.suffix_cons x l).isInfix, hlost⟩
  all y hy hl := by
    rcases List.mem_cons.1 hy with rfl | hy
    · exact .inl List.mem_cons_self
    · exact (h.all y hy hl).imp_left (List.mem_cons_of_mem x)
  behind r hr := by
    obtain ⟨y, hy, hst, hfront, hfirst⟩ := h.behind r hr
    exact ⟨y, List.mem_cons_of_mem x hy, hst, List.forall_mem_cons.2 ⟨hlt y hy, hfront⟩, hfirst⟩
  apart := h.apart.imp fun ⟨y, hy, hsep⟩ => ⟨y, List.mem_cons_of_mem x hy, hsep⟩

/-- The runs gathered with the stretch closed. -/
theorem State.Divided.closed_run (h : s.Divided l a) {r : Row} (hr : r ∈ closedRuns a) :
    r ≠ [] ∧ r <:+: l ∧ ∀ x ∈ r, (s.entry x.2).state = .lost := by
  rcases mem_closedRuns.1 hr with ⟨rfl, hne⟩ | hr
  · exact ⟨hne, h.front.isInfix, h.frontLost⟩
  · exact h.run r hr

theorem State.Divided.closed_all (h : s.Divided l a) (hx : x ∈ l) (hl : (s.entry x.2).state = .lost) :
    ∃ r ∈ closedRuns a, x ∈ r := by
  rcases h.all x hx hl with hx | ⟨r, hr, hx⟩
  · exact ⟨a.1, mem_closedRuns.2 (.inl ⟨rfl, List.ne_nil_of_mem hx⟩), hx⟩
  · exact ⟨r, mem_closedRuns.2 (.inr hr), hx⟩

theorem State.Divided.closed_apart (h : s.Divided l a) : (closedRuns a).Pairwise fun r q =>
    ∃ x ∈ l, (s.entry x.2).state ≠ .lost ∧ Row.lastPos r < x.1 ∧ x.1 < Row.firstPos q := by
  unfold closedRuns
  split
  · exact h.apart
  · next hne =>
    refine List.pairwise_cons.2 ⟨fun q hq => ?_, h.apart⟩
    obtain ⟨x, hx, hst, hfront, hfirst⟩ := h.behind q hq
    obtain ⟨y, hy, hlast⟩ := Row.lastPos_mem (r := a.1) fun he => hne (by rw [he]; rfl)
    exact ⟨x, hx, hst, hlast ▸ hfront y hy, hfirst⟩

/-- A tap that is not LOST closes the stretch, and divides it from what comes before. -/
theorem State.Divided.present (h : s.Divided l a) (hx : (s.entry x.2).state ≠ .lost) (hlt : ∀ y ∈ l, x.1 < y.1) :
    s.Divided (x :: l) ([], closedRuns a) where
  front := List.nil_prefix
  frontLost := by simp
  run r hr := by
    obtain ⟨hne, hin, hlost⟩ := h.closed_run hr
    exact ⟨hne, hin.trans (List.suffix_cons x l).isInfix, hlost⟩
  all y hy hl := by
    rcases List.mem_cons.1 hy with rfl | hy
    · exact absurd hl hx
    · exact .inr (h.closed_all hy hl)
  behind r hr := by
    obtain ⟨hne, hin, -⟩ := h.closed_run hr
    obtain ⟨y, hy, hfirst⟩ := Row.firstPos_mem hne
    exact ⟨x, List.mem_cons_self, hx, by simp, hfirst ▸ hlt y (hin.subset hy)⟩
  apart := h.closed_apart.imp fun ⟨y, hy, hsep⟩ => ⟨y, List.mem_cons_of_mem x hy, hsep⟩

end

/-- The division of a row by rising positions. -/
theorem State.divided (s : State) (l : Row) (h : l.Pairwise fun x y => x.1 < y.1) : s.Divided l (l.foldr s.runStep ([], [])) := by
  induction l with
  | nil => exact .nil s
  | cons x l ih =>
    obtain ⟨hlt, hl⟩ := List.pairwise_cons.1 h
    rw [List.foldr_cons, State.runStep]
    split
    · next hx => exact (ih hl).lost hx hlt
    · next hx => exact (ih hl).present hx hlt

section
variable {s : State} {f : Feeder}

/-- No run is empty. -/
theorem State.runs_ne_nil (h : (s.row f).Pairwise fun x y => x.1 < y.1) {r : Row} (hr : r ∈ s.runs f) : r ≠ [] :=
  ((s.divided _ h).closed_run hr).1

/-- The runs of a feeder whose positions rise lie one behind the other. -/
theorem State.runs_behind (h : (s.row f).Pairwise fun x y => x.1 < y.1) :
    (s.runs f).Pairwise fun r q => ∀ x ∈ q, Row.lastPos r < x.1 := by
  refine (s.divided _ h).closed_apart.imp_of_mem fun _ hq ⟨y, _, _, hlast, hfirst⟩ x hx => ?_
  obtain ⟨-, hin, -⟩ := (s.divided _ h).closed_run hq
  exact (hlast.trans hfirst).trans_le (Row.firstPos_le (h.sublist hin.sublist) hx)

end

end Sys2Proof.Machine
end

section
/-! The Outage List as it is rebuilt at start-up (R97, R99, R106). -/

open Sys2Proof

namespace Sys2Proof.Machine

/-! ### The start minute of an outage (R99) -/

/-- The earliest silence of a run, `minute` for an empty one. -/
def State.startOf (s : State) (minute : Nat) : Row → Nat
  | [] => minute
  | x :: r => s.earliest r (s.entry x.2).silentSince

theorem State.earliest_spec (s : State) (r : Row) (m : Nat) :
    s.earliest r m ≤ m ∧ (∀ x ∈ r, s.earliest r m ≤ (s.entry x.2).silentSince) ∧
      (s.earliest r m = m ∨ ∃ x ∈ r, s.earliest r m = (s.entry x.2).silentSince) := by
  induction r generalizing m with
  | nil => exact ⟨Nat.le_refl m, by simp, .inl rfl⟩
  | cons x r ih =>
    obtain ⟨hle, hall, heq⟩ := ih (min m (s.entry x.2).silentSince)
    have he : s.earliest (x :: r) m = s.earliest r (min m (s.entry x.2).silentSince) := rfl
    rw [he]
    refine ⟨hle.trans (Nat.min_le_left ..), List.forall_mem_cons.2 ⟨hle.trans (Nat.min_le_right ..), hall⟩, ?_⟩
    rcases heq with heq | ⟨y, hy, heq⟩
    · rcases Nat.le_total m (s.entry x.2).silentSince with hm | hm
      · exact .inl (heq.trans (Nat.min_eq_left hm))
      · exact .inr ⟨x, List.mem_cons_self, heq.trans (Nat.min_eq_right hm)⟩
    · exact .inr ⟨y, List.mem_cons_of_mem x hy, heq⟩

/-- The earliest silence of a run's taps: none of them fell silent before, and one of them then. -/
theorem State.startOf_spec (s : State) (minute : Nat) {r : Row} (h : r ≠ []) :
    (∀ x ∈ r, s.startOf minute r ≤ (s.entry x.2).silentSince) ∧ ∃ x ∈ r, s.startOf minute r = (s.entry x.2).silentSince := by
  cases r with
  | nil => exact absurd rfl h
  | cons x r =>
    obtain ⟨hle, hall, heq⟩ := s.earliest_spec r (s.entry x.2).silentSince
    refine ⟨List.forall_mem_cons.2 ⟨hle, hall⟩, ?_⟩
    rcases heq with heq | ⟨y, hy, heq⟩
    · exact ⟨x, List.mem_cons_self, heq⟩
    · exact ⟨y, List.mem_cons_of_mem x hy, heq⟩

/-! ### Log entries alone (R98) -/

/-- The hand-offs of the rebuild that go to the log are alarms. -/
def CorrWork.Logs (w : CorrWork) : Prop := ∀ t ∈ w.alarms, ∃ kind sev subject value stamp, t = .alarm kind sev subject value stamp

section
variable {w : CorrWork}

theorem CorrWork.Logs.logs (h : w.Logs) (kind : AlarmKind) (sev : Severity) (subject : Subject) (value : Word) :
    (w.logs [.alarm kind sev subject value none]).Logs := by
  intro t ht
  rcases List.mem_append.1 ht with ht | ht
  · exact h t ht
  · exact ⟨_, _, _, _, _, List.mem_singleton.1 ht⟩

theorem CorrWork.Logs.congr {v : CorrWork} (h : w.Logs) (hv : v.alarms = w.alarms) : v.Logs := fun t ht => h t (hv ▸ ht)

theorem CorrWork.Logs.noteFull (h : w.Logs) (f : Feeder) (run : Row) : (w.noteFull f run).Logs := by
  unfold CorrWork.noteFull
  split
  · exact h
  · exact (h.logs _ _ _ _).congr rfl

theorem State.grow_logs (s : State) (h : w.Logs) (f : Feeder) (run : Row) (keep : Outage) (others : List Outage) :
    (s.grow w f run keep others).Logs := by
  unfold State.grow
  refine CorrWork.Logs.congr (w := others.foldl _ _) ?_ rfl
  have hfold : ∀ (os : List Outage) (v : CorrWork), v.Logs → (os.foldl (fun w o =>
      (w.remove o.id).logs [.alarm .outageMerged .info (.outage o.id) (word keep.id) none]) v).Logs := by
    intro os
    induction os with
    | nil => exact fun v hv => hv
    | cons o os ih => exact fun v hv => ih _ (CorrWork.Logs.logs (hv.congr rfl) _ _ _ _)
  exact hfold others _ (h.congr rfl)

theorem State.declare_logs (s : State) (h : w.Logs) (f : Feeder) (run : Row) (minute : Nat) (begins : Bool) :
    (s.declare w f run minute begins).Logs := by
  unfold State.declare
  refine CorrWork.Logs.logs ?_ _ _ _ _
  split
  · exact h.congr rfl
  · exact h.congr rfl

/-- An examination logs alarms alone. -/
theorem State.examine_logs (s : State) (h : w.Logs) (minute : Nat) (begins : Bool) (f : Feeder) (run : Row) :
    (s.examine minute begins f w run).Logs := by
  unfold State.examine
  split
  · split
    · split
      · exact s.declare_logs h f run minute begins
      · exact h.noteFull f run
    · exact h
  · exact s.grow_logs h f run _ _

end

/-! ### The examinations of the rebuild in one list (R106) -/

/-- The runs of the enabled feeders, by feeder and first position. -/
def State.enabledRuns (s : State) : List (Feeder × Row) :=
  ((List.finRange 8).filter fun f => s.cfg.enable.getLsbD f.val).flatMap fun f => (s.runs f).map fun r => (f, r)

/-- Those of them that have the taps a declaration takes (R96). -/
def State.longRuns (s : State) : List (Feeder × Row) :=
  ((List.finRange 8).filter fun f => s.cfg.enable.getLsbD f.val).flatMap fun f =>
    ((s.runs f).filter fun r => decide (s.cfg.nmin ≤ r.length)).map fun r => (f, r)

theorem State.longRuns_eq (s : State) : s.longRuns = s.enabledRuns.filter fun x => decide (s.cfg.nmin ≤ x.2.length) := by
  simp only [State.longRuns, State.enabledRuns, List.filter_flatMap, List.filter_map, Function.comp_def]

/-- The examination of a run at start-up: at the RUN minute, and without begins. -/
def State.startExamine (s : State) (w : CorrWork) (x : Feeder × Row) : CorrWork := s.examine s.runMinute false x.1 w x.2

theorem State.rebuildList_eq (s : State) : s.rebuildList = s.enabledRuns.foldl s.startExamine s.corrWork := by
  unfold State.rebuildList State.enabledRuns
  generalize s.corrWork = w
  induction List.finRange 8 generalizing w with
  | nil => rfl
  | cons f fs ih =>
    rw [List.foldl_cons, ih, List.filter_cons]
    by_cases he : s.cfg.enable.getLsbD f.val = true
    · rw [if_pos he, if_pos he, List.flatMap_cons, List.foldl_append, List.foldl_map]
      rfl
    · rw [if_neg he, if_neg he]

theorem State.rebuildList_logs (s : State) : s.rebuildList.Logs := by
  rw [State.rebuildList_eq]
  have hstart : s.corrWork.Logs := fun t ht => absurd ht (by simp [State.corrWork])
  generalize s.corrWork = w at hstart
  induction s.enabledRuns generalizing w with
  | nil => exact hstart
  | cons x xs ih => exact ih _ (s.examine_logs hstart _ _ _ _)

/-! ### The records declared (R97, R99) -/

/-- The record that the `n`th qualifying run is declared with, counted from 0. -/
def State.outageOf (s : State) (n : Nat) (x : Feeder × Row) : Outage :=
  { id := n + 1, feeder := x.1, first := Row.firstPos x.2, last := Row.lastPos x.2, start := s.startOf s.runMinute x.2,
    declared := s.runMinute }

/-- The records of the first 16 of some runs. -/
def State.outagesOf (s : State) (runs : List (Feeder × Row)) : List Outage := (runs.take 16).mapIdx s.outageOf

theorem insertOutage_last {o : Outage} {os : List Outage} (h : ∀ x ∈ os, x.id < o.id) : insertOutage o os = os ++ [o] := by
  induction os with
  | nil => rfl
  | cons x os ih =>
    rw [insertOutage, if_neg (Nat.not_le.2 (h x List.mem_cons_self)), ih fun y hy => h y (List.mem_cons_of_mem x hy),
      List.cons_append]

theorem CorrWork.newId_fresh {w : CorrWork} (h : ∀ x ∈ w.outages, x.id < w.nextId) : w.newId = w.nextId := by
  have hfree : (w.outages.map (·.id)).contains w.nextId = false := by
    rw [Bool.eq_false_iff]
    intro hc
    obtain ⟨x, hx, hid⟩ := List.mem_map.1 (List.contains_iff_mem.1 hc)
    exact absurd (h x hx) (by omega)
  rw [CorrWork.newId, freeId, hfree]
  rfl

/-- A declaration without begins: the record, with the next id. -/
theorem State.declare_spec {s : State} {w : CorrWork} (f : Feeder) (run : Row) (minute : Nat)
    (h : ∀ x ∈ w.outages, x.id < w.nextId) (h16 : w.nextId ≠ 65535) :
    (s.declare w f run minute false).outages = w.outages ++
        [{ id := w.nextId, feeder := f, first := Row.firstPos run, last := Row.lastPos run, start := s.startOf minute run,
           declared := minute }] ∧
      (s.declare w f run minute false).nextId = w.nextId + 1 ∧ (s.declare w f run minute false).full = w.full := by
  obtain ⟨hid, hnext⟩ : w.newId = w.nextId ∧ ¬ w.newId = 65535 := by rw [CorrWork.newId_fresh h]; exact ⟨rfl, h16⟩
  have hlast := insertOutage_last (o := Outage.mk w.newId f (Row.firstPos run) (Row.lastPos run) (s.startOf minute run) minute)
    (os := w.outages) (by rw [hid]; exact h)
  have hnextId : (if w.newId = 65535 then 1 else w.newId + 1) = w.nextId + 1 := by rw [if_neg hnext, hid]
  cases run <;> exact ⟨hlast.trans (by rw [hid]), hnextId, rfl⟩

theorem CorrWork.noteFull_spec (w : CorrWork) (f : Feeder) (run : Row) : (w.noteFull f run).outages = w.outages ∧
    (w.noteFull f run).nextId = w.nextId ∧ (w.noteFull f run).full = true := by
  unfold CorrWork.noteFull
  split
  · next h => exact ⟨rfl, rfl, h⟩
  · exact ⟨rfl, rfl, rfl⟩

/-- What the rebuild has made of the runs it has examined that have the taps: a record for each of the first 16, and the list-full
flag where there was another. -/
structure State.Rebuilt (s : State) (runs : List (Feeder × Row)) (w : CorrWork) : Prop where
  outages : w.outages = s.outagesOf runs
  nextId : w.nextId = min 16 runs.length + 1
  full : w.full = true ↔ 16 < runs.length

theorem State.outagesOf_length (s : State) (runs : List (Feeder × Row)) : (s.outagesOf runs).length = min 16 runs.length := by
  rw [State.outagesOf, List.length_mapIdx, List.length_take]

theorem State.outagesOf_getElem? (s : State) (runs : List (Feeder × Row)) {n : Nat} (h : n < 16) :
    (s.outagesOf runs)[n]? = runs[n]?.map (s.outageOf n) := by
  rw [State.outagesOf, List.getElem?_mapIdx, List.getElem?_take_of_lt h]

theorem State.mem_outagesOf {s : State} {runs : List (Feeder × Row)} {o : Outage} (h : o ∈ s.outagesOf runs) :
    ∃ n, n < min 16 runs.length ∧ ∃ x ∈ runs, o = s.outageOf n x := by
  obtain ⟨n, hn, rfl⟩ := List.getElem_of_mem h
  rw [State.outagesOf_length] at hn
  refine ⟨n, hn, runs[n], List.getElem_mem _, ?_⟩
  simp [State.outagesOf]

theorem State.outagesOf_concat (s : State) {runs : List (Feeder × Row)} (x : Feeder × Row) (h : runs.length < 16) :
    s.outagesOf (runs ++ [x]) = s.outagesOf runs ++ [s.outageOf runs.length x] := by
  have hlen : (runs ++ [x]).length ≤ 16 := by
    rw [List.length_append, List.length_singleton]
    omega
  rw [State.outagesOf, State.outagesOf, List.take_of_length_le hlen, List.take_of_length_le (Nat.le_of_lt h), List.mapIdx_concat]

theorem State.outagesOf_full (s : State) {runs : List (Feeder × Row)} (x : Feeder × Row) (h : 16 ≤ runs.length) :
    s.outagesOf (runs ++ [x]) = s.outagesOf runs := by
  rw [State.outagesOf, State.outagesOf, List.take_append_of_le_length h]

section
variable {s : State} {runs : List (Feeder × Row)} {w : CorrWork} {x : Feeder × Row}

/-- A run apart from every run declared is covered by no outage. -/
theorem State.Rebuilt.uncovered (h : s.Rebuilt runs w)
    (hapart : ∀ y ∈ runs, y.1 = x.1 → ∀ z ∈ x.2, Row.lastPos y.2 < z.1) : w.covering x.1 x.2 = [] := by
  rw [CorrWork.covering, List.filter_eq_nil_iff]
  intro o ho hcov
  rw [h.outages] at ho
  obtain ⟨n, -, y, hy, rfl⟩ := State.mem_outagesOf ho
  obtain ⟨z, hz, hcov⟩ := List.any_eq_true.1 hcov
  simp only [Outage.covers, State.outageOf, Bool.and_eq_true, beq_iff_eq] at hcov
  obtain ⟨⟨hf, -⟩, hle⟩ := hcov
  exact absurd (hapart y hy hf z hz) (Nat.not_lt.2 (of_decide_eq_true hle))

/-- A run apart from those before it is declared while there is room, sets the list-full flag when there is none, and is left
alone with too few taps (R96, R99, R102). -/
theorem State.Rebuilt.examine (h : s.Rebuilt runs w) (hthr : s.threshold x.1 = s.cfg.nmin)
    (hapart : ∀ y ∈ runs, y.1 = x.1 → ∀ z ∈ x.2, Row.lastPos y.2 < z.1) :
    s.Rebuilt (if s.cfg.nmin ≤ x.2.length then runs ++ [x] else runs) (s.startExamine w x) := by
  have hlen : w.outages.length = min 16 runs.length := by rw [h.outages, State.outagesOf_length]
  rw [State.startExamine, State.examine, h.uncovered hapart]
  simp only [hthr]
  by_cases hq : s.cfg.nmin ≤ x.2.length
  · rw [if_pos hq, if_pos hq]
    by_cases hroom : w.outages.length < Config.outageDepth
    · have h16 : runs.length < 16 := by
        have : min 16 runs.length < 16 := hlen ▸ hroom
        omega
      have hfresh : ∀ o ∈ w.outages, o.id < w.nextId := by
        intro o ho
        rw [h.outages] at ho
        obtain ⟨n, hn, y, -, rfl⟩ := State.mem_outagesOf ho
        rw [h.nextId]
        exact Nat.succ_lt_succ hn
      have hmin : w.nextId = runs.length + 1 := by rw [h.nextId, Nat.min_eq_right (Nat.le_of_lt h16)]
      obtain ⟨hout, hnext, hfull⟩ := State.declare_spec (s := s) x.1 x.2 s.runMinute hfresh (by omega)
      rw [if_pos hroom]
      refine ⟨?_, ?_, ?_⟩
      · rw [hout, State.outagesOf_concat s x h16, h.outages, hmin]
        rfl
      · rw [hnext, hmin, List.length_append, List.length_singleton]
        omega
      · rw [hfull, h.full, List.length_append, List.length_singleton]
        omega
    · have h16 : 16 ≤ runs.length := by
        have : ¬ min 16 runs.length < 16 := hlen ▸ hroom
        omega
      obtain ⟨hout, hnext, hfull⟩ := w.noteFull_spec x.1 x.2
      rw [if_neg hroom]
      refine ⟨?_, ?_, ?_⟩
      · rw [hout, State.outagesOf_full s x h16, h.outages]
      · rw [hnext, h.nextId, List.length_append, List.length_singleton]
        omega
      · rw [hfull, List.length_append, List.length_singleton]
        simp only [true_iff]
        omega
  · rw [if_neg hq, if_neg hq]
    exact h

end

/-- The runs of the enabled feeders, those of one feeder one behind the other. -/
theorem State.enabledRuns_apart {s : State} (h : ∀ f : Feeder, (s.row f).Pairwise fun x y => x.1 < y.1) :
    s.enabledRuns.Pairwise fun y x => y.1 = x.1 → ∀ z ∈ x.2, Row.lastPos y.2 < z.1 := by
  rw [State.enabledRuns, List.pairwise_flatMap]
  constructor
  · intro f _
    rw [List.pairwise_map]
    refine (State.runs_behind (h f)).imp ?_
    intro r q hr _
    exact hr
  · refine ((List.pairwise_lt_finRange 8).filter _).imp fun hfg y hy x hx heq => ?_
    obtain ⟨_, -, rfl⟩ := List.mem_map.1 hy
    obtain ⟨_, -, rfl⟩ := List.mem_map.1 hx
    exact absurd heq (ne_of_lt hfg)

/-- The rebuild of an empty list, run by run. -/
theorem State.rebuilt_foldl {s : State} (hthr : ∀ f, s.threshold f = s.cfg.nmin) (todo done : List (Feeder × Row)) {w : CorrWork}
    (h : s.Rebuilt (done.filter fun x => decide (s.cfg.nmin ≤ x.2.length)) w)
    (hapart : (done ++ todo).Pairwise fun y x => y.1 = x.1 → ∀ z ∈ x.2, Row.lastPos y.2 < z.1) :
    s.Rebuilt ((done ++ todo).filter fun x => decide (s.cfg.nmin ≤ x.2.length)) (todo.foldl s.startExamine w) := by
  induction todo generalizing done w with
  | nil => rwa [List.append_nil]
  | cons x todo ih =>
    have hsplit : done ++ x :: todo = done ++ [x] ++ todo := by simp
    have hbefore := (List.pairwise_append.1 hapart).2.2
    have hx := h.examine (hthr x.1) fun y hy => hbefore y (List.mem_filter.1 hy).1 x List.mem_cons_self
    rw [hsplit] at hapart ⊢
    refine ih (done ++ [x]) ?_ hapart
    rw [List.filter_append, List.filter_singleton]
    by_cases hq : s.cfg.nmin ≤ x.2.length
    · simpa [hq] using hx
    · simpa [hq] using hx

/-- The list that the rebuild makes at start-up (R106). -/
theorem State.rebuildList_rebuilt {s : State} (hout : s.corr.outages = []) (hnext : s.corr.nextId = 1)
    (hfull : s.corr.listFull = false) (hlow : ∀ f : Feeder, s.corr.lowSupply[f] = 0)
    (hrow : ∀ f : Feeder, (s.row f).Pairwise fun x y => x.1 < y.1) : s.Rebuilt s.longRuns s.rebuildList := by
  have hthr : ∀ f, s.threshold f = s.cfg.nmin := fun f => by simp [State.threshold, hlow f]
  have hstart : s.Rebuilt [] s.corrWork := ⟨hout, hnext, by simp [State.corrWork, hfull]⟩
  rw [State.rebuildList_eq, State.longRuns_eq]
  exact State.rebuilt_foldl hthr s.enabledRuns [] hstart (State.enabledRuns_apart hrow)

end Sys2Proof.Machine
end

section
/-! The rebuild of the Outage List with its hand-offs, and the start-up as a whole (R46, R97, R106, R128, R183). -/

open Sys2Proof

namespace Sys2Proof.Machine

/-! ### The hand-offs of the rebuild (R98, R106) -/

/-- What the correlator hands on at start-up: a notice for the Billing Unit, or an entry for the log. -/
inductive Task.OfRebuild : Task → Prop where
  | notice (q : QEntry) : Task.OfRebuild (.notice q)
  | alarm (kind : AlarmKind) (sev : Severity) (subject : Subject) (value : Word) (stamp : Option Nat) :
      Task.OfRebuild (.alarm kind sev subject value stamp)

section
variable (s : State)

theorem State.tapNotices_ofRebuild (e : EntryId) (kind : NoticeKind) (minute : Nat) :
    ∀ t ∈ s.tapNotices e kind minute, t.OfRebuild := by
  intro t ht
  obtain ⟨p, -, hp⟩ := List.mem_filterMap.1 ht
  obtain ⟨sub, -, rfl⟩ := Option.map_eq_some_iff.1 hp
  exact .notice _

theorem State.rebuildWalk_ofRebuild (w : CorrWork) : ∀ t ∈ s.rebuildWalk w, t.OfRebuild := by
  intro t ht
  obtain ⟨e, -, ht⟩ := List.mem_flatMap.1 ht
  split at ht
  · exact s.tapNotices_ofRebuild _ _ _ t ht
  · split at ht
    · exact s.tapNotices_ofRebuild _ _ _ t ht
    · exact s.tapNotices_ofRebuild _ _ _ t ht

/-- A hand-off of the correlator leaves the correlator and the part state. -/
theorem State.doTask_ofRebuild {t : Task} (h : t.OfRebuild) :
    (s.doTask t).1.corr = s.corr ∧ (s.doTask t).1.run = s.run := by
  cases h with
  | notice q =>
    by_cases hroom : s.bill.queue.length < Config.noticeDepth
    · rw [State.doTask_notice q hroom]
      exact ⟨rfl, rfl⟩
    · rw [show s.doTask (.notice q) = (s, some (.notice q)) from if_neg hroom]
      exact ⟨rfl, rfl⟩
  | alarm kind sev subject value stamp =>
    rw [show s.doTask (.alarm kind sev subject value stamp) = s.submit kind sev subject value stamp from rfl]
    rcases s.submit_spec kind sev subject value stamp with ⟨-, h⟩ | ⟨-, -, h⟩ | ⟨-, -, h⟩ <;> rw [h] <;> exact ⟨rfl, rfl⟩

/-- Handing on changes nothing of the correlator but its work list, nor the part state. -/
theorem State.runTasks_ofRebuild (ts : List Task) (h : ∀ t ∈ ts, t.OfRebuild) :
    (∃ ws, (State.runTasks .correlator ts s).corr = { s.corr with work := ws }) ∧
      (State.runTasks .correlator ts s).run = s.run := by
  induction ts generalizing s with
  | nil => exact ⟨⟨[], rfl⟩, rfl⟩
  | cons t ts ih =>
    obtain ⟨hcorr, hrun⟩ := s.doTask_ofRebuild (h t List.mem_cons_self)
    rcases hd : s.doTask t with ⟨s1, _ | w⟩ <;> rw [hd] at hcorr hrun <;> dsimp only at hcorr hrun
    · rw [State.runTasks_go _ _ _ _ _ hd, ← hcorr, ← hrun]
      exact ih s1 fun x hx => h x (List.mem_cons_of_mem t hx)
    · rw [State.runTasks_wait _ _ _ _ _ _ hd, ← hcorr, ← hrun]
      exact ⟨⟨w :: ts, rfl⟩, rfl⟩

end

/-! ### The rebuild (R106) -/

/-- The rebuilt list in force, before its hand-offs. -/
def State.rebuilt (s : State) (sc : Bool) : State :=
  { s.storeCorr s.rebuildList with run := { s.run with phase := StartPhase.afterStates sc true } }

section
variable {s : State} {sc : Bool}

theorem exec_outageRebuild (hp : s.run.phase = .states sc false) (hw : s.corr.work = []) :
    exec .outageRebuild s = .next (State.runTasks .correlator
      (s.rebuildList.alarms ++ (s.storeCorr s.rebuildList).rebuildWalk s.rebuildList) (s.rebuilt sc)) := by
  have hidle : (s.rebuilt sc).workOf .correlator = [] := hw
  have he : exec .outageRebuild s = .next (doOutageRebuild s) := rfl
  rw [he, doOutageRebuild, hp, ← State.push_idle _ _ _ hidle]
  exact congrArg _ (if_pos (List.isEmpty_iff.2 hw))

/-- What the rebuild leaves: the list it has made, the phase of the start, and memory. -/
theorem outageRebuild_leaves (hp : s.run.phase = .states sc false) (hw : s.corr.work = []) :
    ∃ t, exec .outageRebuild s = .next t ∧ t.corr.outages = s.rebuildList.outages ∧ t.corr.nextId = s.rebuildList.nextId ∧
      t.corr.listFull = s.rebuildList.full ∧ t.run.phase = StartPhase.afterStates sc true ∧ t.mem = s.mem := by
  have htasks : ∀ t ∈ s.rebuildList.alarms ++ (s.storeCorr s.rebuildList).rebuildWalk s.rebuildList, t.OfRebuild := by
    intro t ht
    rcases List.mem_append.1 ht with ht | ht
    · obtain ⟨_, _, _, _, _, rfl⟩ := s.rebuildList_logs t ht
      constructor
    · exact State.rebuildWalk_ofRebuild _ _ t ht
  obtain ⟨⟨ws, hcorr⟩, hrun⟩ := (s.rebuilt sc).runTasks_ofRebuild _ htasks
  refine ⟨_, exec_outageRebuild hp hw, ?_, ?_, ?_, ?_, (State.runTasks_frame _ _ _).1⟩
  · rw [hcorr]
    rfl
  · rw [hcorr]
    rfl
  · rw [hcorr]
    rfl
  · rw [hrun]
    rfl

end

theorem State.mem_longRuns {s : State} {f : Feeder} {r : Row} (h : (f, r) ∈ s.longRuns) : r ∈ s.runs f := by
  obtain ⟨g, -, hx⟩ := List.mem_flatMap.1 h
  obtain ⟨q, hq, heq⟩ := List.mem_map.1 hx
  obtain ⟨rfl, rfl⟩ := Prod.mk.inj heq
  exact (List.mem_filter.1 hq).1

/-! ### The start-up (R46, R106, R128, R183) -/

/-- Settles O23. The list of the rebuild comes from the examinations folded over the runs of the enabled feeders: runs that lie
apart are covered by no outage declared before. -/
theorem startUpStates : Obligations.StartUpStates := by
  unfold Obligations.StartUpStates
  refine ⟨?_, ?_, ?_, ?_, ?_⟩
  · intro s b hp hw ha
    obtain ⟨t, ht, hbank, hres, hact, hsealed, hphase, hmem, hline⟩ := lineupStartup_leaves hp hw ha
    refine ⟨t, ht, ?_, ?_, hres, hact, hsealed, hphase, fun a => by rw [hmem], fun hempty => ?_⟩
    · rw [hbank]
      exact LineUp.setBank_same ..
    · rw [hbank]
      exact LineUp.setBank_ne _ _ _ (Bank.other_ne b).symm
    · refine ⟨allSlots.map .word5, ?_, ?_, fun k => List.mem_map_of_mem (List.mem_finRange k)⟩
      · rw [hline, hempty]
        rfl
      · intro x hx
        obtain ⟨k, -, rfl⟩ := List.mem_map.1 hx
        exact ⟨k, rfl⟩
  · intro s p a hq hphase hport code kept
    obtain ⟨hportOf, hother, hact, hsealed⟩ := (s.endBurst a []).startPending_keeps p
    refine ⟨_, exec_burstComplete_pending hq hphase hport, hportOf, hother, hact, hsealed, ?_, ?_, ?_, ?_⟩
    · intro i
      rw [(State.startPending_frame _ _).1]
      rfl
    · intro h3
      rw [State.startPending_validating (s.endBurst a []) p h3]
      obtain ⟨hl, hheader, hph, -⟩ := (s.endBurst a []).pendingShown_spec p
        ((((s.endBurst a []).keptResult p).setBank p .editable).setResult p .aborted none)
      rw [hl]
      exact ⟨LineUp.setBank_same .., LineUp.setResult_same .., hheader, hph⟩
    · intro h4
      rw [State.startPending_sealed (s.endBurst a []) p h4]
      obtain ⟨hl, hline⟩ := State.readPart_spec
        { s.endBurst a [] with lineUp := ((s.endBurst a []).keptResult p).setBank p .validating } (.again p)
      rw [hl, hline, State.readPart_run]
      exact ⟨LineUp.setBank_same .., (s.endBurst a []).keptResult_results p, List.mem_append_right _ List.mem_cons_self,
        ⟨.again p, rfl, rfl, rfl, rfl, rfl⟩, hphase⟩
    · intro h3 h4
      rw [State.startPending_other (s.endBurst a []) p h3 h4]
      obtain ⟨hl, hheader, hph, -⟩ := (s.endBurst a []).pendingShown_spec p
        (((s.endBurst a []).keptResult p).setBank p .editable)
      rw [hl]
      exact ⟨LineUp.setBank_same .., (s.endBurst a []).keptResult_results p, hheader, hph⟩
  · intro s co hp
    obtain ⟨hheader, hentries, hslots, hcarriers⟩ := mem_scannerBursts
    refine ⟨_, exec_scannerStartup hp, ?_, ?_, fun i => ?_, fun k => ?_, State.mem_asks_line hheader,
      fun i => State.mem_asks_line (hentries i), fun k => State.mem_asks_line (hslots k),
      fun k => State.mem_asks_line (hcarriers k), ?_, ?_, fun a => ?_⟩
    all_goals simp [State.scannerShown, StartPhase.afterStates_scanner]
  · intro s sc hp hw
    obtain ⟨t, ht, hout, hnext, hfull, hphase, hmem⟩ := outageRebuild_leaves hp hw
    refine ⟨t, ht, hout, hnext, hphase.trans (StartPhase.afterStates_correlator sc), fun a => by rw [hmem], ?_⟩
    intro hnone hone hroom hlow hrow
    have hmade := State.rebuildList_rebuilt hnone hone hroom hlow hrow
    show t.corr.outages.length = min 16 s.longRuns.length ∧ t.corr.nextId = min 16 s.longRuns.length + 1 ∧
      (t.corr.listFull = true ↔ 16 < s.longRuns.length) ∧ ∀ (n : Nat) (f : Feeder) (r : Row), n < 16 →
        s.longRuns[n]? = some (f, r) → _
    rw [hout, hnext, hfull, hmade.outages]
    refine ⟨s.outagesOf_length _, hmade.nextId, hmade.full, fun n f r hn hr => ?_⟩
    have hlong : (f, r) ∈ s.longRuns := List.mem_of_getElem? hr
    have hrun : r ≠ [] := State.runs_ne_nil (hrow f) (State.mem_longRuns hlong)
    obtain ⟨hle, hmin⟩ := s.startOf_spec s.runMinute hrun
    refine ⟨s.outageOf n (f, r), ?_, rfl, rfl, rfl, rfl, rfl, hle, hmin⟩
    rw [s.outagesOf_getElem? _ hn, hr]
    rfl
  · intro s f hrow
    have hd := s.divided (s.row f) hrow
    rw [s.runs_eq]
    exact ⟨fun r hr => hd.closed_run hr, fun x hx hl => hd.closed_all hx hl, hd.closed_apart⟩

end Sys2Proof.Machine
end

section
/-! The attempts of a transaction: how one fails (O43) and how one goes on (O44). -/

open Sys2Proof

namespace Sys2Proof.Machine

/-! ### A transaction in its phase (R57) -/

/-- A step that is due in the transaction's phase changes the engine. -/
theorem State.onPhase_due {s : State} {f : Feeder} {x : Txn} {ph : Phase} (g : Engine → Txn → Engine)
    (hx : (s.eng f).txn = some x) (hp : x.phase = ph) (he : x.ended = false) : s.onPhase f ph g = s.setEng f (g (s.eng f) x) := by
  simp [State.onPhase, hx, hp, he]

theorem State.eng_setEng_ne {f g : Feeder} (s : State) (e : Engine) (h : g ≠ f) : (s.setEng f e).eng g = s.eng g := by
  rw [State.eng_setEng, if_neg (Ne.symm h)]

theorem State.eng_setEng_self (s : State) (f : Feeder) (e : Engine) : (s.setEng f e).eng f = e := by
  rw [State.eng_setEng, if_pos rfl]

/-! ### How an attempt ends (R62) -/

section
variable (e : Engine) (x : Txn) (kind : FailKind)

theorem Engine.failAttempt_again (h : x.attempt < x.limit) : e.failAttempt x kind = { e with
    txn := some { x with phase := .gap, lastFail := some kind, rx := [] }, watch := 0 } := if_pos h

theorem Engine.failAttempt_last (h : x.limit ≤ x.attempt) (hs : e.state ≠ .enumerating) : e.failAttempt x kind = { e with
    txn := some { x with phase := .gap, lastFail := some kind, rx := [], ended := true }
    outcome := some (x.outcome (.failed kind)), watch := 0 } := by
  rw [Engine.failAttempt, if_neg (Nat.not_lt.2 h), if_neg hs]

theorem Engine.failAttempt_lastCall (h : x.limit ≤ x.attempt) (hs : e.state = .enumerating) : e.failAttempt x kind =
    { e with txn := none, outcome := some (x.outcome (.failed kind)), quiet := true, watch := 0 } := by
  rw [Engine.failAttempt, if_neg (Nat.not_lt.2 h), if_pos hs]

end

section
variable (e : Engine) (x : Txn) (payload : List Byte)

theorem Engine.endOk_outcome : (e.endOk x payload).outcome =
    some (x.outcome (.ok x.latency (statusFlag x.rx 0) (statusFlag x.rx 1) (statusFlag x.rx 2) payload)) := rfl

theorem Engine.endOk_txn (hp : x.probe = false) : (e.endOk x payload).txn = none := by
  simp [Engine.endOk, hp]

/-- An outcome other than a probe's leaves TALKING for READY. -/
theorem Engine.endOk_talking (hs : e.state = .talking) (hp : x.probe = false) : e.endOk x payload = { e with
    txn := none, state := .ready
    outcome := some (x.outcome (.ok x.latency (statusFlag x.rx 0) (statusFlag x.rx 1) (statusFlag x.rx 2) payload)) } := by
  simp [Engine.endOk, hs, hp]

/-- The record of a probe is kept, ended. -/
theorem Engine.endOk_probe (hs : e.state = .talking) (hp : x.probe = true) : e.endOk x payload = { e with
    txn := some { x with ended := true }
    outcome := some (x.outcome (.ok x.latency (statusFlag x.rx 0) (statusFlag x.rx 1) (statusFlag x.rx 2) payload)) } := by
  simp [Engine.endOk, hs, hp]

end

/-! ### The commands of an attempt (R58–R61) -/

section
variable {s : State} {f : Feeder} {x : Txn}

theorem exec_collision (hx : (s.eng f).txn = some x) (hp : x.phase = .calling) (he : x.ended = false) :
    exec (.collision f) s = .next (s.setEng f ((s.eng f).failAttempt x .collision)) :=
  congrArg _ (State.onPhase_due _ hx hp he)

theorem exec_callSent (hx : (s.eng f).txn = some x) (hp : x.phase = .calling) (he : x.ended = false) :
    exec (.callSent f) s = .next (s.setEng f { s.eng f with
      txn := some { x with phase := .awaiting, rx := [] }, watch := 0, monitor := 0 }) :=
  congrArg _ (State.onPhase_due _ hx hp he)

theorem exec_answerStartBit_early {n : Nat} (hx : (s.eng f).txn = some x) (hp : x.phase = .awaiting) (he : x.ended = false)
    (hn : n ≤ 1) :
    exec (.answerStartBit f n) s = .next (s.setEng f ((s.eng f).failAttempt { x with latency := n } .early)) :=
  congrArg _ ((State.onPhase_due _ hx hp he).trans (congrArg _ (if_pos hn)))

theorem exec_answerStartBit_good {n : Nat} (hx : (s.eng f).txn = some x) (hp : x.phase = .awaiting) (he : x.ended = false)
    (hn : 1 < n) (hw : n ≤ s.cfg.window) (hc : x.cmd ≠ .forget) :
    exec (.answerStartBit f n) s = .next (s.setEng f { s.eng f with
      txn := some { x with phase := .receiving, latency := min 255 n, rx := [] }, mark := false }) := by
  refine congrArg _ ((State.onPhase_due _ hx hp he).trans (congrArg _ ?_))
  rw [if_neg (Nat.not_le.2 hn), if_neg (Nat.not_lt.2 hw), if_neg hc]

theorem exec_answerWindowExpiry (hx : (s.eng f).txn = some x) (hp : x.phase = .awaiting) (he : x.ended = false) :
    exec (.answerWindowExpiry f) s = .next (s.setEng f
      (if x.cmd = .forget then (s.eng f).endOk x [] else (s.eng f).failAttempt x .noAnswer)) :=
  congrArg _ (State.onPhase_due _ hx hp he)

theorem exec_answerCharacter_good (c : Byte) (hx : (s.eng f).txn = some x) (hp : x.phase = .receiving)
    (he : x.ended = false) :
    exec (.answerCharacter f c true) s = .next (s.setEng f { s.eng f with
      txn := some { x with rx := x.rx ++ [c]
                           phase := if x.rx.length + 1 = 2 + x.cmd.answerLen then .tail else .receiving }
      mark := true, watch := 0 }) := by
  refine congrArg _ ((State.onPhase_due _ hx hp he).trans ?_)
  simp only [if_true, List.length_append, List.length_singleton]
  rfl

theorem exec_answerCharacter_bad (c : Byte) (hx : (s.eng f).txn = some x) (hp : x.phase = .receiving)
    (he : x.ended = false) :
    exec (.answerCharacter f c false) s = .next (s.setEng f ((s.eng f).failAttempt x .badAnswer)) :=
  congrArg _ (State.onPhase_due _ hx hp he)

theorem exec_answerCharacterTimeout (hx : (s.eng f).txn = some x) (hp : x.phase = .receiving) (he : x.ended = false)
    (hr : x.rx ≠ []) :
    exec (.answerCharacterTimeout f) s = .next (s.setEng f ((s.eng f).failAttempt x .badAnswer)) :=
  congrArg _ ((State.onPhase_due _ hx hp he).trans (congrArg _ (if_neg (by simpa using hr))))

theorem exec_answerTailStartBit (hx : (s.eng f).txn = some x) (hp : x.phase = .tail) (he : x.ended = false) :
    exec (.answerTailStartBit f) s = .next (s.setEng f ((s.eng f).failAttempt x .badAnswer)) :=
  congrArg _ (State.onPhase_due _ hx hp he)

theorem exec_answerTailEnd (hx : (s.eng f).txn = some x) (hp : x.phase = .tail) (he : x.ended = false) :
    exec (.answerTailEnd f) s = .next (s.setEng f
      (if (answerCrcGood x.addr x.rx && gateGood x.cmd x.rx) = true then (s.eng f).endOk x (x.rx.drop 1).dropLast
       else (s.eng f).failAttempt x .badAnswer)) :=
  congrArg _ (State.onPhase_due _ hx hp he)

/-! ### The gap, and a line that returns to mark (R58, R62) -/

theorem exec_attemptGapEnd_ended (mark : Bool) (hx : (s.eng f).txn = some x) (hp : x.phase = .gap) (he : x.ended = true) :
    exec (.attemptGapEnd f mark) s = .next (s.setEng f { s.eng f with
      txn := none, state := if (s.eng f).state = .talking then .ready else (s.eng f).state }) := by
  refine congrArg _ (show doAttemptGapEnd f mark s = _ from ?_)
  simp only [doAttemptGapEnd, hx, hp, he, if_true]

theorem exec_attemptGapEnd_again (mark : Bool) (hx : (s.eng f).txn = some x) (hp : x.phase = .gap) (he : x.ended = false) :
    exec (.attemptGapEnd f mark) s = .next (s.setEng f
      ((s.eng f).begin { x with attempt := x.attempt + 1, rx := [] } mark)) := by
  refine congrArg _ (show doAttemptGapEnd f mark s = _ from ?_)
  simp [doAttemptGapEnd, hx, hp, he]

theorem exec_attemptGapEnd_quiet (mark : Bool) (hx : (s.eng f).txn = none) :
    exec (.attemptGapEnd f mark) s = .next (s.setEng f { s.eng f with quiet := false }) := by
  refine congrArg _ (show doAttemptGapEnd f mark s = _ from ?_)
  simp only [doAttemptGapEnd, hx]

theorem exec_receiveLineToMark_waiting (hx : (s.eng f).txn = some x) (hp : x.phase = .waitMark) :
    exec (.receiveLineToMark f) s = .next (s.setEng f { s.eng f with
      mark := true, watch := 0, txn := some { x with phase := .calling } }) := by
  refine congrArg _ (show doReceiveLineToMark f s = _ from ?_)
  simp only [doReceiveLineToMark, hx, hp, if_true]

end

/-! ### Failing and going on (R59–R62) -/

/-- Settles O43: every way of failing is `Engine.failAttempt`, an early start bit leaving its latency in the record; and
that tells the attempts before the last from the last one of a TALKING and of an ENUMERATING engine. -/
theorem attemptsFail : Obligations.AttemptsFail := by
  unfold Obligations.AttemptsFail
  intro s f x c kind hx he hc
  have hfails : ∃ lat, exec c s = .next (s.setEng f ((s.eng f).failAttempt { x with latency := lat } kind)) := by
    rcases hc with ⟨rfl, hp, rfl⟩ | ⟨n, rfl, hn, hp, rfl⟩ | ⟨rfl, hp, hc, rfl⟩ | ⟨b, rfl, hp, rfl⟩ | ⟨rfl, hp, hr, rfl⟩ |
      ⟨rfl, hp, rfl⟩ | ⟨rfl, hp, hbad, rfl⟩
    · exact ⟨x.latency, exec_collision hx hp he⟩
    · exact ⟨n, exec_answerStartBit_early hx hp he hn⟩
    · exact ⟨x.latency, (exec_answerWindowExpiry hx hp he).trans (by rw [if_neg hc])⟩
    · exact ⟨x.latency, exec_answerCharacter_bad b hx hp he⟩
    · exact ⟨x.latency, exec_answerCharacterTimeout hx hp he hr⟩
    · exact ⟨x.latency, exec_answerTailStartBit hx hp he⟩
    · exact ⟨x.latency, (exec_answerTailEnd hx hp he).trans (by rw [hbad]; rfl)⟩
  obtain ⟨lat, hexec⟩ := hfails
  refine ⟨_, { x with
    latency := lat, phase := .gap, lastFail := some kind, rx := [], ended := decide (x.limit ≤ x.attempt) }, hexec,
    fun _ => rfl, rfl, rfl, fun g hg => State.eng_setEng_ne _ _ hg, ?_⟩
  rw [State.eng_setEng_self]
  refine ⟨fun hlt => ?_, fun hge ht => ?_, fun hge hs => ?_⟩
  · rw [Engine.failAttempt_again _ { x with latency := lat } _ hlt, decide_eq_false (Nat.not_le.2 hlt)]
    exact ⟨by rw [he], rfl, rfl, rfl, rfl, rfl, rfl⟩
  · rw [Engine.failAttempt_last _ { x with latency := lat } _ hge (by simp [ht]), decide_eq_true hge]
    exact ⟨rfl, rfl, rfl, ht, _, rfl, rfl, rfl, rfl, rfl, rfl⟩
  · rw [Engine.failAttempt_lastCall _ { x with latency := lat } _ hge hs]
    exact ⟨rfl, rfl, hs, _, rfl, rfl, rfl, rfl, rfl⟩

/-- Settles O44, command by command. -/
theorem attemptsGoOn : Obligations.AttemptsGoOn := by
  unfold Obligations.AttemptsGoOn
  refine ⟨fun s f mark => ⟨fun x hx he hp => exec_attemptGapEnd_ended mark hx hp he, exec_attemptGapEnd_quiet mark⟩, ?_⟩
  intro s f x hx he
  refine ⟨fun hp => exec_callSent hx hp he, fun n hp hn hw hc => exec_answerStartBit_good hx hp he hn hw hc,
    fun c hp => exec_answerCharacter_good c hx hp he, fun hp hgood hprobe hs => ?_, fun hp hgood hprobe hs => ?_,
    fun hp hc => ?_, fun mark hp => exec_attemptGapEnd_again mark hx hp he, exec_receiveLineToMark_waiting hx⟩
  · rw [exec_answerTailEnd hx hp he, if_pos hgood, Engine.endOk_talking _ _ _ hs hprobe]
  · rw [exec_answerTailEnd hx hp he, if_pos hgood, Engine.endOk_probe _ _ _ hs hprobe]
  · rw [exec_answerWindowExpiry hx hp he, if_pos hc]
    refine ⟨_, x.outcome (.ok x.latency (statusFlag x.rx 0) (statusFlag x.rx 1) (statusFlag x.rx 2) []), rfl,
      fun hprobe => ?_, ?_, hc, fun k => OutRes.noConfusion, fun _ => rfl⟩
    · rw [State.eng_setEng_self, Engine.endOk_txn _ _ _ hprobe]
    · rw [State.eng_setEng_self, Engine.endOk_outcome]

end Sys2Proof.Machine
end

section
/-! Engines and roll calls rewritten, and the hand-offs of the Tap Directory and of an engine that find room (R4, R98,
R107). -/

open Sys2Proof

namespace Sys2Proof.Machine

/-! ### Writes by index over one another -/

section
variable (s : State) (f : Feeder)

@[simp] theorem State.setEng_setEng (x y : Engine) : (s.setEng f x).setEng f y = s.setEng f y := by
  simp [State.setEng]

@[simp] theorem State.setRoll_setRoll (x y : RollCall) : (s.setRoll f x).setRoll f y = s.setRoll f y := by
  simp [State.setRoll]

theorem State.roll_setRoll_self (r : RollCall) : (s.setRoll f r).roll f = r := by
  rw [State.roll_setRoll, if_pos rfl]

theorem State.entry_setRoll (r : RollCall) (e : EntryId) : (s.setRoll f r).entry e = s.entry e := rfl

theorem State.roll_setPacing (t : Timer) (g : Feeder) : (s.setPacing f t).roll g = s.roll g := rfl

theorem State.entry_setPacing (t : Timer) (e : EntryId) : (s.setPacing f t).entry e = s.entry e := rfl

end

/-! ### A hand-off that finds room (R4, R98, R107) -/

/-- The state after a report has been handed to the correlator. -/
def State.told (s : State) (r : CorrReport) : State :=
  { s with corr := { s.corr with reports := s.corr.reports ++ [r] } }

/-- The state after an alarm has entered the intake. -/
def State.alarmed (s : State) (a : AlarmEntry) : State :=
  { s with log := { s.log with intake := s.log.intake ++ [a] } }

section
variable {s : State}

theorem State.doTask_orderReport (r : OrderReport) (h : s.order.reports.length < Config.orderReportDepth) :
    s.doTask (.orderReport r) = (s.handed r, none) := if_pos h

theorem State.doTask_orderReport_full (r : OrderReport) (h : s.order.reports.length = Config.orderReportDepth) :
    s.doTask (.orderReport r) = (s, some (.orderReport r)) := if_neg (by omega)

theorem State.doTask_corrReport (r : CorrReport) (h : s.corr.reports.length < Config.corrReportDepth) :
    s.doTask (.corrReport r) = (s.told r, none) := if_pos h

theorem State.doTask_alarm (kind : AlarmKind) (sev : Severity) (subject : Subject) (value : Word)
    (hp : s.run.part = .running) (h : s.log.intake.length < Config.intakeDepth) :
    s.doTask (.alarm kind sev subject value none) =
      (s.alarmed (AlarmEntry.mk kind sev subject s.time.minute value), none) := by
  show s.submit kind sev subject value none = _
  rcases s.submit_spec kind sev subject value none with ⟨hi, -⟩ | ⟨-, -, hs⟩ | ⟨-, hf, -⟩
  · exact absurd (hi.symm.trans hp) (by decide)
  · exact hs
  · exact absurd h hf

/-- With its hand-offs made in full, the Tap Directory is left without work. -/
theorem State.pushCalls_done {ts : List Task} {t : State} (hw : s.dir.work = [])
    (h : State.runTasks .directory ts s = t.setWork .directory []) : s.pushCalls ts = t.setWork .directory [] := by
  have hidle : s.workOf .directory = [] := hw
  rw [State.pushCalls, State.push_idle _ _ _ hidle, h]
  rfl

theorem State.pushCalls_nil (hw : s.dir.work = []) : s.pushCalls [] = s :=
  (State.pushCalls_done hw rfl).trans (State.setWork_nil (b := .directory) hw)

end

/-! ### An outcome taken (R74) -/

theorem State.takeOutcome_due {s : State} {f : Feeder} {o : Outcome} (mark : Bool) (mine : Outcome → Bool)
    (ho : (s.eng f).outcome = some o) (hw : s.dir.work = []) (hm : mine o = true) :
    s.takeOutcome f mark mine =
      ((s.setEng f { s.eng f with outcome := none, mark := mark }).outcomeEffect f o).1.pushCalls
        ((s.setEng f { s.eng f with outcome := none, mark := mark }).outcomeEffect f o).2 := by
  simp [State.takeOutcome, ho, hw, hm]

end Sys2Proof.Machine
end

section
/-! The roll call and the probe (O47). -/

open Sys2Proof

namespace Sys2Proof.Machine

/-! ### The cycle of the roll call (R83) -/

/-- The next entry of the list is read off the places of the entries. -/
theorem State.nextOfList_congr {s t : State} (h : ∀ e, (t.entry e).place = (s.entry e).place) (f : Feeder)
    (l : List (Nat × EntryId)) (n : Nat) : t.nextOfList f l n = s.nextOfList f l n := by
  induction l generalizing n with
  | nil => rfl
  | cons x l ih => rw [State.nextOfList, State.nextOfList, h, ih]

theorem State.row_congr {s t : State} (h : ∀ e, (t.entry e).place = (s.entry e).place) (f : Feeder) : t.row f = s.row f := by
  simp only [State.row, h]

theorem State.cycleList_congr {s t : State} (h : ∀ e, t.entry e = s.entry e) (f : Feeder) (n : Nat) :
    t.cycleList f n = s.cycleList f n := by
  simp only [State.cycleList, h, State.row_congr fun e => congrArg Entry.place (h e)]

/-- The roll call of a feeder whose cycle has ended (R83, R84). -/
def State.cycleEnded (s : State) (f : Feeder) : RollCall :=
  let l := s.cycleList f (((s.roll f).count + 1) % 4)
  { s.roll f with
    probeOwed := true, count := ((s.roll f).count + 1) % 4, list := l, cursor := 0
    period := pacingPeriod s.cfg.tr l.length }

section
variable {s : State} {f : Feeder}

theorem State.endCycle_eq (s : State) (f : Feeder) : s.endCycle f = s.setRoll f (s.cycleEnded f) := by
  simp only [State.endCycle, State.newCycle, State.roll_setRoll_self, State.setRoll_setRoll, State.cycleEnded,
    State.cycleList_congr (s.entry_setRoll f _)]
  rfl

theorem State.cycleEnded_setPacing (s : State) (f : Feeder) (t : Timer) :
    (s.setPacing f t).cycleEnded f = s.cycleEnded f := by
  simp only [State.cycleEnded, State.cycleList_congr (s.entry_setPacing f t)]
  rfl

theorem State.advanceRoll_next {x : Nat × EntryId} {n : Nat} (restart : Bool)
    (h : s.nextOfList f ((s.roll f).list.drop (s.roll f).cursor) (s.roll f).cursor = some (x, n)) :
    s.advanceRoll f restart =
      (s.setRoll f { s.roll f with due := some x, cursor := n }).setPacing f Timer.stopped := by
  simp only [State.advanceRoll, h]

/-- A cycle ends while a READ was due: the READ is due no more (R83). -/
theorem State.endCycle_notDue (s : State) (f : Feeder) :
    (s.setRoll f { s.roll f with due := none }).endCycle f = s.setRoll f { s.cycleEnded f with due := none } := by
  simp only [State.endCycle_eq, State.setRoll_setRoll, State.cycleEnded, State.roll_setRoll_self,
    State.cycleList_congr (s.entry_setRoll f _)]
  rfl

/-- A cycle that an expiry ends: the timer runs on. -/
theorem State.advanceRoll_end
    (h : s.nextOfList f ((s.roll f).list.drop (s.roll f).cursor) (s.roll f).cursor = none) :
    ∃ p, s.advanceRoll f false =
      (s.setRoll f { s.cycleEnded f with due := none }).setPacing f (s.time.pacing[f].changePeriod p) := by
  refine ⟨(s.cycleEnded f).period, ?_⟩
  simp only [State.advanceRoll, h, State.endCycle_notDue, State.roll_setRoll_self]
  rfl

theorem exec_pacingTimerExpiry (h : 0 < s.time.pacing[f].due) : exec (.pacingTimerExpiry f) s =
    .next ((s.setPacing f s.time.pacing[f].take).advanceRoll f false) := congrArg _ (if_pos h)

/-! ### The outcome of a probe (R63, R84, R93) -/

theorem exec_probeOutcome {o : Outcome} (mark : Bool) (hw : s.dir.work = []) (ho : (s.eng f).outcome = some o)
    (hp : o.probe = true) : exec (.probeOutcome f mark) s =
      .next (((s.setEng f { s.eng f with outcome := none, mark := mark }).probeOutcome f o).1.pushCalls
        ((s.setEng f { s.eng f with outcome := none, mark := mark }).probeOutcome f o).2) := by
  have he : exec (.probeOutcome f mark) s = .next (s.takeOutcome f mark fun o => o.probe) := rfl
  rw [he, State.takeOutcome_due mark _ ho hw hp]
  simp only [State.outcomeEffect, hp, if_true]

theorem State.probeOutcome_failed {o : Outcome} {k : FailKind} (h : o.res = .failed k) :
    s.probeOutcome f o = (s.setEng f (s.eng f).probeOver, []) := by
  simp only [State.probeOutcome, h]

/-- The engine in an enumeration, with no call on the line. -/
def Engine.inEnum (x : Engine) (en : Enum) : Engine := { x with state := .enumerating, txn := none, enum := some en }

theorem State.entryOfSerial_congr {s t : State} (h : ∀ e, t.entry e = s.entry e) (serial : Word) :
    t.entryOfSerial serial = s.entryOfSerial serial := by
  simp only [State.entryOfSerial, h]

/-- The choice of an entry for a serial is read off the pool. -/
theorem State.chooseEntry_congr {s t : State} (h : ∀ e, t.entry e = s.entry e) (serial : Word) :
    t.chooseEntry serial = s.chooseEntry serial := by
  have hentry : t.entry = s.entry := funext h
  unfold State.chooseEntry State.freeEntry State.freeOnDemand
  rw [State.entryOfSerial_congr h, hentry]

theorem State.choosePos_congr {s t : State} (h : ∀ e, t.entry e = s.entry e) (f : Feeder) (en : Enum) (serial : Word) :
    t.choosePos f en serial = s.choosePos f en serial := by
  simp only [State.choosePos, State.entryOfSerial_congr h, State.row_congr fun e => congrArg Entry.place (h e), h]

/-- A serial with an entry and a position has its ASSIGN sent. -/
theorem State.identified_placed {en : Enum} {serial : Word} {c : EntryId × Pick} (hc : s.chooseEntry serial = some c)
    (hpos : s.choosePos f en serial ≤ 62) (ha : en.again = false) :
    ∃ en', s.identified f en serial = (s.setEng f { s.eng f with enum := some en' }, [.beginCall f .assign]) := by
  have hcall : (if en.again = true then TapCmd.identify else TapCmd.assign) = .assign := by
    rw [ha]
    rfl
  refine ⟨{ en with serial := serial, pos := s.choosePos f en serial, choice := some c }, ?_⟩
  unfold State.identified
  rw [hc]
  dsimp only
  rw [if_neg (Nat.not_lt.2 hpos), hcall]

/-- A probe that a tap with room answers begins an EXTEND enumeration with its ASSIGN. -/
theorem State.probeOutcome_placed {o : Outcome} {lat : Nat} {a b g : Bool} {payload : List Byte} {c : EntryId × Pick}
    (h : o.res = .ok lat a b g payload) (hc : s.chooseEntry (serialOfChars payload) = some c)
    (hpos : s.choosePos f (Enum.start .extend) (serialOfChars payload) ≤ 62) :
    ∃ en, s.probeOutcome f o =
      (s.setEng f ((s.eng f).inEnum en), [.corrReport (.enumStart f), .beginCall f .assign]) := by
  have hbegun : (s.beginEnum f .extend).1.setEng f { (s.beginEnum f .extend).1.eng f with request := (s.eng f).request } =
      s.setEng f ((s.eng f).inEnum (Enum.start .extend)) := by
    rw [State.beginEnum, State.setEng_setEng, State.eng_setEng_self]
    rfl
  have hentry := s.entry_setEng f ((s.eng f).inEnum (Enum.start .extend))
  obtain ⟨en, hplaced⟩ := State.identified_placed (f := f) (en := Enum.start .extend)
    ((State.chooseEntry_congr hentry _).trans hc) (by rwa [State.choosePos_congr hentry]) rfl
  rw [State.setEng_setEng, State.eng_setEng_self] at hplaced
  refine ⟨en, ?_⟩
  simp only [State.probeOutcome, h, hbegun, hplaced]
  rfl

theorem State.beginCall_assign {en : Enum} (hen : (s.eng f).enum = some en) (hr : s.run.part = .running)
    (hs : (s.eng f).state = .enumerating) : ∃ x : Txn, x.cmd = .assign ∧ s.beginCall f .assign =
      s.setEng f ({ s.eng f with enum := some { en with due := none, again := false } }.begin x (s.eng f).mark) := by
  refine ⟨newTxn .assign 0 0 0 PortState.off false (assignPayload en.pos en.serial) s.cfg.attempts, rfl, ?_⟩
  simp only [State.beginCall, hen, if_pos (And.intro hr hs)]

/-- The hand-offs of the EXTEND step: the start report, and the ASSIGN on the line. -/
theorem State.pushCalls_extend {en : Enum} (hw : s.dir.work = []) (hr : s.run.part = .running)
    (hroom : s.corr.reports.length < Config.corrReportDepth) (hen : (s.eng f).enum = some en)
    (hs : (s.eng f).state = .enumerating) : ∃ (x : Txn) (e : Engine), x.cmd = .assign ∧ e.state = .enumerating ∧
      e.txn = some x ∧ s.pushCalls [.corrReport (.enumStart f), .beginCall f .assign] =
        ((s.told (.enumStart f)).setEng f e).setWork .directory [] := by
  obtain ⟨x, hx, hcall⟩ := State.beginCall_assign (s := s.told (.enumStart f)) hen hr hs
  refine ⟨{ x with phase := if (s.eng f).mark then .calling else .waitMark },
    Engine.begin { s.eng f with enum := some { en with due := none, again := false } } x (s.eng f).mark, hx, hs, rfl,
    State.pushCalls_done hw ?_⟩
  rw [State.runTasks_go _ _ _ _ _ (State.doTask_corrReport _ hroom), State.runTasks_go _ _ _ _ _ rfl, State.runTasks_nil,
    hcall]
  rfl

end

/-- Settles O47: an expiry by whether the list has a next entry, a probe by its outcome. -/
theorem rollCalls : Obligations.RollCalls := by
  unfold Obligations.RollCalls
  refine ⟨fun s f hdue => ⟨fun x n hx => ?_, fun hend => ?_⟩, fun s f mark o k hw ho hp hres => ?_,
    fun s f mark o lat a b c payload hq hr hroom ho hp hres hsome hpos => ?_⟩
  · have hnext : (s.setPacing f s.time.pacing[f].take).nextOfList f ((s.roll f).list.drop (s.roll f).cursor)
        (s.roll f).cursor = some (x, n) := by
      rwa [State.nextOfList_congr fun e => congrArg Entry.place (s.entry_setPacing f _ e)]
    refine ⟨_, (exec_pacingTimerExpiry hdue).trans (congrArg _ (State.advanceRoll_next false hnext)), ?_⟩
    have hroll : ∀ r, (((s.setPacing f s.time.pacing[f].take).setRoll f r).setPacing f Timer.stopped).roll f = r :=
      fun r => State.roll_setRoll_self _ f r
    rw [hroll]
    refine ⟨rfl, rfl, rfl, ?_, fun _ => rfl, fun _ => rfl⟩
    rw [State.setPacing_time]
    simp [Timer.stopped]
  · have hnone : (s.setPacing f s.time.pacing[f].take).nextOfList f ((s.roll f).list.drop (s.roll f).cursor)
        (s.roll f).cursor = none := by
      rwa [State.nextOfList_congr fun e => congrArg Entry.place (s.entry_setPacing f _ e)]
    obtain ⟨p, he⟩ := State.advanceRoll_end hnone
    refine ⟨_, (exec_pacingTimerExpiry hdue).trans (congrArg _ he), ?_⟩
    have hroll : ∀ r t, (((s.setPacing f s.time.pacing[f].take).setRoll f r).setPacing f t).roll f = r :=
      fun r _ => State.roll_setRoll_self _ f r
    rw [hroll, State.cycleEnded_setPacing]
    exact ⟨rfl, rfl, rfl, rfl, by simp only [State.cycleEnded], fun _ => rfl, fun _ => rfl⟩
  · rw [exec_probeOutcome mark hw ho hp, State.probeOutcome_failed hres, State.pushCalls_nil (by exact hw),
      State.setEng_setEng, State.eng_setEng_self]
    refine ⟨_, rfl, ?_⟩
    rw [State.eng_setEng_self]
    refine ⟨rfl, fun hx hs => ?_, rfl, rfl, fun _ => rfl⟩
    simp [Engine.probeOver, hx, hs]
  · obtain ⟨e, he⟩ := Option.isSome_iff_exists.1 hsome
    have hw : s.dir.work = [] := hq.1 .directory
    have hentry := s.entry_setEng f { s.eng f with outcome := none, mark := mark }
    obtain ⟨en, hplaced⟩ := State.probeOutcome_placed (f := f) (c := e) hres ((State.chooseEntry_congr hentry _).trans he)
      (by rwa [State.choosePos_congr hentry])
    rw [State.setEng_setEng, State.eng_setEng_self] at hplaced
    obtain ⟨x, y, hx, hy, htxn, hpush⟩ := State.pushCalls_extend (f := f)
      (s := s.setEng f (Engine.inEnum { s.eng f with outcome := none, mark := mark } en)) hw hr hroom
      (congrArg Engine.enum (State.eng_setEng_self s f _)) (congrArg Engine.state (State.eng_setEng_self s f _))
    rw [exec_probeOutcome mark hw ho hp, hplaced, hpush]
    have heng : ((((s.setEng f (Engine.inEnum { s.eng f with outcome := none, mark := mark } en)).told
        (.enumStart f)).setEng f y).setWork .directory []).eng f = y := State.eng_setEng_self _ f y
    refine ⟨_, x, rfl, ?_, ?_, hx, rfl, fun _ => rfl⟩ <;> rw [heng] <;> assumption

end Sys2Proof.Machine
end

section
/-! The choice of work: the row of a feeder in the order of its positions, and the first piece of work found (R69). -/

open Sys2Proof

namespace Sys2Proof.Machine

/-! ### The row of a feeder (R72) -/

theorem insertPos_perm (x : Nat × EntryId) (l : List (Nat × EntryId)) : (insertPos x l).Perm (x :: l) := by
  induction l with
  | nil => exact .refl _
  | cons y l ih =>
    rw [insertPos]
    split
    · exact .refl _
    · exact (ih.cons y).trans (.swap x y l)

theorem insertPos_sorted (x : Nat × EntryId) {l : List (Nat × EntryId)} (h : l.Pairwise fun x y => x.1 ≤ y.1) :
    (insertPos x l).Pairwise fun x y => x.1 ≤ y.1 := by
  induction l with
  | nil => exact List.pairwise_singleton _ _
  | cons y l ih =>
    obtain ⟨hy, hl⟩ := List.pairwise_cons.1 h
    rw [insertPos]
    split
    · next hxy => exact List.pairwise_cons.2 ⟨List.forall_mem_cons.2 ⟨hxy, fun z hz => hxy.trans (hy z hz)⟩, h⟩
    · next hxy =>
      refine List.pairwise_cons.2 ⟨fun z hz => ?_, ih hl⟩
      rcases List.mem_cons.1 ((insertPos_perm x l).mem_iff.1 hz) with rfl | hz
      · omega
      · exact hy z hz

/-- The row holds the entries placed on the feeder, each with its position. -/
theorem State.mem_row (s : State) (f : Feeder) (n : Nat) (e : EntryId) :
    (n, e) ∈ s.row f ↔ (s.entry e).place = some { feeder := f, pos := n } := by
  have hperm (l : List (Nat × EntryId)) : (l.foldr insertPos []).Perm l := by
    induction l with
    | nil => exact .refl _
    | cons x l ih => exact (insertPos_perm x _).trans (ih.cons x)
  rw [State.row, (hperm _).mem_iff, List.mem_filterMap]
  constructor
  · rintro ⟨d, -, hd⟩
    split at hd
    · next pl hpl =>
      split at hd
      · next hf =>
        cases hd
        rw [hpl, ← hf]
      · exact nomatch hd
    · exact nomatch hd
  · intro h
    exact ⟨e, List.mem_finRange e, by rw [h]; exact if_pos rfl⟩

theorem State.row_sorted (s : State) (f : Feeder) : (s.row f).Pairwise fun x y => x.1 ≤ y.1 := by
  rw [State.row]
  generalize (List.finRange 576).filterMap _ = l
  induction l with
  | nil => exact .nil
  | cons x l ih => exact insertPos_sorted x ih

theorem Entry.on_iff (x : Entry) (f : Feeder) : x.on f = true ↔ ∃ n, x.place = some { feeder := f, pos := n } := by
  unfold Entry.on
  split
  · next pl h =>
    rw [h]
    exact ⟨fun hf => ⟨pl.pos, by rw [← beq_iff_eq.1 hf]⟩,
      fun ⟨n, hn⟩ => by rw [Option.some.inj hn]; exact beq_self_eq_true f⟩
  · next h => simp [h]

/-- Of a list in the order of its positions, what stands below an item stands before it. -/
theorem mem_before {l before after : List (Nat × EntryId)} {x y : Nat × EntryId} (hl : l = before ++ x :: after)
    (hs : l.Pairwise fun x y => x.1 ≤ y.1) (hy : y ∈ l) (hlt : y.1 < x.1) : y ∈ before := by
  rw [hl] at hs hy
  have hafter := (List.pairwise_cons.1 (List.pairwise_append.1 hs).2.1).1
  rcases List.mem_append.1 hy with hb | hb
  · exact hb
  · rcases List.mem_cons.1 hb with rfl | hb
    · exact absurd hlt (Nat.lt_irrefl _)
    · exact absurd (hafter y hb) (Nat.not_le.2 hlt)

/-- The first of the numbers below `n` with a property. -/
theorem find?_finRange {n : Nat} {p : Fin n → Bool} {k : Fin n} (h : (List.finRange n).find? p = some k) :
    p k = true ∧ ∀ j, j < k → p j = false := by
  rw [← Fin.find?_eq_find?_finRange] at h
  exact Fin.find?_eq_some_iff.1 h

/-! ### Orders in flight (R8, R69) -/

section
variable {s : State} {f : Feeder}

theorem State.armedOrQueued_iff (s : State) (x : InFlight) :
    s.armedOrQueued x = true ↔ x.armed = true ∨ ∃ cmd e p before,
      OrderReport.start cmd e p before ∈ s.order.reports ∧ x.seq < before ∧ e = x.e ∧
        (x.kind = .audit ∧ cmd = .read ∨ x.kind ≠ .audit ∧ cmd = .setPort ∧ p = x.p) := by
  rw [State.armedOrQueued, Bool.or_eq_true, List.any_eq_true]
  refine or_congr Iff.rfl ⟨fun ⟨r, hr, h⟩ => ?_, fun ⟨cmd, e, p, before, hr, hlt, he, hk⟩ => ⟨_, hr, ?_⟩⟩
  · cases r with
    | start cmd e p before =>
      refine ⟨cmd, e, p, before, hr, ?_⟩
      by_cases hk : x.kind = .audit <;> simp_all
    | _ => exact absurd h (by simp)
  · rcases hk with ⟨hk, rfl⟩ | ⟨hk, rfl, rfl⟩ <;> simp [hlt, he, hk]

/-- An order in flight is work for the feeder: neither armed nor to be armed, its tap placed there. -/
theorem State.awaitsFeeder_iff (s : State) (f : Feeder) (x : InFlight) :
    (!s.armedOrQueued x && (s.entry x.e).on f) = false ↔ s.armedOrQueued x = true ∨ (s.entry x.e).on f = false := by
  cases s.armedOrQueued x <;> simp

theorem State.inFlightWork_none (h : ∀ x ∈ s.order.inflight, s.armedOrQueued x = true ∨ (s.entry x.e).on f = false) :
    s.inFlightWork f = none := by
  rw [State.inFlightWork, Option.map_eq_none_iff, List.find?_eq_none]
  intro x hx
  rw [Bool.not_eq_true, State.awaitsFeeder_iff]
  exact h x hx

theorem State.inFlightWork_oldest {before after : List InFlight} {x : InFlight}
    (hl : s.order.inflight = before ++ x :: after)
    (hb : ∀ y ∈ before, s.armedOrQueued y = true ∨ (s.entry y.e).on f = false) (ha : s.armedOrQueued x = false)
    (ho : (s.entry x.e).on f = true) :
    s.inFlightWork f = some (if x.kind = .audit then .read x.e false else .setPort x.e x.p) := by
  have hfind : (s.order.inflight.find? fun x => !s.armedOrQueued x && (s.entry x.e).on f) = some x := by
    refine List.find?_eq_some_iff_append.2 ⟨by simp [ha, ho], before, after, hl, fun y hy => ?_⟩
    rw [(s.awaitsFeeder_iff f y).2 (hb y hy)]
    rfl
  rw [State.inFlightWork, hfind]
  rfl

/-! ### Dirty ports (R73) -/

theorem TapPort.dirty_iff (x : TapPort) :
    x.dirty = true ↔ x.reapply = true ∨ x.applied = none ∨ x.applied ≠ some x.wanted := by
  rw [TapPort.dirty, Bool.or_eq_true, bne_iff_ne]
  refine or_congr Iff.rfl ⟨.inr, ?_⟩
  rintro (h | h)
  · rw [h]
    exact nofun
  · exact h

theorem State.dirtyWork_some {c : WorkChoice} (h : s.dirtyWork f = some c) :
    ∃ (e : EntryId) (p : Port) (n : Nat), c = .setPort e p ∧ (s.entry e).place = some { feeder := f, pos := n } ∧
      ((s.entry e).state = .present ∨ (s.entry e).state = .silent) ∧ (s.tapPort e p).dirty = true ∧
      (∀ q : Port, q < p → (s.tapPort e q).dirty = false) ∧
      ∀ d m, (s.entry d).place = some { feeder := f, pos := m } → m < n →
        (s.entry d).state = .present ∨ (s.entry d).state = .silent → ∀ q : Port, (s.tapPort d q).dirty = false := by
  obtain ⟨before, ⟨n, e⟩, after, hrow, hfound, hbefore⟩ := List.findSome?_eq_some_iff.1 h
  have hplace : (s.entry e).place = some { feeder := f, pos := n } :=
    (s.mem_row f n e).1 (hrow ▸ List.mem_append_right _ List.mem_cons_self)
  split at hfound
  · next hstate =>
    obtain ⟨p, hp, rfl⟩ := Option.map_eq_some_iff.1 hfound
    obtain ⟨hdirty, hfirst⟩ := find?_finRange hp
    refine ⟨e, p, n, rfl, hplace, hstate, hdirty, hfirst, fun d m hd hlt hs q => ?_⟩
    have hnone := hbefore (m, d) (mem_before hrow (s.row_sorted f) ((s.mem_row f m d).2 hd) hlt)
    rw [if_pos hs, Option.map_eq_none_iff, List.find?_eq_none] at hnone
    simpa using hnone q (List.mem_finRange q)
  · exact nomatch hfound

theorem State.dirtyWork_none (h : s.dirtyWork f = none) (e : EntryId) (ho : (s.entry e).on f = true)
    (hs : (s.entry e).state = .present ∨ (s.entry e).state = .silent) (p : Port) : (s.tapPort e p).dirty = false := by
  obtain ⟨n, hn⟩ := ((s.entry e).on_iff f).1 ho
  have hnone := List.findSome?_eq_none_iff.1 h (n, e) ((s.mem_row f n e).2 hn)
  rw [if_pos hs, Option.map_eq_none_iff, List.find?_eq_none] at hnone
  simpa using hnone p (List.mem_finRange p)

/-! ### The roll call's READs (R85) -/

theorem State.rollWork_paced (h : ∀ e, (s.entry e).on f = true → (s.entry e).verify = false) :
    s.rollWork f = (s.roll f).due.map fun x => .read x.2 true := by
  have hnone : (s.row f).find? (fun x => (s.entry x.2).verify) = none := by
    rw [List.find?_eq_none]
    rintro ⟨n, e⟩ hx
    simp [h e (((s.entry e).on_iff f).2 ⟨n, (s.mem_row f n e).1 hx⟩)]
  unfold State.rollWork
  rw [hnone]

theorem State.rollWork_verify (h : ∃ e, (s.entry e).on f = true ∧ (s.entry e).verify = true) :
    ∃ (e : EntryId) (n : Nat), s.rollWork f = some (.read e false) ∧
      (s.entry e).place = some { feeder := f, pos := n } ∧ (s.entry e).verify = true ∧
      ∀ d m, (s.entry d).place = some { feeder := f, pos := m } → m < n → (s.entry d).verify = false := by
  obtain ⟨d, hd, hv⟩ := h
  obtain ⟨m, hm⟩ := ((s.entry d).on_iff f).1 hd
  have hsome : ((s.row f).find? fun x => (s.entry x.2).verify).isSome = true :=
    List.find?_isSome.2 ⟨(m, d), (s.mem_row f m d).2 hm, hv⟩
  obtain ⟨⟨n, e⟩, hx⟩ := Option.isSome_iff_exists.1 hsome
  obtain ⟨hverify, before, after, hrow, hbefore⟩ := List.find?_eq_some_iff_append.1 hx
  refine ⟨e, n, by unfold State.rollWork; rw [hx], (s.mem_row f n e).1 (List.mem_of_find?_eq_some hx), hverify, ?_⟩
  intro k i hk hlt
  simpa using hbefore (i, k) (mem_before hrow (s.row_sorted f) ((s.mem_row f i k).2 hk) hlt)

end

end Sys2Proof.Machine
end

section
/-! The start of a transaction (O42). -/

open Sys2Proof

namespace Sys2Proof.Machine

section
variable {s : State} {f : Feeder}

theorem exec_transactionStart {c : WorkChoice} (mark : Bool) (hm : s.mayChoose f = true) (hc : s.workChoice f = some c)
    (hr : s.reportRoom c = true) : exec (.transactionStart f mark) s = .next (s.startWork f mark c) := by
  refine congrArg _ (show doTransactionStart f mark s = _ from ?_)
  simp only [doTransactionStart, hm, hc, hr, if_true]

theorem State.startWork_sameMemory (mark : Bool) (c : WorkChoice) : SameMemory s (s.startWork f mark c) :=
  fun _ => by rw [(State.startWork_frame s f mark c).1]

/-- The roll call of a feeder whose paced READ has started (R83). -/
def State.pacedRoll (s : State) (f : Feeder) : RollCall :=
  { (if (s.roll f).list.length ≤ (s.roll f).cursor then s.cycleEnded f else s.roll f) with due := none }

theorem State.startPaced_eq (s : State) (f : Feeder) :
    s.startPaced f = (s.setRoll f (s.pacedRoll f)).setPacing f (Timer.start (s.pacedRoll f).period) := by
  unfold State.startPaced State.pacedRoll
  simp only [State.roll_setRoll_self, State.endCycle_notDue]
  split <;> simp only [State.roll_setRoll_self]

theorem State.startPaced_eng (s : State) (f g : Feeder) : (s.startPaced f).eng g = s.eng g := by
  rw [State.startPaced_eq]
  rfl

/-- The transaction that a piece of work becomes (R58). -/
def State.txnOf (s : State) : WorkChoice → Txn
  | .setPort e p => newTxn .setPort (s.posOf e) e p (s.tapPort e p).wanted false
      (setPortPayload p (s.tapPort e p).wanted) s.cfg.attempts
  | .read e _ => newTxn .read (s.posOf e) e 0 PortState.off false [] s.cfg.attempts
  | .probe => newTxn .identify 0 0 0 PortState.off true [] 1

/-- The state in which the transaction of a piece of work begins: marks and flags cleared, the start report handed (R58). -/
def State.prepared (s : State) (f : Feeder) : WorkChoice → State
  | .setPort e p => (s.setTapPort e p { s.tapPort e p with reapply := false }).startReport .setPort e p
  | .read e paced => (if paced then s.startPaced f else s).startReport .read e 0
  | .probe => s.setRoll f { s.roll f with probeOwed := false }

theorem State.startWork_eq (s : State) (f : Feeder) (mark : Bool) (c : WorkChoice) :
    s.startWork f mark c = (s.prepared f c).talk f (s.txnOf c) mark := by
  cases c <;> rfl

theorem State.prepared_eng (s : State) (f g : Feeder) (c : WorkChoice) : (s.prepared f c).eng g = s.eng g := by
  cases c with
  | setPort e p => rfl
  | read e paced =>
    cases paced with
    | false => rfl
    | true => exact s.startPaced_eng f g
  | probe => rfl

theorem State.prepared_read_order (s : State) (f : Feeder) (e : EntryId) (paced : Bool) :
    (s.prepared f (.read e paced)).order =
      { s.order with reports := s.order.reports ++ [.start .read e 0 s.order.nextSeq] } := by
  cases paced with
  | false => rfl
  | true =>
    exact congrArg (fun o : OrderUnit => { o with reports := o.reports ++ [OrderReport.start .read e 0 o.nextSeq] })
      (s.startPaced_order f)

theorem State.prepared_read_pool (s : State) (f : Feeder) (e : EntryId) (paced : Bool) :
    (s.prepared f (.read e paced)).dir.pool = s.dir.pool := by
  cases paced with
  | false => rfl
  | true =>
    show (s.startPaced f).dir.pool = _
    rw [s.startPaced_eq f]
    rfl

theorem State.startWork_eng (s : State) (f : Feeder) (mark : Bool) (c : WorkChoice) :
    (s.startWork f mark c).eng f = Engine.begin { s.eng f with state := .talking } (s.txnOf c) mark := by
  rw [State.startWork_eq, State.talk, State.eng_setEng_self, State.prepared_eng]

theorem State.startWork_eng_ne {g : Feeder} (mark : Bool) (c : WorkChoice) (h : g ≠ f) :
    (s.startWork f mark c).eng g = s.eng g := by
  rw [State.startWork_eq, State.talk, State.eng_setEng_ne _ _ h, State.prepared_eng]

/-- A paced READ leaves the roll call as R83 has it, and the pacing timer started with its period. -/
theorem State.startWork_paced (s : State) (f : Feeder) (mark : Bool) (e : EntryId) :
    (s.startWork f mark (.read e true)).roll f = s.pacedRoll f ∧
      (s.startWork f mark (.read e true)).time.pacing[f] = Timer.start (s.pacedRoll f).period := by
  have hroll : (s.startWork f mark (.read e true)).roll f = (s.startPaced f).roll f := rfl
  have htime : (s.startWork f mark (.read e true)).time = (s.startPaced f).time := rfl
  rw [hroll, htime, State.startPaced_eq, State.roll_setPacing, State.roll_setRoll_self, State.setPacing_time]
  exact ⟨rfl, Vector.getElem_set_self _⟩

end

/-- Settles O42: the order of the choice, the first piece of work of each kind, and the transaction that it becomes. -/
theorem transactionStarts : Obligations.TransactionStarts := by
  unfold Obligations.TransactionStarts
  refine ⟨fun s f => ⟨fun c h => ?_, fun c h1 h2 => ?_, fun c h1 h2 h3 => ?_, fun h1 h2 h3 h4 => ?_⟩,
    fun s f => ⟨s.armedOrQueued_iff, State.inFlightWork_none, fun _ _ _ => State.inFlightWork_oldest,
      fun _ => State.dirtyWork_some, State.dirtyWork_none, TapPort.dirty_iff, State.rollWork_paced, State.rollWork_verify⟩,
    fun s f mark hm => ⟨fun e p hc hroom => ?_, fun e paced hc hroom => ?_, fun hc => ?_⟩⟩
  · rw [State.workChoice, h]
    rfl
  · rw [State.workChoice, h1, h2]
    rfl
  · rw [State.workChoice, h1, h2, h3]
    rfl
  · rw [State.workChoice, h1, h2, h3, if_pos h4]
    rfl
  · refine ⟨_, { s.txnOf (.setPort e p) with phase := if mark then .calling else .waitMark },
      exec_transactionStart mark hm hc (decide_eq_true hroom), ?_⟩
    rw [State.startWork_eng]
    refine ⟨rfl, rfl, rfl, rfl, rfl, rfl, rfl, rfl, rfl, rfl, rfl, ?_, rfl, fun g => State.startWork_eng_ne mark _,
      State.startWork_sameMemory mark _⟩
    have hport : (s.startWork f mark (.setPort e p)).tapPort e p = { s.tapPort e p with reapply := false } :=
      (State.tapPort_setTapPort s e e p p _).trans (if_pos ⟨rfl, rfl⟩)
    rw [hport]
  · refine ⟨_, { s.txnOf (.read e paced) with phase := if mark then .calling else .waitMark },
      exec_transactionStart mark hm hc (decide_eq_true hroom), ?_⟩
    rw [State.startWork_eng]
    refine ⟨rfl, rfl, rfl, rfl, rfl, rfl, rfl, rfl, rfl, rfl, ?_, ?_, ?_, ?_, fun g => State.startWork_eng_ne mark _,
      State.startWork_sameMemory mark _⟩
    · rw [State.startWork_eq]
      exact congrArg OrderUnit.reports (s.prepared_read_order f e paced)
    · rw [State.startWork_eq]
      exact s.prepared_read_pool f e paced
    · rintro rfl
      exact ⟨rfl, rfl⟩
    · rintro rfl
      obtain ⟨hroll, htimer⟩ := s.startWork_paced f mark e
      rw [hroll, htimer]
      refine ⟨rfl, rfl, fun hlt => ?_, fun hge => ?_⟩
      · rw [State.pacedRoll, if_neg (Nat.not_le.2 hlt)]
      · rw [State.pacedRoll, if_pos hge]
        exact ⟨rfl, rfl, rfl⟩
  · refine ⟨_, { s.txnOf .probe with phase := if mark then .calling else .waitMark },
      exec_transactionStart mark hm hc rfl, ?_⟩
    rw [State.startWork_eng]
    refine ⟨rfl, rfl, rfl, rfl, rfl, rfl, ?_, rfl, State.startWork_sameMemory mark _⟩
    have hroll : (s.startWork f mark .probe).roll f = { s.roll f with probeOwed := false } := State.roll_setRoll_self s f _
    rw [hroll]

end Sys2Proof.Machine
end

section
/-! The blocking of a feeder: the Tap Directory's hand-offs and then the engine's own (R67, R87, R92). -/

open Sys2Proof

namespace Sys2Proof.Machine

/-! ### Hand-offs in a row -/

/-- Reports handed to the Order Unit lengthen its queue, and touch the Memory Path's turns alone beside it. -/
theorem State.handedAll_eq (s : State) (rs : List OrderReport) :
    ∃ p, s.handedAll rs = { s with path := p, order := { s.order with reports := s.order.reports ++ rs } } := by
  induction rs generalizing s with
  | nil => exact ⟨s.path, by rw [List.append_nil]; rfl⟩
  | cons r rs ih =>
    obtain ⟨p, hp⟩ := ih (s.handed r)
    refine ⟨p, hp.trans ?_⟩
    rw [show (s.handed r).order.reports = s.order.reports ++ [r] from rfl, List.append_assoc]
    rfl

theorem State.doTask_awaitBlocked {s : State} (f : Feeder) (h : s.dir.work = []) :
    s.doTask (.awaitBlocked f) = (s, none) := by
  simp [State.doTask, h]

/-- The entry of an enumeration that ended BLOCKED, with the taps it had placed (R87, R92). -/
def blockedDone (f : Feeder) (minute n : Nat) : AlarmEntry :=
  AlarmEntry.mk .enumerationDone .minor (.feeder f) minute (word (countField n + 2 ^ 8 * Ending.blocked.code))

theorem State.doTask_enumDone {s : State} (f : Feeder) (n : Nat) (hp : s.run.part = .running)
    (h : s.log.intake.length < Config.intakeDepth) :
    s.doTask (enumDone f n .blocked) = (s.alarmed (blockedDone f s.time.minute n), none) :=
  State.doTask_alarm _ _ _ _ hp h

/-! ### The engine as it enters BLOCKED (R67) -/

/-- The reports of the transaction that a blocked engine gives up: of an order's READ or SET PORT, not yet ended (R67). -/
def Engine.givenUp (x : Engine) : List OrderReport :=
  match x.txn with
  | some t => if t.ended = false ∧ t.probe = false ∧ (t.cmd = .read ∨ t.cmd = .setPort)
    then [.outcome t.cmd t.entry t.port .failed] else []
  | none => []

theorem Engine.blockedOutcome_eq (x : Engine) : x.blockedOutcome = x.givenUp.map Task.orderReport := by
  unfold Engine.blockedOutcome Engine.givenUp
  cases x.txn with
  | none => rfl
  | some t =>
    simp only [Bool.and_eq_true, Bool.not_eq_true', Bool.or_eq_true, beq_iff_eq, and_assoc]
    split <;> rfl

theorem Engine.givenUp_length (x : Engine) : x.givenUp.length ≤ 1 := by
  unfold Engine.givenUp
  split
  · split <;> simp
  · simp

/-- The state with the engine BLOCKED and its check timer started, before any hand-off. -/
def State.blockedNow (s : State) (f : Feeder) (cut : Bool) : State :=
  (s.setEng f ((s.eng f).blocked s.now cut)).setBlockedCheck f (Timer.start Config.blockedCheckTicks)

section
variable {s : State} {f : Feeder}

theorem State.blockedNow_eng (s : State) (f : Feeder) (cut : Bool) :
    (s.blockedNow f cut).eng f = (s.eng f).blocked s.now cut := State.eng_setEng_self s f _

theorem State.blockedNow_timer (s : State) (f : Feeder) (cut : Bool) :
    (s.blockedNow f cut).time.blockedCheck[f] = Timer.start 60 := Vector.getElem_set_self _

theorem State.blockFeeder_eq (cut : Bool) (alarm : Task) (ho : (s.eng f).outcome = none) :
    s.blockFeeder f cut alarm =
      (((s.blockedNow f cut).blockEnum f (s.eng f)).1.pushCalls
        ((s.eng f).givenUp.map Task.orderReport ++ (((s.blockedNow f cut).blockEnum f (s.eng f)).2 ++ [.blockedOver f]))).push
        (.engine f) [.awaitBlocked f, .orderReport (.blocked f), alarm] := by
  unfold State.blockFeeder State.takeHanded
  rw [ho, ← Engine.blockedOutcome_eq, ← List.append_assoc]
  rfl

/-- The directory has no work left and the engine none yet, and the queues have room for a report and an alarm. -/
structure State.CanHand (s : State) (f : Feeder) : Prop where
  dirWork : s.dir.work = []
  work : (s.eng f).work = []
  part : s.run.part = .running
  reports : s.order.reports.length < Config.orderReportDepth
  intake : s.log.intake.length < Config.intakeDepth

/-- The engine's own hand-offs, the directory having made its own: the blocked report and the alarm. -/
theorem State.push_blockedReport (k : AlarmKind) (v : Word) (h : s.CanHand f) :
    s.push (.engine f) [.awaitBlocked f, .orderReport (.blocked f), .alarm k .critical (.feeder f) v none] =
      (s.handed (.blocked f)).alarmed (AlarmEntry.mk k .critical (.feeder f) s.time.minute v) := by
  have hidle : s.workOf (.engine f) = [] := h.work
  have halarm := State.doTask_alarm (s := s.handed (.blocked f)) k .critical (.feeder f) v h.part h.intake
  rw [State.push_idle _ _ _ hidle, State.runTasks_go _ _ _ _ _ (State.doTask_awaitBlocked f h.dirWork),
    State.runTasks_go _ _ _ _ _ (State.doTask_orderReport _ h.reports), State.runTasks_go _ _ _ _ _ halarm,
    State.runTasks_nil]
  exact State.setWork_nil (b := .engine f) h.work

end

/-! ### The end of an enumeration that leaves no entry pending (R92) -/

/-- What the end of an enumeration leaves of the state: all but the verification flags, the roll call and its timer. -/
structure State.EnumLeft (s t : State) (f : Feeder) : Prop where
  eng : t.eng f = { s.eng f with enum := none }
  others : ∀ g, g ≠ f → t.eng g = s.eng g
  entries : ∀ e, (t.entry e).misses = (s.entry e).misses ∧ (t.entry e).state = (s.entry e).state ∧
    (t.entry e).place = (s.entry e).place
  dirWork : t.dir.work = s.dir.work
  order : t.order = s.order
  corr : t.corr = s.corr
  log : t.log = s.log
  run : t.run = s.run
  minute : t.time.minute = s.time.minute
  blockedCheck : t.time.blockedCheck = s.time.blockedCheck

section
variable {s : State} {f : Feeder} {en : Enum}

theorem State.enumVerify_entry (s : State) (f : Feeder) (en : Enum) (ending : Ending) (e : EntryId) :
    ((s.enumVerify f en ending).entry e).misses = (s.entry e).misses ∧
      ((s.enumVerify f en ending).entry e).state = (s.entry e).state ∧
      ((s.enumVerify f en ending).entry e).place = (s.entry e).place := by
  simp only [State.enumVerify, State.entry, Fin.getElem_fin, Vector.getElem_map]
  split <;> exact ⟨rfl, rfl, rfl⟩

/-- The new cycle of the roll call changes that roll call, and starts its timer or not. -/
theorem State.enumNewCycle_eq (s : State) (f : Feeder) :
    ∃ r ts, s.enumNewCycle f = { s with
      dir := { s.dir with rolls := s.dir.rolls.set f r }, time := { s.time with pacing := ts } } := by
  unfold State.enumNewCycle
  rw [State.newCycle, State.setRoll_setRoll]
  dsimp only
  split
  · exact ⟨_, _, rfl⟩
  · exact ⟨_, s.time.pacing, rfl⟩

theorem State.enumEnd_blocked (h : en.mode = .extend ∨ s.pendingFor f = []) :
    ∃ t, s.enumEnd f en .blocked = (t, [enumDone f en.count .blocked, .corrReport (.enumEnd f), .enumOver f]) ∧
      s.EnumLeft t f := by
  have hgone : (if en.mode = .fresh then s.pendingFor f else []) = [] := by
    rcases h with h | h <;> simp [h]
  have hcycle : ∃ rolls pacing, (if en.mode = .fresh ∧ Ending.blocked ≠ .forgetFailed ∧ Ending.blocked ≠ .outageOpen then
      (s.enumVerify f en .blocked).enumNewCycle f else s.enumVerify f en .blocked) = { s.enumVerify f en .blocked with
        dir := { (s.enumVerify f en .blocked).dir with rolls := rolls }, time := { s.time with pacing := pacing } } := by
    split
    · obtain ⟨r, pacing, h⟩ := (s.enumVerify f en .blocked).enumNewCycle_eq f
      exact ⟨_, pacing, h⟩
    · exact ⟨_, s.time.pacing, rfl⟩
  obtain ⟨rolls, pacing, hcycle⟩ := hcycle
  refine ⟨_, by unfold State.enumEnd; rw [hgone]; rfl, ?_⟩
  dsimp only [List.foldl_nil]
  rw [hcycle]
  exact ⟨State.eng_setEng_self _ f _, fun g hg => State.eng_setEng_ne _ _ hg, s.enumVerify_entry f en .blocked, rfl, rfl,
    rfl, rfl, rfl, rfl, rfl⟩

/-- An engine that is BLOCKED stays so when its enumeration is over (R92.5). -/
theorem State.enumOver_blocked (h : (s.eng f).state = .blocked) (he : (s.eng f).enum = none) : s.enumOver f = s := by
  have hself : { s.eng f with enum := none, state := (s.eng f).state } = s.eng f := by rw [← he]
  unfold State.enumOver
  dsimp only
  rw [if_neg (by rw [h]; decide), hself]
  exact congrArg (fun v => { s with engines := v }) (Vector.set_getElem_self f.isLt)

end

/-! ### The commands that block a feeder (R65, R66) -/

section
variable {s : State} {f : Feeder}

theorem EngState.live_iff (x : EngState) : x.live = true ↔ x = .ready ∨ x = .talking ∨ x = .enumerating := by
  cases x <;> decide

theorem exec_lineStuck (hp : s.run.part = .running) (hl : (s.eng f).state.live = true) (hd : (s.eng f).driving = false) :
    exec (.lineStuck f) s = .next (s.blockFeeder f false (.alarm .feederBlocked .critical (.feeder f) 0 none)) := by
  refine congrArg _ (show doLineStuck f s = _ from ?_)
  simp [doLineStuck, State.inService, hp, hl, hd]

theorem exec_transmitterFault (hp : s.run.part = .running) (hl : (s.eng f).state.live = true)
    (hd : (s.eng f).driving = true) : exec (.transmitterFault f) s =
      .next (s.blockFeeder f true (.alarm .transmitterFault .critical (.feeder f) (word (s.eng f).callCode) none)) := by
  refine congrArg _ (show doTransmitterFault f s = _ from ?_)
  simp [doTransmitterFault, State.inService, hp, hl, hd]

/-- The two faults of a line that block its feeder, with the alarm and its value. -/
theorem exec_lineFault {c : Instr} {k : AlarmKind} {v : Word} (hp : s.run.part = .running) (hl : (s.eng f).state.live = true)
    (h : c = .lineStuck f ∧ (s.eng f).driving = false ∧ k = .feederBlocked ∧ v = 0 ∨
      c = .transmitterFault f ∧ (s.eng f).driving = true ∧ k = .transmitterFault ∧ v = word (s.eng f).callCode) :
    ∃ cut, exec c s = .next (s.blockFeeder f cut (.alarm k .critical (.feeder f) v none)) := by
  rcases h with ⟨rfl, hd, rfl, rfl⟩ | ⟨rfl, hd, rfl, rfl⟩
  · exact ⟨false, exec_lineStuck hp hl hd⟩
  · exact ⟨true, exec_transmitterFault hp hl hd⟩

/-! ### A feeder that is blocked, its hand-offs finding room (R67) -/

/-- The hand-offs of the Tap Directory at a blocking, given what its part of it (`blockEnum`) leaves and hands, end in a
state `w` without work; the engine's own follow. -/
theorem State.blockFeeder_handed {r w : State} {middle : List Task} (cut : Bool) (k : AlarmKind) (v : Word)
    (ho : (s.eng f).outcome = none) (hb : (s.blockedNow f cut).blockEnum f (s.eng f) = (r, middle))
    (hrd : r.dir.work = []) (hroom : r.order.reports.length + 2 ≤ Config.orderReportDepth)
    (hrun : State.runTasks .directory (middle ++ [.blockedOver f]) (r.handedAll (s.eng f).givenUp) =
      w.setWork .directory []) (hw : w.CanHand f) :
    s.blockFeeder f cut (.alarm k .critical (.feeder f) v none) =
      (w.handed (.blocked f)).alarmed (AlarmEntry.mk k .critical (.feeder f) w.time.minute v) := by
  have hlen := (s.eng f).givenUp_length
  have hdir : r.pushCalls ((s.eng f).givenUp.map Task.orderReport ++ (middle ++ [.blockedOver f])) = w := by
    rw [State.pushCalls_done hrd ((State.runTasks_reports _ _ _ _ (by omega)).trans hrun)]
    exact State.setWork_nil (b := .directory) hw.dirWork
  rw [State.blockFeeder_eq cut _ ho, hb, hdir]
  exact State.push_blockedReport k v hw

/-- A feeder without an enumeration: a request not taken is dropped, and nothing of the directory's changes. -/
theorem State.blockFeeder_idle (hq : s.quiet) (hp : s.run.part = .running) (cut : Bool) (k : AlarmKind) (v : Word)
    (ho : (s.eng f).outcome = none) (hroom : s.order.reports.length + 2 ≤ Config.orderReportDepth)
    (hlog : s.log.intake.length + 2 ≤ Config.intakeDepth) (hen : (s.eng f).enum = none) :
    ∃ p, s.blockFeeder f cut (.alarm k .critical (.feeder f) v none) = { s.blockedNow f cut with
      path := p
      order := { s.order with reports := s.order.reports ++ (s.eng f).givenUp ++ [.blocked f] }
      log := { s.log with intake := s.log.intake ++
        (if (s.eng f).request.isSome then [blockedDone f s.time.minute 0] else []) ++
        [AlarmEntry.mk k .critical (.feeder f) s.time.minute v] } } := by
  have hd : s.dir.work = [] := hq.1 .directory
  have hw : (s.blockedNow f cut |>.eng f).work = [] := by
    rw [State.blockedNow_eng]
    exact hq.1 (.engine f)
  have hlen := (s.eng f).givenUp_length
  obtain ⟨p, hh⟩ := (s.blockedNow f cut).handedAll_eq (s.eng f).givenUp
  have hb : (s.blockedNow f cut).blockEnum f (s.eng f) =
      (s.blockedNow f cut, if (s.eng f).request.isSome then [enumDone f 0 .blocked] else []) := by
    simp only [State.blockEnum, hen]
  have hreports : (s.order.reports ++ (s.eng f).givenUp).length < Config.orderReportDepth := by
    rw [List.length_append]
    omega
  have hintake (a : AlarmEntry) : (s.log.intake ++ [a]).length < Config.intakeDepth := by
    rw [List.length_append, List.length_singleton]
    omega
  have hlog1 : s.log.intake.length < Config.intakeDepth := by omega
  cases hreq : (s.eng f).request.isSome with
  | false =>
    rw [hreq] at hb
    have hcan : ((s.blockedNow f cut).handedAll (s.eng f).givenUp).CanHand f := by
      rw [hh]
      exact ⟨hd, hw, hp, hreports, hlog1⟩
    rw [State.blockFeeder_handed cut k v ho hb hd hroom rfl hcan, hh, if_neg Bool.false_ne_true, List.append_nil]
    exact ⟨_, rfl⟩
  | true =>
    rw [hreq] at hb
    have hdone := State.doTask_enumDone (s := (s.blockedNow f cut).handedAll (s.eng f).givenUp) f 0 (by rw [hh]; exact hp)
      (by rw [hh]; exact hlog1)
    rw [State.blockFeeder_handed cut k v ho hb hd hroom (State.runTasks_go _ _ _ _ _ hdone)
      (by rw [hh]; exact ⟨hd, hw, hp, hreports, hintake _⟩), hh]
    exact ⟨_, rfl⟩

/-- The state when the end of an enumeration ended BLOCKED has been logged and reported. -/
def State.endReported (s : State) (f : Feeder) (n : Nat) : State :=
  (s.alarmed (blockedDone f s.time.minute n)).told (.enumEnd f)

theorem State.runTasks_enumBlocked (n : Nat) (hp : s.run.part = .running) (hl : s.log.intake.length < Config.intakeDepth)
    (hc : s.corr.reports.length < Config.corrReportDepth) (hb : (s.eng f).state = .blocked) (he : (s.eng f).enum = none) :
    State.runTasks .directory ([enumDone f n .blocked, .corrReport (.enumEnd f), .enumOver f] ++ [.blockedOver f]) s =
      (s.endReported f n).setWork .directory [] := by
  have htold : (s.alarmed (blockedDone f s.time.minute n)).doTask (.corrReport (.enumEnd f)) = (s.endReported f n, none) :=
    State.doTask_corrReport _ hc
  have hover : (s.endReported f n).doTask (.enumOver f) = (s.endReported f n, none) :=
    congrArg (·, none) (State.enumOver_blocked (s := s.endReported f n) hb he)
  rw [List.cons_append, State.runTasks_go _ _ _ _ _ (State.doTask_enumDone f n hp hl), List.cons_append,
    State.runTasks_go _ _ _ _ _ htold, List.cons_append, State.runTasks_go _ _ _ _ _ hover]
  rfl

/-- An ENUMERATING feeder of which no entry is left pending: the enumeration ends BLOCKED, with its entry in the log and its
end report. -/
theorem State.blockFeeder_enumerating {en : Enum} (hq : s.quiet) (hp : s.run.part = .running) (cut : Bool) (k : AlarmKind)
    (v : Word) (ho : (s.eng f).outcome = none) (hroom : s.order.reports.length + 2 ≤ Config.orderReportDepth)
    (hlog : s.log.intake.length + 2 ≤ Config.intakeDepth) (hcorr : s.corr.reports.length < Config.corrReportDepth)
    (hen : (s.eng f).enum = some en) (hreq : (s.eng f).request = none)
    (hgone : en.mode = .extend ∨ s.pendingFor f = []) :
    ∃ p r, (s.blockedNow f cut).EnumLeft r f ∧ s.blockFeeder f cut (.alarm k .critical (.feeder f) v none) = { r with
      path := p
      order := { r.order with reports := r.order.reports ++ (s.eng f).givenUp ++ [.blocked f] }
      corr := { r.corr with reports := r.corr.reports ++ [.enumEnd f] }
      log := { r.log with intake := r.log.intake ++ [blockedDone f r.time.minute en.count] ++
        [AlarmEntry.mk k .critical (.feeder f) r.time.minute v] } } := by
  obtain ⟨r, hend, hleft⟩ := State.enumEnd_blocked (s := s.blockedNow f cut) (f := f) hgone
  have hb : (s.blockedNow f cut).blockEnum f (s.eng f) =
      (r, [enumDone f en.count .blocked, .corrReport (.enumEnd f), .enumOver f]) := by
    simp [State.blockEnum, hen, hend, hreq]
  have hlen := (s.eng f).givenUp_length
  have hreports : (s.order.reports ++ (s.eng f).givenUp).length < Config.orderReportDepth := by
    rw [List.length_append]
    omega
  have hintake (a : AlarmEntry) : (s.log.intake ++ [a]).length < Config.intakeDepth := by
    rw [List.length_append, List.length_singleton]
    omega
  have heng : r.eng f = { (s.eng f).blocked s.now cut with enum := none } := by rw [hleft.eng, State.blockedNow_eng]
  have hd : r.dir.work = [] := hleft.dirWork.trans (hq.1 .directory)
  have hw : (r.eng f).work = [] := by
    rw [heng]
    exact hq.1 (.engine f)
  have hrp : r.run.part = .running := (congrArg RunControl.part hleft.run).trans hp
  have hro : r.order = s.order := hleft.order
  have hrl : r.log = s.log := hleft.log
  have hrc : r.corr = s.corr := hleft.corr
  obtain ⟨p, hh⟩ := r.handedAll_eq (s.eng f).givenUp
  have hrun := State.runTasks_enumBlocked (s := r.handedAll (s.eng f).givenUp) (f := f) en.count (by rw [hh]; exact hrp)
    (by rw [hh, hrl]; omega) (by rw [hh, hrc]; exact hcorr)
    (by rw [hh]; exact (congrArg Engine.state heng)) (by rw [hh]; exact congrArg Engine.enum heng)
  have hcan : ((r.handedAll (s.eng f).givenUp).endReported f en.count).CanHand f := by
    rw [hh, hro]
    exact ⟨hd, hw, hrp, hreports, by rw [← hrl] at hintake; exact hintake _⟩
  rw [State.blockFeeder_handed cut k v ho hb hd (by rw [hro]; exact hroom) hrun hcan, hh]
  exact ⟨_, r, hleft, rfl⟩

/-- With no room for the blocked report, the engine's hand-offs wait with it. -/
theorem State.blockFeeder_full (hq : s.quiet) (cut : Bool) (alarm : Task) (hx : (s.eng f).txn = none)
    (ho : (s.eng f).outcome = none) (hen : (s.eng f).enum = none) (hreq : (s.eng f).request = none)
    (hfull : s.order.reports.length = Config.orderReportDepth) : s.blockFeeder f cut alarm =
      (s.blockedNow f cut).setWork (.engine f) [.orderReport (.blocked f), alarm] := by
  have hd : (s.blockedNow f cut).dir.work = [] := hq.1 .directory
  have hw : (s.blockedNow f cut).workOf (.engine f) = [] :=
    (congrArg Engine.work (s.blockedNow_eng f cut)).trans (hq.1 (.engine f))
  have hgiven : (s.eng f).givenUp = [] := by simp only [Engine.givenUp, hx]
  have hb : (s.blockedNow f cut).blockEnum f (s.eng f) = (s.blockedNow f cut, []) := by
    simp [State.blockEnum, hen, hreq]
  have hdir : (s.blockedNow f cut).pushCalls [.blockedOver f] = s.blockedNow f cut :=
    (State.pushCalls_done hd rfl).trans (State.setWork_nil (b := .directory) hd)
  rw [State.blockFeeder_eq cut alarm ho, hb, hgiven, List.map_nil, List.nil_append, List.nil_append, hdir,
    State.push_idle _ _ _ hw, State.runTasks_go _ _ _ _ _ (State.doTask_awaitBlocked f hd),
    State.runTasks_wait _ _ _ _ _ _ (State.doTask_orderReport_full (s := s.blockedNow f cut) _ hfull)]

end

/-! ### Blocked lines and their checks (R65–R68) -/

theorem exec_blockedLineCheckExpiry {s : State} {f : Feeder} (h : 0 < s.time.blockedCheck[f].due)
    (hb : (s.eng f).state = .blocked) : exec (.blockedLineCheckExpiry f) s =
      .next ((s.setBlockedCheck f s.time.blockedCheck[f].take).setEng f { s.eng f with checking := true }) :=
  congrArg _ (if_pos ⟨h, hb⟩)

/-- The state when a feeder's line has been found clear, before FEEDER CLEAR (R67, R85). -/
def State.cleared (s : State) (f : Feeder) : State :=
  ((s.setEng f { s.eng f with state := .ready, checking := false, cut := false, mark := true, watch := 0 }).setBlockedCheck f
    Timer.stopped).verifyFeeder f

theorem exec_feederClear {s : State} {f : Feeder} (hc : (s.eng f).checking = true) (hb : (s.eng f).state = .blocked) :
    exec (.feederClear f) s = .next ((s.cleared f).push (.engine f) [.alarm .feederClear .info (.feeder f)
      (word (min 65535 (s.time.minute - (s.eng f).blockedSince))) none]) := by
  refine congrArg _ (show doFeederClear f s = _ from ?_)
  simp only [doFeederClear, hc, hb, beq_self_eq_true, Bool.and_self, if_true]
  rfl

theorem State.cleared_eng (s : State) (f : Feeder) : (s.cleared f).eng f =
    { s.eng f with state := .ready, checking := false, cut := false, mark := true, watch := 0 } := State.eng_setEng_self s f _

theorem State.cleared_verify (s : State) (f : Feeder) (e : EntryId) :
    ((s.cleared f).entry e).verify = ((s.entry e).verify || (s.entry e).on f) := by
  simp only [State.cleared, State.verifyFeeder, State.entry, Fin.getElem_fin, Vector.getElem_map]
  cases h : s.dir.pool[e.val].on f <;> simp [h]

/-- Settles O45: the blocking by the state of the engine, then the blocked-line check and its end. -/
theorem lineFaults : Obligations.LineFaults := by
  unfold Obligations.LineFaults
  refine ⟨fun s f hc hb hw => ?_, fun s f hq hp hlog => ⟨fun c k v hcase ho hroom hlog2 => ⟨fun hs hen => ?_,
    fun en hs hen hreq hgone hcorr => ?_⟩, fun hs hx ho hen hreq hfull => ?_, fun hdue hb => ?_, fun hc => ?_,
    fun hc hb => ?_⟩⟩
  · have heng := s.cleared_eng f
    have hwork : ((s.cleared f).eng f).work = (s.eng f).work := by rw [heng]
    have hbusy : (s.cleared f).workOf (.engine f) ≠ [] := fun h => hw (hwork.symm.trans h)
    rw [exec_feederClear hc hb, State.push_busy _ _ _ hbusy]
    refine ⟨_, rfl, ?_, rfl, ?_, fun _ => rfl⟩
    · exact (congrArg Engine.state (State.eng_setEng_self _ f _)).trans (congrArg Engine.state heng)
    · exact (congrArg Engine.work (State.eng_setEng_self _ f _)).trans (congrArg (· ++ _) hwork)
  · have hlive : (s.eng f).state.live = true := (EngState.live_iff _).2 (hs.elim .inl fun h => .inr (.inl h))
    obtain ⟨cut, hexec⟩ := exec_lineFault hp hlive hcase
    obtain ⟨p, hstate⟩ := State.blockFeeder_idle hq hp cut k v ho hroom hlog2 hen
    have heng := s.blockedNow_eng f cut
    rw [hstate] at hexec
    exact ⟨_, hexec, ⟨congrArg Engine.state heng, congrArg Engine.txn heng, (congrArg Engine.enum heng),
      congrArg Engine.request heng, congrArg Engine.blockedSince heng, s.blockedNow_timer f cut, rfl,
      fun g hg => State.eng_setEng_ne s _ hg, fun _ => rfl⟩, rfl, rfl, rfl⟩
  · have hlive : (s.eng f).state.live = true := (EngState.live_iff _).2 (.inr (.inr hs))
    obtain ⟨cut, hexec⟩ := exec_lineFault hp hlive hcase
    obtain ⟨p, r, hleft, hstate⟩ := State.blockFeeder_enumerating hq hp cut k v ho hroom hlog2 hcorr hen hreq hgone
    have hmem := (s.blockFeeder_frame f cut (.alarm k .critical (.feeder f) v none)).1
    have heng : r.eng f = { (s.eng f).blocked s.now cut with enum := none } := by rw [hleft.eng, State.blockedNow_eng]
    rw [hstate] at hexec hmem
    refine ⟨_, hexec, ⟨congrArg Engine.state heng, congrArg Engine.txn heng, congrArg Engine.enum heng,
      congrArg Engine.request heng, congrArg Engine.blockedSince heng, ?_, ?_,
      fun g hg => (hleft.others g hg).trans (State.eng_setEng_ne s _ hg), fun a => by rw [hmem]⟩, ?_, hleft.entries, ?_⟩
    · dsimp only
      rw [hleft.blockedCheck]
      exact s.blockedNow_timer f cut
    · dsimp only
      rw [hleft.order]
      rfl
    · dsimp only
      rw [hleft.corr]
      rfl
    · dsimp only
      rw [hleft.log, hleft.minute, List.append_assoc]
      rfl
  · have hdriving : (s.eng f).driving = false := by simp only [Engine.driving, hx]
    have hlive : (s.eng f).state.live = true := (EngState.live_iff _).2 (.inl hs)
    rw [exec_lineStuck hp hlive hdriving, State.blockFeeder_full hq _ _ hx ho hen hreq hfull]
    refine ⟨_, rfl, ?_, rfl, rfl, rfl, congrArg Engine.work (State.eng_setEng_self _ f _), fun _ => rfl⟩
    exact (congrArg Engine.state (State.eng_setEng_self _ f _)).trans (congrArg Engine.state (s.blockedNow_eng f false))
  · refine ⟨_, exec_blockedLineCheckExpiry hdue hb, State.eng_setEng_self _ f _, ?_, fun _ => rfl⟩
    rw [State.setEng_time, State.setBlockedCheck_time]
    simp [Timer.take]
  · exact congrArg _ (if_pos hc)
  · have hidle : (s.cleared f).workOf (.engine f) = [] :=
      (congrArg Engine.work (s.cleared_eng f)).trans (hq.1 (.engine f))
    rw [exec_feederClear hc hb, State.push_idle _ _ _ hidle,
      State.runTasks_go _ _ _ _ _ (State.doTask_alarm (s := s.cleared f) _ _ _ _ hp hlog), State.runTasks_nil,
      State.setWork_nil (s := (s.cleared f).alarmed _) (b := .engine f) hidle]
    have heng := s.cleared_eng f
    refine ⟨_, rfl, congrArg Engine.state heng, congrArg Engine.checking heng, ?_, s.cleared_verify f, rfl, fun _ => rfl⟩
    exact congrArg Timer.running (Vector.getElem_set_self _)

end Sys2Proof.Machine
end

section
/-! Characters on the tap line, calls, and their CRC (R49–R51). -/

open Sys2Proof

namespace Sys2Proof.Machine

/-! ### Characters (R49) -/

/-- The data bits of a number, taken one by one, are the number. -/
theorem dataBits_testBit (n x : Nat) : dataBits ((List.range n).map x.testBit) = x % 2 ^ n := by
  induction n generalizing x with
  | zero => simp [dataBits, Nat.mod_one]
  | succ n ih =>
    have hshift : (List.range n).map (x.testBit ∘ Nat.succ) = (List.range n).map (x / 2).testBit :=
      List.map_congr_left fun i _ => Nat.testBit_succ x i
    have hbit : bitOf (x.testBit 0) = x % 2 := by
      rw [Nat.testBit_zero, bitOf]
      split <;> simp_all
    rw [List.range_succ_eq_map, List.map_cons, List.map_map, hshift, dataBits, ih, hbit, pow_succ', Nat.mod_mul]

section
variable (c : Byte)

theorem charLevels_bit (i : Fin 8) : (charLevels c)[i.val + 1]? = some (c.getLsbD i.val) := by
  rw [charLevels, List.cons_append, List.getElem?_cons_succ, List.getElem?_append_left (by simp), List.getElem?_map,
    List.getElem?_range i.isLt]
  rfl

theorem receiveChar_charLevels : receiveChar (charLevels c) = (c, true) := by
  have hbits : ((charLevels c).drop 1).take 8 = (List.range 8).map c.toNat.testBit := rfl
  have hlevel : (charLevels c).getD 9 false = true := rfl
  rw [receiveChar, hbits, hlevel, dataBits_testBit, Nat.mod_eq_of_lt c.isLt, BitVec.ofNat_toNat, BitVec.setWidth_eq]

end

/-! ### Calls (R49, R50) -/

theorem callLevels_length (chars : List Byte) : (callLevels chars).length = 14 + 10 * chars.length := by
  have hchars : (chars.flatMap charLevels).length = 10 * chars.length := by
    induction chars with
    | nil => rfl
    | cons c chars ih =>
      rw [List.flatMap_cons, List.length_append, ih, List.length_cons, show (charLevels c).length = 10 from rfl]
      omega
  rw [callLevels, List.length_append, hchars]
  rfl

/-- The characters of a call stand on the line one after another. -/
theorem charLevels_of_flatMap (chars : List Byte) (i : Nat) (c : Byte) (h : chars[i]? = some c) :
    ((chars.flatMap charLevels).drop (10 * i)).take 10 = charLevels c := by
  induction chars generalizing i with
  | nil => exact nomatch h
  | cons d chars ih =>
    rw [List.flatMap_cons]
    cases i with
    | zero =>
      obtain rfl := Option.some.inj h
      exact List.take_left (l₁ := charLevels d)
    | succ i =>
      have hnext : 10 * (i + 1) = (charLevels d).length + 10 * i := by
        rw [show (charLevels d).length = 10 from rfl]
        omega
      rw [hnext, List.drop_length_add_append]
      exact ih i h

theorem charLevels_of_callLevels (chars : List Byte) (i : Nat) (c : Byte) (h : chars[i]? = some c) :
    ((callLevels chars).drop (14 + 10 * i)).take 10 = charLevels c := by
  have hflag : 14 + 10 * i = openingFlag.length + 10 * i := rfl
  rw [hflag, callLevels, List.drop_length_add_append]
  exact charLevels_of_flatMap chars i c h

/-! ### The CRC and the address check (R50, R51) -/

theorem crcBit_eq (c : Byte) : crcBit c = if c.getLsbD 7 then (c <<< 1) ^^^ 0x07 else c <<< 1 := by
  rw [crcBit, BitVec.msb_eq_getLsbD_last]

theorem crc8_concat (cs : List Byte) (c : Byte) : crc8 (cs ++ [c]) = crcChar (crc8 cs) c := by
  rw [crc8, List.foldl_append]
  rfl

/-- A run of characters with its CRC behind it has the CRC 0. -/
theorem crc8_self (cs : List Byte) : crc8 (cs ++ [crc8 cs]) = 0 := by
  rw [crc8_concat, crcChar, BitVec.xor_self]
  decide

theorem length_filter_eq_sum (p : Nat → Bool) (l : List Nat) : (l.filter p).length = (l.map fun i => bitOf (p i)).sum := by
  induction l with
  | nil => rfl
  | cons i l ih => cases h : p i <;> simp [h, ih, bitOf, Nat.add_comm]

theorem addrOnes_eq (a : Nat) : addrOnes a = bitOf (a.testBit 0) + bitOf (a.testBit 1) + bitOf (a.testBit 2) +
    bitOf (a.testBit 3) + bitOf (a.testBit 4) + bitOf (a.testBit 5) := by
  rw [addrOnes, length_filter_eq_sum]
  simp [List.range_succ, Nat.add_assoc]

theorem addrChar_toNat (a : Nat) : (addrChar a).toNat = a % 64 + 64 * (addrOnes a % 4) := by
  rw [addrChar, BitVec.toNat_ofNat]
  omega

end Sys2Proof.Machine
end

section
/-! The taps as the part relies on them (R52–R56), and their calls (O41). -/

open Sys2Proof

namespace Sys2Proof.Machine

/-! ### Calls as a tap reads them (R50, R53–R56) -/

/-- The payload length of a command's call (R53, R54). -/
def TapCmd.callLen : TapCmd → Nat
  | .setPort => 3 | .assign => 5 | _ => 0

/-- What the payload of a call must hold (R53, R54, R56): a port, or a position. -/
def TapCmd.payloadGood (cmd : TapCmd) (payload : List Byte) : Prop :=
  match cmd with
  | .setPort => (charAt payload 0).toNat ≤ 3
  | .assign => 1 ≤ (charAt payload 0).toNat ∧ (charAt payload 0).toNat ≤ 62
  | _ => True

theorem callCommand_iff (c : Byte) (cmd : TapCmd) : callCommand c = some cmd ↔ c.toNat = cmd.code + 16 * cmd.callLen := by
  unfold callCommand
  split <;> cases cmd <;> simp_all [TapCmd.code, TapCmd.callLen]

theorem callCommand_mem {c : Byte} {cmd : TapCmd} (h : callCommand c = some cmd) :
    c ∈ ([0x01, 0x32, 0x03, 0x54, 0x05] : List Byte) := by
  have hc : c = BitVec.ofNat 8 (cmd.code + 16 * cmd.callLen) := by
    rw [← (callCommand_iff c cmd).1 h, BitVec.ofNat_toNat, BitVec.setWidth_eq]
  rw [hc]
  cases cmd <;> decide

/-- A call that a tap can act on has a good CRC and address check, a command with its payload length, and a payload in
range. -/
theorem readCall_iff (chars : List Byte) (addr : Nat) (cmd : TapCmd) (payload : List Byte) :
    readCall chars = some (addr, cmd, payload) ↔ ∃ a c r, chars = a :: c :: r ∧ addr = a.toNat % 64 ∧ payload = r.dropLast ∧
      callCommand c = some cmd ∧ crc8 chars.dropLast = chars.getLastD 0 ∧ a = addrChar (a.toNat % 64) ∧
      r.length = c.toNat / 16 + 1 ∧ cmd.payloadGood payload := by
  constructor
  · intro h
    unfold readCall at h
    split at h
    · next a c r =>
      split at h
      · next cmd' hcmd =>
        dsimp only at h
        split at h
        · next hgood =>
          obtain ⟨hcrc, haddr, hlen⟩ := hgood
          refine ⟨a, c, r, rfl, ?_⟩
          have haddr' : a = addrChar (a.toNat % 64) := by simpa [addrCheckGood] using haddr
          cases cmd' with
          | setPort =>
            obtain ⟨hport, heq⟩ := Option.ite_none_right_eq_some.1 h
            cases heq
            exact ⟨rfl, rfl, hcmd, hcrc, haddr', hlen, hport⟩
          | assign =>
            obtain ⟨hpos, heq⟩ := Option.ite_none_right_eq_some.1 h
            cases heq
            exact ⟨rfl, rfl, hcmd, hcrc, haddr', hlen, hpos⟩
          | _ =>
            cases h
            exact ⟨rfl, rfl, hcmd, hcrc, haddr', hlen, trivial⟩
        · exact nomatch h
      · exact nomatch h
    · exact nomatch h
  · rintro ⟨a, c, r, rfl, rfl, rfl, hcmd, hcrc, haddr, hlen, hgood⟩
    have haddr' : addrCheckGood a = true := by rw [addrCheckGood, ← haddr]; exact beq_self_eq_true a
    unfold readCall
    simp only [hcmd, if_pos (And.intro hcrc (And.intro haddr' hlen))]
    cases cmd with
    | setPort => exact if_pos hgood
    | assign => exact if_pos hgood
    | _ => rfl


/-- The call of a command with its payload, whole: what a tap reads of it. -/
theorem readCall_callChars {addr : Nat} {cmd : TapCmd} {payload : List Byte} (ha : addr < 64)
    (hlen : payload.length = cmd.callLen) (hgood : cmd.payloadGood payload) :
    readCall (callChars addr cmd payload) = some (addr, cmd, payload) := by
  have haddr : (addrChar addr).toNat % 64 = addr := by
    rw [addrChar_toNat]
    omega
  have hcmd : (BitVec.ofNat 8 (cmd.code + 16 * payload.length)).toNat = cmd.code + 16 * cmd.callLen := by
    rw [hlen]
    cases cmd <;> rfl
  refine (readCall_iff _ _ _ _).2 ⟨addrChar addr, BitVec.ofNat 8 (cmd.code + 16 * payload.length), payload ++ [_], rfl,
    haddr.symm, List.dropLast_concat.symm, (callCommand_iff _ _).2 hcmd, ?_, by rw [haddr], ?_, hgood⟩
  · rw [callChars, List.dropLast_concat, List.getLastD_concat]
  · rw [hcmd, List.length_append, hlen]
    cases cmd <;> rfl

/-- Whatever a tap reads of a call is what the call was made of. -/
theorem eq_of_readCall_callChars {addr n : Nat} {cmd c : TapCmd} {payload p : List Byte}
    (h : readCall (callChars addr cmd payload) = some (n, c, p)) : n = addr % 64 ∧ c = cmd ∧ p = payload := by
  obtain ⟨a, d, r, hchars, rfl, rfl, hcmd, -⟩ := (readCall_iff _ _ _ _).1 h
  injection hchars with ha hrest
  injection hrest with hd hr
  rw [callCommand_iff, ← hd, BitVec.toNat_ofNat] at hcmd
  refine ⟨?_, ?_, ?_⟩
  · rw [← ha, addrChar_toNat]
    omega
  · have hcodes : cmd.code % 16 = c.code % 16 := by omega
    revert hcodes
    cases cmd <;> cases c <;> decide
  · rw [← hr]
    exact List.dropLast_concat

/-! ### A tap that hears a call (R53–R55) -/

section
variable {t : Tap} {chars : List Byte}

theorem Tap.hear_unread (h : readCall chars = none) : t.hear chars = (t, none) := by
  rw [Tap.hear, h]

/-- An addressed tap lets pass a READ or SET PORT to another position, and every IDENTIFY and ASSIGN. -/
theorem Tap.hear_passed {n addr : Nat} {cmd : TapCmd} (payload : List Byte) (hn : t.pos = some n)
    (h : (cmd = .read ∨ cmd = .setPort) ∧ addr % 64 ≠ n ∨ cmd = .identify ∨ cmd = .assign) :
    t.hear (callChars addr cmd payload) = (t, none) := by
  rcases hr : readCall (callChars addr cmd payload) with _ | ⟨m, c, p⟩
  · exact Tap.hear_unread hr
  · obtain ⟨rfl, rfl, rfl⟩ := eq_of_readCall_callChars hr
    rcases h with ⟨rfl | rfl, hne⟩ | rfl | rfl <;> simp [Tap.hear, *]

/-- An unaddressed tap lets pass every READ, SET PORT and FORGET. -/
theorem Tap.hear_passed_unaddressed {addr : Nat} {cmd : TapCmd} (payload : List Byte) (hn : t.pos = none)
    (h : cmd = .read ∨ cmd = .setPort ∨ cmd = .forget) : t.hear (callChars addr cmd payload) = (t, none) := by
  rcases hr : readCall (callChars addr cmd payload) with _ | ⟨m, c, p⟩
  · exact Tap.hear_unread hr
  · obtain ⟨rfl, rfl, rfl⟩ := eq_of_readCall_callChars hr
    have hforgotten : { t with pos := none } = t := by rw [← hn]
    rcases h with rfl | rfl | rfl <;> simp [Tap.hear, hr, hn, hforgotten]

end

/-! ### Answers (R52–R54) -/

section
variable (t : Tap) (n : Nat) (payload : List Byte)

theorem Tap.answerCrcGood_answer : answerCrcGood n (t.answer n payload) = true := by
  rw [answerCrcGood, Tap.answer, List.getLast?_concat, List.dropLast_concat]
  exact beq_self_eq_true _

theorem Tap.answer_payload : ((t.answer n payload).drop 1).dropLast = payload := List.dropLast_concat

theorem Tap.answer_flags : statusFlag (t.answer n payload) 0 = t.tamper ∧ statusFlag (t.answer n payload) 1 = t.low ∧
    statusFlag (t.answer n payload) 2 = t.gateOpen := by
  have hstatus (i : Nat) : statusFlag (t.answer n payload) i = t.status.getLsbD i := rfl
  rw [hstatus, hstatus, hstatus, Tap.status]
  cases t.tamper <;> cases t.low <;> cases t.gateOpen <;> decide

theorem Tap.onFlags_bit (q : Port) : t.onFlags.getLsbD q.val = t.ports[q].on := by
  have hflags : t.onFlags = BitVec.ofNat 8 (bitOf t.ports[(0 : Port)].on + 2 * bitOf t.ports[(1 : Port)].on +
      4 * bitOf t.ports[(2 : Port)].on + 8 * bitOf t.ports[(3 : Port)].on) := by
    simp [Tap.onFlags, List.finRange_succ]
  have hbits : ∀ b0 b1 b2 b3 : Bool, let x := BitVec.ofNat 8 (bitOf b0 + 2 * bitOf b1 + 4 * bitOf b2 + 8 * bitOf b3)
      x.getLsbD 0 = b0 ∧ x.getLsbD 1 = b1 ∧ x.getLsbD 2 = b2 ∧ x.getLsbD 3 = b3 := by decide
  obtain ⟨h0, h1, h2, h3⟩ :=
    hbits t.ports[(0 : Port)].on t.ports[(1 : Port)].on t.ports[(2 : Port)].on t.ports[(3 : Port)].on
  rw [hflags]
  fin_cases q
  exacts [h0, h1, h2, h3]

end

theorem serialOfChars_serialChars (s : Word) (rest : List Byte) : serialOfChars (serialChars s ++ rest) = s := by
  have h : serialOfChars (serialChars s ++ rest) =
    s.extractLsb' 24 8 ++ s.extractLsb' 16 8 ++ s.extractLsb' 8 8 ++ s.extractLsb' 0 8 := rfl
  rw [h]
  ext i hi
  simp only [BitVec.getElem_append, BitVec.getElem_extractLsb']
  (repeat' split) <;> (rw [← BitVec.getLsbD_eq_getElem]; congr 1; omega)

/-- The payload of a READ's answer holds the serial and the port states. -/
theorem readPorts_readPayload (t : Tap) :
    readPorts (serialChars t.serial ++ [t.onFlags] ++ t.ports.toList.map (·.mask)) = t.ports := by
  ext1 i hi
  rw [readPorts, Vector.getElem_ofFn]
  have hflags : charAt (serialChars t.serial ++ [t.onFlags] ++ t.ports.toList.map (·.mask)) 4 = t.onFlags := rfl
  have hmask : charAt (serialChars t.serial ++ [t.onFlags] ++ t.ports.toList.map (·.mask)) (5 + i) = t.ports[i].mask := by
    have hlen : (serialChars t.serial ++ [t.onFlags]).length = 5 := rfl
    rw [charAt, List.getD_eq_getElem?_getD, List.getElem?_append_right (by omega), hlen, Nat.add_sub_cancel_left,
      List.getElem?_map, Vector.getElem?_toList, Vector.getElem?_eq_getElem hi]
    rfl
  rw [hflags, hmask, Tap.onFlags_bit t ⟨i, hi⟩]
  rfl

/-! ### A tap and the calls to it -/

section
variable {t : Tap} {n : Nat}

theorem Tap.hear_read (hn : t.pos = some n) (hlt : n < 64) : t.hear (callChars n .read []) =
    (t, some (t.answer n (serialChars t.serial ++ [t.onFlags] ++ t.ports.toList.map (·.mask)))) := by
  simp [Tap.hear, readCall_callChars (cmd := .read) (payload := []) hlt rfl trivial, hn]

theorem setPortPayload_good (p : Port) (w : PortState) : TapCmd.payloadGood .setPort (setPortPayload p w) := by
  have h : (BitVec.ofNat 8 p.val).toNat ≤ 3 := by
    rw [BitVec.toNat_ofNat]
    omega
  exact h

theorem Tap.hear_setPort (hn : t.pos = some n) (hlt : n < 64) (p : Port) (w : PortState) :
    t.hear (callChars n .setPort (setPortPayload p w)) = ({ t with ports := t.ports.set p w },
      some (Tap.answer { t with ports := t.ports.set p w } n [Tap.onFlags { t with ports := t.ports.set p w }, w.mask])) := by
  have hport : Fin.ofNat 4 (charAt (setPortPayload p w) 0).toNat = p := by
    have hval : (BitVec.ofNat 8 p.val).toNat % 4 = p.val := by
      rw [BitVec.toNat_ofNat]
      omega
    exact Fin.ext hval
  have hstate : PortState.mk ((charAt (setPortPayload p w) 1).toNat != 0) (charAt (setPortPayload p w) 2) = w := by
    obtain ⟨on, mask⟩ := w
    cases on <;> rfl
  have hread := readCall_callChars (cmd := .setPort) (payload := setPortPayload p w) hlt rfl (setPortPayload_good p w)
  simp only [Tap.hear, hread, hn, if_true, hport, hstate, Fin.getElem_fin, Vector.getElem_set_self]

theorem Tap.hear_forget (t : Tap) : t.hear (callChars 63 .forget []) = ({ t with pos := none }, none) := by
  simp [Tap.hear, readCall_callChars (addr := 63) (cmd := .forget) (payload := []) (by decide) rfl trivial]

theorem Tap.hear_identify (hn : t.pos = none) :
    t.hear (callChars 0 .identify []) = (t, some (t.answer 0 (serialChars t.serial))) := by
  simp [Tap.hear, readCall_callChars (addr := 0) (cmd := .identify) (payload := []) (by decide) rfl trivial, hn]

theorem assignPayload_pos {n : Nat} (h : n ≤ 62) (sn : Word) : (charAt (assignPayload n sn) 0).toNat = n := by
  have h : (BitVec.ofNat 8 n).toNat = n := by
    rw [BitVec.toNat_ofNat]
    omega
  exact h

theorem Tap.hear_assign (hn : t.pos = none) (h1 : 1 ≤ n) (h62 : n ≤ 62) (sn : Word) :
    t.hear (callChars 0 .assign (assignPayload n sn)) = if sn = t.serial then
      ({ t with pos := some n }, some (Tap.answer { t with pos := some n } 0 [BitVec.ofNat 8 n])) else (t, none) := by
  have hpos := assignPayload_pos h62 sn
  have hserial : serialOfChars ((assignPayload n sn).drop 1) = sn := serialOfChars_serialChars sn []
  have hread := readCall_callChars (addr := 0) (cmd := .assign) (payload := assignPayload n sn) (by decide) rfl
    ⟨by rw [hpos]; exact h1, by rw [hpos]; exact h62⟩
  have hval : (BitVec.ofNat 8 n).toNat = n := hpos
  have hecho : charAt (assignPayload n sn) 0 = BitVec.ofNat 8 n := rfl
  simp only [Tap.hear, hread, hn, hserial, hecho, hval, true_and]

end

/-! ### A feeder's taps (R55) -/

theorem hearAll_cons (chars : List Byte) (t : Tap) (taps : List Tap) : hearAll chars (t :: taps) =
    ((t.hear chars).1 :: (if t.gateOpen then hearAll chars taps else (taps, [])).1,
      (t.hear chars).2.toList ++ (if t.gateOpen then hearAll chars taps else (taps, [])).2) := rfl

/-- Taps whose gates are open pass a call on. -/
theorem hearAll_append (chars : List Byte) (before beyond : List Tap) (h : ∀ x ∈ before, x.gateOpen = true) :
    hearAll chars (before ++ beyond) = (before.map (fun x => (x.hear chars).1) ++ (hearAll chars beyond).1,
      before.flatMap (fun x => (x.hear chars).2.toList) ++ (hearAll chars beyond).2) := by
  induction before with
  | nil => rfl
  | cons t before ih =>
    obtain ⟨ht, hrest⟩ := List.forall_mem_cons.1 h
    rw [List.cons_append, hearAll_cons, if_pos ht, ih hrest]
    simp

theorem hearAll_closed {chars : List Byte} {t : Tap} (beyond : List Tap) (h : t.gateOpen = false) :
    hearAll chars (t :: beyond) = ((t.hear chars).1 :: beyond, (t.hear chars).2.toList) := by
  simp [hearAll_cons, h]

/-! ### Calls that no tap answers (R56) -/

/-- The payload of a call stands behind its command. -/
theorem charAt_dropLast (a c : Byte) {r : List Byte} (h : 2 ≤ r.length) : charAt r.dropLast 0 = charAt (a :: c :: r) 2 := by
  match r, h with
  | x :: y :: r, _ => rfl

theorem readCall_bad (chars : List Byte) (h : crc8 chars.dropLast ≠ chars.getLastD 0 ∨
    (∃ a, chars[0]? = some a ∧ a ≠ addrChar (a.toNat % 64)) ∨
    (∃ c, chars[1]? = some c ∧ (c ∉ [0x01, 0x32, 0x03, 0x54, 0x05] ∨ chars.length ≠ c.toNat / 16 + 3)) ∨
    (chars[1]? = some 0x32 ∧ 3 < (charAt chars 2).toNat) ∨
    (chars[1]? = some 0x54 ∧ ((charAt chars 2).toNat = 0 ∨ 62 < (charAt chars 2).toNat))) : readCall chars = none := by
  by_contra hsome
  obtain ⟨⟨addr, cmd, payload⟩, hread⟩ := Option.ne_none_iff_exists'.1 hsome
  obtain ⟨a, c, r, rfl, -, rfl, hcmd, hcrc, haddr, hlen, hgood⟩ := (readCall_iff _ _ _ _).1 hread
  rcases h with hbad | ⟨b, hb, hbad⟩ | ⟨d, hd, hbad⟩ | ⟨hd, hbad⟩ | ⟨hd, hbad⟩
  · exact hbad hcrc
  · obtain rfl := Option.some.inj hb
    exact hbad haddr
  · obtain rfl := Option.some.inj hd
    rcases hbad with hbad | hbad
    · exact hbad (callCommand_mem hcmd)
    · exact hbad (by simp [hlen])
  · obtain rfl := Option.some.inj hd
    obtain rfl : TapCmd.setPort = cmd := Option.some.inj hcmd
    have hport : (charAt r.dropLast 0).toNat ≤ 3 := hgood
    rw [charAt_dropLast a 0x32 (by rw [hlen]; decide)] at hport
    omega
  · obtain rfl := Option.some.inj hd
    obtain rfl : TapCmd.assign = cmd := Option.some.inj hcmd
    have hpos : 1 ≤ (charAt r.dropLast 0).toNat ∧ (charAt r.dropLast 0).toNat ≤ 62 := hgood
    rw [charAt_dropLast a 0x54 (by rw [hlen]; decide)] at hpos
    omega

/-- Settles O41: characters and calls on the line, the CRC and the address check, and then an addressed tap, an unaddressed
one, the calls that none answers, and the taps of a feeder in their order. -/
theorem callsCarryTheirCrc : Obligations.CallsCarryTheirCrc := by
  unfold Obligations.CallsCarryTheirCrc
  refine ⟨fun addr cmd payload => ⟨rfl, crc8_self _⟩,
    ⟨fun c => ⟨rfl, rfl, rfl, charLevels_bit c, receiveChar_charLevels c⟩, fun levels h => ?_, fun chars =>
      ⟨callLevels_length chars, List.take_left (l₁ := openingFlag), charLevels_of_callLevels chars⟩, fun _ => rfl, ?_⟩,
    ⟨crcBit_eq, fun _ _ => rfl, rfl, crc8_concat, fun a ha => ?_⟩,
    fun t n hn h1 h62 => ?_, fun t hn => ?_, fun t chars h => Tap.hear_unread (readCall_bad chars h),
    fun chars before beyond t hb ht => ?_, fun chars taps h => ?_, fun t => rfl⟩
  · rw [receiveChar, List.getD_eq_getElem?_getD, h]
    rfl
  · decide
  · rw [addrChar_toNat, addrOnes_eq]
    omega
  · have hopen : t.gateOpen = true := by rw [Tap.gateOpen, hn]; rfl
    obtain ⟨htamper, hlow, hgate⟩ := t.answer_flags n (serialChars t.serial ++ [t.onFlags] ++ t.ports.toList.map (·.mask))
    refine ⟨hopen,
      ⟨_, Tap.hear_read hn (by omega), t.answerCrcGood_answer n _, ?_, htamper, hlow, hgate.trans hopen, ?_, ?_⟩,
      fun p w => ⟨Tap.hear_setPort hn (by omega) p w, Tap.answerCrcGood_answer _ n _, Tap.onFlags_bit _⟩,
      fun cmd addr payload hcmd ha hne => Tap.hear_passed payload hn (.inl ⟨hcmd, ?_⟩),
      fun cmd addr payload hcmd => Tap.hear_passed payload hn (.inr hcmd), t.hear_forget⟩
    · simp [Tap.answer, serialChars]
    · rw [Tap.answer_payload]
      exact serialOfChars_serialChars t.serial _
    · rw [Tap.answer_payload]
      exact readPorts_readPayload t
    · rwa [Nat.mod_eq_of_lt ha]
  · have hclosed : t.gateOpen = false := by rw [Tap.gateOpen, hn]; rfl
    refine ⟨hclosed, ⟨_, Tap.hear_identify hn, t.answerCrcGood_answer 0 _, ?_, ?_⟩,
      fun n sn h1 h62 => ⟨fun hsn => ?_, fun hsn => ?_⟩,
      fun cmd addr payload hcmd => Tap.hear_passed_unaddressed payload hn hcmd⟩
    · rw [gateGood, (t.answer_flags 0 _).2.2, hclosed]
      rfl
    · rw [Tap.answer_payload]
      exact serialOfChars_serialChars t.serial []
    · refine ⟨_, (Tap.hear_assign hn h1 h62 sn).trans (if_pos hsn), Tap.answerCrcGood_answer _ 0 _,
        (Tap.answer_flags _ 0 _).2.2, Tap.answer_payload _ 0 _⟩
    · exact (Tap.hear_assign hn h1 h62 sn).trans (if_neg hsn)
  · rw [hearAll_append chars before _ hb, hearAll_closed beyond ht, List.flatMap_append]
    simp
  · have hall := hearAll_append chars taps [] h
    simpa [hearAll] using hall

end Sys2Proof.Machine
end

section
/-! The enumerate word (O48): how it is judged by the part state, and which feeders hold an accepted request (R86). -/

open Sys2Proof

namespace Sys2Proof.Machine

section
variable {w : Word} {s : State}

/-- An enumerate word that waits first is judged on the state without it. -/
theorem exec_enumerateFresh (hf : s.first .enumerate w) (hm : enumModeField w = 1) :
    exec (.enumerateFresh w) s = .next (s.popped.enumArrival w (some .fresh)) := by
  have he : exec (.enumerateFresh w) s = .next (doEnumerateFresh w s) := rfl
  rw [he, doEnumerateFresh, if_pos hm, State.arrive_spec _ _ _ _ hf]

theorem exec_enumerateExtend (hf : s.first .enumerate w) (hm : enumModeField w = 2) :
    exec (.enumerateExtend w) s = .next (s.popped.enumArrival w (some .extend)) := by
  have he : exec (.enumerateExtend w) s = .next (doEnumerateExtend w s) := rfl
  rw [he, doEnumerateExtend, if_pos hm, State.arrive_spec _ _ _ _ hf]

theorem exec_enumerateBadAction (hf : s.first .enumerate w)
    (h : enumModeField w ≠ 1 ∧ enumModeField w ≠ 2 ∨ enumFeeders w = []) :
    exec (.enumerateBadAction w) s = .next (s.popped.enumArrival w none) := by
  have he : exec (.enumerateBadAction w) s = .next (doEnumerateBadAction w s) := rfl
  have hbad : ¬ ((enumModeField w = 1 ∨ enumModeField w = 2) ∧ enumFeeders w ≠ []) := by
    rintro ⟨hm, hfs⟩
    rcases h with ⟨h1, h2⟩ | h
    · exact hm.elim h1 h2
    · exact hfs h
  rw [he, doEnumerateBadAction, if_neg hbad, State.arrive_spec _ _ _ _ hf]

/-! ### The arrival judged by the part state (R86) -/

theorem State.enumArrival_notRunning (mode : Option EnumMode)
    (h : s.run.part = .idle ∨ s.run.part = .halting ∨ s.run.part = .halted) :
    s.enumArrival w mode = s.answerEnum .notRunning := by
  unfold State.enumArrival
  rcases h with h | h | h <;> rw [h]

theorem State.enumArrival_starting (mode : Option EnumMode) (h : s.run.part = .starting) :
    s.enumArrival w mode = s.answerEnum .busy := by
  unfold State.enumArrival
  rw [h]

theorem State.enumArrival_noMode (h : s.run.part = .running) : s.enumArrival w none = s.answerEnum .badAction := by
  unfold State.enumArrival
  rw [h]

/-- In RUNNING a word of a mode and a feeder set is judged by its feeders. -/
theorem State.enumArrival_judged (m : EnumMode) (h : s.run.part = .running) (hfs : enumFeeders w ≠ []) :
    s.enumArrival w (some m) =
      if (enumFeeders w).any s.enumRefused then s.answerEnum .feeder
      else if m = .fresh ∧ (enumFeeders w).any s.openOutageOn then s.answerEnum .outageOpen
      else ((enumFeeders w).foldl (fun s f => s.setEng f { s.eng f with request := some m }) s).answerEnum .accepted := by
  unfold State.enumArrival
  rw [h]
  cases hw : enumFeeders w with
  | nil => exact absurd hw hfs
  | cons f fs => rfl

/-- The state in which a feeder holds a request. -/
def State.request (m : EnumMode) (s : State) (f : Feeder) : State := s.setEng f { s.eng f with request := some m }

/-- The state in which each feeder of a set holds a request (R86). -/
def State.requested (s : State) (m : EnumMode) (fs : List Feeder) : State := fs.foldl (State.request m) s

theorem State.requested_keeps (s : State) (m : EnumMode) (fs : List Feeder) :
    (s.requested m fs).mem = s.mem ∧ (s.requested m fs).run = s.run ∧ (s.requested m fs).dir = s.dir :=
  ⟨foldl_keeps (·.mem) (State.request m) (fun _ _ => rfl) fs s, foldl_keeps (·.run) (State.request m) (fun _ _ => rfl) fs s,
    foldl_keeps (·.dir) (State.request m) (fun _ _ => rfl) fs s⟩

/-- A request is held by each feeder of the set and by no other. -/
theorem State.requested_eng (s : State) (m : EnumMode) (fs : List Feeder) (g : Feeder) :
    (s.requested m fs).eng g = if g ∈ fs then { s.eng g with request := some m } else s.eng g := by
  induction fs generalizing s with
  | nil => simp [State.requested]
  | cons f fs ih =>
    have hcons : s.requested m (f :: fs) = (s.request m f).requested m fs := rfl
    rw [hcons, ih, State.request]
    by_cases hg : g = f
    · subst hg
      simp
    · rw [State.eng_setEng_ne _ _ hg]
      simp [hg]

/-- An accepted word, of either mode, leaves the request with its feeders. -/
theorem State.enumArrival_accepted (m : EnumMode) (h : s.run.part = .running) (hfs : enumFeeders w ≠ [])
    (hr : ∀ g ∈ enumFeeders w, s.enumRefused g = false)
    (ho : m = .extend ∨ ∀ g ∈ enumFeeders w, s.openOutageOn g = false) :
    s.enumArrival w (some m) = (s.requested m (enumFeeders w)).answerEnum .accepted := by
  have hany : ¬ (enumFeeders w).any s.enumRefused = true := by
    simpa [List.any_eq_true] using hr
  have hout : ¬ (m = .fresh ∧ (enumFeeders w).any s.openOutageOn = true) := by
    rintro ⟨rfl, hany⟩
    obtain ⟨g, hg, hopen⟩ := List.any_eq_true.1 hany
    rcases ho with ho | ho
    · exact nomatch ho
    · exact Bool.false_ne_true ((ho g hg).symm.trans hopen)
  rw [State.enumArrival_judged m h hfs, if_neg hany, if_neg hout]
  rfl

/-- The two words that are accepted, each by the command of its mode. -/
theorem exec_enumerate_accepted {c : Instr} {m : EnumMode} (hf : s.first .enumerate w) (h : s.run.part = .running)
    (hc : c = .enumerateFresh w ∧ m = .fresh ∧ enumModeField w = 1 ∧ (∀ g ∈ enumFeeders w, s.openOutageOn g = false) ∨
      c = .enumerateExtend w ∧ m = .extend ∧ enumModeField w = 2)
    (hfs : enumFeeders w ≠ []) (hr : ∀ g ∈ enumFeeders w, s.enumRefused g = false) :
    exec c s = .next ((s.popped.requested m (enumFeeders w)).answerEnum .accepted) := by
  rcases hc with ⟨rfl, rfl, hm, ho⟩ | ⟨rfl, rfl, hm⟩
  · rw [exec_enumerateFresh hf hm, State.enumArrival_accepted (s := s.popped) .fresh h hfs hr (.inr ho)]
  · rw [exec_enumerateExtend hf hm, State.enumArrival_accepted (s := s.popped) .extend h hfs hr (.inl rfl)]

end

/-- Settles O48, by the part state and then by what the word names. -/
theorem enumerateWords : Obligations.EnumerateWords := by
  unfold Obligations.EnumerateWords
  refine fun w s hf => ⟨fun hp hm => ?_, fun hp hm => ?_, fun hp => ⟨fun hbad => ?_, fun f hmem href hm => ?_,
    fun f hmem hr hopen hm => ?_, fun c m hc hfs hr => ⟨_, exec_enumerate_accepted hf hp hc hfs hr, ?_⟩⟩⟩
  · rw [exec_enumerateFresh hf hm, State.enumArrival_notRunning (s := s.popped) _ hp]
    rfl
  · rw [exec_enumerateExtend hf hm, State.enumArrival_starting (s := s.popped) _ hp]
    rfl
  · rw [exec_enumerateBadAction hf hbad, State.enumArrival_noMode (s := s.popped) hp]
    rfl
  · have hany : (enumFeeders w).any s.popped.enumRefused = true := List.any_eq_true.2 ⟨f, hmem, href⟩
    rw [exec_enumerateExtend hf hm, State.enumArrival_judged (s := s.popped) _ hp (List.ne_nil_of_mem hmem), if_pos hany]
    rfl
  · have hany : ¬ (enumFeeders w).any s.popped.enumRefused = true := by
      rw [List.any_eq_true]
      exact fun ⟨g, hg, h⟩ => Bool.false_ne_true ((hr g hg).symm.trans h)
    have hout : (enumFeeders w).any s.popped.openOutageOn = true := List.any_eq_true.2 ⟨f, hmem, hopen⟩
    rw [exec_enumerateFresh hf hm, State.enumArrival_judged (s := s.popped) _ hp (List.ne_nil_of_mem hmem), if_neg hany,
      if_pos ⟨rfl, hout⟩]
    rfl
  · obtain ⟨hmem, hrun, hdir⟩ := s.popped.requested_keeps m (enumFeeders w)
    have heng := s.popped.requested_eng m (enumFeeders w)
    refine ⟨by rw [State.answerEnum_dir, hdir]; rfl, fun g hg => (heng g).trans (if_pos hg),
      fun g hg => (heng g).trans (if_neg hg), by rw [State.answerEnum_run, hrun]; rfl, fun a => ?_⟩
    rw [State.answerEnum_mem, hmem]
    rfl

end Sys2Proof.Machine
end

section
/-! The loads of a start from IDLE: the Tap Directory's mirror, the Billing Unit's numbers, and the scanner's carrier-loss
counts (O21). -/

open Sys2Proof

namespace Sys2Proof.Machine

/-! ### What a read and a request touch of the state (R176) -/

/-- The end of a block's reads touches the Memory Path alone. -/
theorem State.tookRead_eq (s : State) (r : Requester) : s.tookRead r = { s with path := (s.tookRead r).path } := by
  unfold State.tookRead State.freeRead
  split
  · split <;> rfl
  · rfl

theorem State.tookReads_eq (s : State) (r : Requester) (plan : List ReadReq) :
    s.tookReads r plan = { s with path := (s.tookReads r plan).path } := by
  unfold State.tookReads
  split
  · rfl
  · exact s.tookRead_eq r

/-- A request for a burst touches the Memory Path alone. -/
theorem State.ask_eq (s : State) (r : Requester) (b : Burst) : s.ask r b = { s with path := (s.ask r b).path } := by
  unfold State.ask
  split <;> rfl

/-! ### The mirror (R82) -/

section
variable {s : State} {n : Fin 576}

/-- What mirror entry `n` is taken as. -/
def State.mirrorTaken (s : State) (n : Fin 576) : Entry × Bool × List Task :=
  s.loadEntry (memWords s.mem (s.map.mirror + 8 * n.val) 8)

/-- The words of a mirror entry are read as they stand. -/
theorem State.mirrorTaken_tookRead (s : State) (n : Fin 576) : (s.tookRead .directory).mirrorTaken n =
    (s.tookRead .directory).loadEntry (memWords s.mem (s.map.mirror + 8 * n.val) 8) := by
  have hmap : (s.tookRead .directory).map = s.map := by rw [State.map, s.tookRead_map .directory, State.map]
  rw [State.mirrorTaken, hmap, s.tookRead_mem]

theorem State.mirrorTaken_zeros (h : memWords s.mem (s.map.mirror + 8 * n.val) 8 = List.replicate 8 0) :
    (s.tookRead .directory).mirrorTaken n = (Entry.free, false, []) := by
  rw [s.mirrorTaken_tookRead, h]
  rfl

theorem State.mirrorTaken_new {x : Entry} {pl : Place}
    (hx : Entry.ofMirror (memWords s.mem (s.map.mirror + 8 * n.val) 8) = some x) (hs : s.entryOfSerial x.serial = none)
    (hpl : x.place = some pl) (hfree : s.placeAt pl.feeder pl.pos = none) :
    (s.tookRead .directory).mirrorTaken n = ({ x with verify := s.cfg.enable.getLsbD pl.feeder.val }, false, []) := by
  have hentry (e : EntryId) : (s.tookRead .directory).entry e = s.entry e := State.entry_congr (s.tookRead_dir .directory) e
  have hs' : (s.tookRead .directory).entryOfSerial x.serial = none := (State.entryOfSerial_congr hentry _).trans hs
  have hfree' : (s.tookRead .directory).placeAt pl.feeder pl.pos = none := by
    rw [← hfree]
    simp only [State.placeAt, hentry]
  simp only [s.mirrorTaken_tookRead, State.loadEntry, hx, hs', hpl, hfree', Option.isSome_none, Bool.false_eq_true, if_false,
    s.tookRead_cfg]

/-- The state in which mirror entry `n` has been taken as `x`, and the load goes on. -/
def State.entryTaken (s : State) (n : Fin 576) (x : Entry) : State :=
  { s.setEntry n x with
    run := { s.run with phase := if n.val < 575 then .load (n.val + 1) else .loads false false } }

/-- A mirror entry that needs no repair is taken as it is, with no burst. -/
theorem exec_directoryLoadEntry {x : Entry} (hp : s.run.phase = .load n.val) (hw : s.dir.work = [])
    (hr : s.hasRead .directory (s.mirrorReads n.val) = true) (hx : (s.tookRead .directory).mirrorTaken n = (x, false, [])) :
    exec .directoryLoadEntry s = .next (((s.tookRead .directory).entryTaken n x).noTurn .directory) := by
  have he : exec .directoryLoadEntry s = .next (doDirectoryLoadEntry s) := rfl
  have hn : Fin.ofNat 576 n.val = n := Fin.ofNat_val_eq_self n
  have hload : (s.tookRead .directory).loadEntry
      (memWords (s.tookRead .directory).mem ((s.tookRead .directory).map.mirror + 8 * n.val) 8) = (x, false, []) := hx
  have hidle : ((s.tookRead .directory).entryTaken n x).workOf .directory = [] :=
    (congrArg Directory.work (s.tookRead_dir .directory)).trans hw
  have hpush := (State.push_idle _ .directory [] hidle).trans (State.setWork_nil hidle)
  rw [he, doDirectoryLoadEntry, hp]
  dsimp only
  rw [hw, hr, hload, hn]
  exact congrArg (fun t : State => Host.Outcome.next (t.noTurn .directory)) hpush

/-- What the step of a mirror entry leaves. -/
theorem State.entryTaken_leaves (s : State) (n : Fin 576) (x : Entry) :
    let t := ((s.tookRead .directory).entryTaken n x).noTurn .directory
    t.entry n = x ∧ (∀ e, e ≠ n → t.entry e = s.entry e) ∧ t.path.lines = s.path.lines ∧
      t.run.phase = (if n.val < 575 then .load (n.val + 1) else .loads false false) ∧ SameMemory s t := by
  have hentry (e : EntryId) :
      (((s.tookRead .directory).entryTaken n x).noTurn .directory).entry e = if n = e then x else s.entry e :=
    ((s.tookRead .directory).entry_setEntry n e x).trans (by rw [State.entry_congr (s.tookRead_dir .directory)])
  have hmem : (((s.tookRead .directory).entryTaken n x).noTurn .directory).mem = s.mem := s.tookRead_mem .directory
  exact ⟨(hentry n).trans (if_pos rfl), fun e he => (hentry e).trans (if_neg he.symm), s.tookRead_lines .directory, rfl,
    fun a => by rw [hmem]⟩

end

/-! ### The Billing Unit's numbers, and the carrier-loss counts (R128, R155) -/

section
variable {s : State}

/-- The Billing Unit as the words of memory `m` that it has read give it, with the boundary as judged. -/
def State.billLoaded (s : State) (m : List Host.Cell) : Billing :=
  let minute := (memWord m (Config.boundaryAddr + 1)).toNat
  let number := (memWord m (Config.boundaryAddr + 2)).toNat
  { s.bill with
    loaded := true, period := bits (memWord m Config.periodAddr) 0 16
    periodStart := (memWord m Config.periodStartAddr).toNat, prevLen := (memWord m Config.prevLenAddr).toNat
    epoch := (memWord m Config.epochNumberAddr).toNat, epochMin := (memWord m Config.epochMinuteAddr).toNat
    cur := s.active.rates, prev := Vector.ofFn fun t => bits (memWord m (Config.prevRatesAddr + t.val)) 0 16
    boundary := (judgeBoundary (bits (memWord m Config.boundaryAddr) 0 8) minute number
      (bits (memWord m Config.periodAddr) 0 16) (memWord m Config.epochNumberAddr).toNat).getD
        { kind := .none, minute := minute, number := number }
    cursor := bits (memWord m Config.cursorAddr) 0 16 }

/-- The Billing Unit's load. A boundary that is not taken is asked to be written as none. -/
theorem exec_billingLoad {sc : Bool} (hp : s.run.phase = .loads false sc) (hw : s.dir.work = [])
    (hr : s.hasRead .billing billingLoadReads = true) :
    ∃ p, exec .billingLoad s = .next { s with
      path := p, bill := s.billLoaded (s.seenBy .billing), run := { s.run with phase := .afterLoads true sc } } := by
  have he : exec .billingLoad s = .next (doBillingLoad s) := rfl
  rw [he, doBillingLoad, hp]
  dsimp only
  rw [hw, hr, s.tookRead_eq .billing]
  simp only [List.isEmpty_nil, Bool.and_self, if_true]
  split
  · rw [State.ask_eq]
    exact ⟨_, rfl⟩
  · exact ⟨_, rfl⟩

/-- The carrier-loss count of a slot as word 6 of it reads, of an EVENT slot alone. -/
def State.lossRead (s : State) (k : SlotId) : Nat :=
  if s.active.slots[k].isEvent then bits (memWord (s.seenBy .scanner) (s.slotBase k + 6)) 0 16 else 0

theorem exec_carrierLossLoad {bl : Bool} (hp : s.run.phase = .loads bl false) (hw : s.dir.work = [])
    (hr : s.hasRead .scanner s.lossReads = true) :
    ∃ p, exec .carrierLossLoad s = .next { s with
      path := p, scan := { s.scan with slots := Vector.ofFn fun k => { TeleSlot.cleared with loss := s.lossRead k } }
      run := { s.run with phase := .afterLoads bl true } } := by
  have he : exec .carrierLossLoad s = .next (doCarrierLossLoad s) := rfl
  rw [he, doCarrierLossLoad, hp]
  dsimp only
  rw [hw, hr, s.tookReads_eq .scanner]
  exact ⟨_, rfl⟩

end

/-- The subscriber pass begins when both loads are done (R183). -/
theorem StartPhase.afterLoads_billing (sc : Bool) :
    StartPhase.afterLoads true sc = if sc then .pass 0 else .loads true false := by
  cases sc <;> rfl

theorem StartPhase.afterLoads_scanner (bl : Bool) :
    StartPhase.afterLoads bl true = if bl then .pass 0 else .loads false true := by
  cases bl <;> rfl

/-- Settles O21: the mirror entries by what they are taken as, then the two other loads. -/
theorem startUpLoads : Obligations.StartUpLoads := by
  unfold Obligations.StartUpLoads
  refine ⟨fun s n hp hw hr => ⟨fun hz => ?_, fun x pl hx hs hpl hfree => ?_⟩, fun s sc hp hw hr => ?_,
    fun s bl hp hw hr => ?_⟩
  · exact ⟨_, exec_directoryLoadEntry hp hw hr (State.mirrorTaken_zeros hz), s.entryTaken_leaves n _⟩
  · exact ⟨_, exec_directoryLoadEntry hp hw hr (State.mirrorTaken_new hx hs hpl hfree), s.entryTaken_leaves n _⟩
  · obtain ⟨p, he⟩ := exec_billingLoad hp hw hr
    exact ⟨_, he, rfl, rfl, rfl, rfl, rfl, rfl, rfl, rfl, StartPhase.afterLoads_billing sc, rfl, rfl, fun _ => rfl⟩
  · obtain ⟨p, he⟩ := exec_carrierLossLoad hp hw hr
    refine ⟨_, he, fun k => ?_, StartPhase.afterLoads_scanner bl, rfl, rfl, fun _ => rfl⟩
    exact congrArg TeleSlot.loss (Vector.getElem_ofFn k.isLt)

end Sys2Proof.Machine
end

section
/-! The hand-offs of the Tap Directory: reports to the Order Unit and to the correlator, entries for the log, and mirror bursts
(R4, R81, R98, R107). -/

open Sys2Proof

namespace Sys2Proof.Machine

/-- The tasks that hand something to another block, or ask for a burst. -/
inductive Task.HandOff : Task → Prop
  | orderReport (r : OrderReport) : HandOff (.orderReport r)
  | corrReport (r : CorrReport) : HandOff (.corrReport r)
  | alarm (kind : AlarmKind) (sev : Severity) (subject : Subject) (value : Word) : HandOff (.alarm kind sev subject value none)
  | burst (r : Requester) (b : Burst) : HandOff (.burst r b)

/-- What a task hands to the Order Unit. -/
def Task.orderPart : Task → List OrderReport
  | .orderReport r => [r]
  | _ => []

/-- What a task hands to the correlator. -/
def Task.corrPart : Task → List CorrReport
  | .corrReport r => [r]
  | _ => []

/-- What a task submits to the log at a minute. -/
def Task.logPart (minute : Nat) : Task → List AlarmEntry
  | .alarm kind sev subject value _ => [AlarmEntry.mk kind sev subject minute value]
  | _ => []

/-- A hand-off that is no report to the Order Unit. -/
def Task.Logs (t : Task) : Prop := t.HandOff ∧ t.orderPart = []

/-- The hand-offs of a list have all found room: the queues lengthened by what is theirs, the Memory Path as given. -/
def State.delivered (s : State) (p : MemPath) (ts : List Task) : State :=
  { s with
    path := p
    order := { s.order with reports := s.order.reports ++ ts.flatMap Task.orderPart }
    corr := { s.corr with reports := s.corr.reports ++ ts.flatMap Task.corrPart }
    log := { s.log with intake := s.log.intake ++ ts.flatMap (Task.logPart s.time.minute) } }

theorem State.delivered_eq (s : State) (p : MemPath) {ts : List Task} {rs : List OrderReport} {cr : List CorrReport}
    {it : List AlarmEntry} (hr : ts.flatMap Task.orderPart = rs) (hc : ts.flatMap Task.corrPart = cr)
    (hl : ts.flatMap (Task.logPart s.time.minute) = it) : s.delivered p ts = { s with
      path := p, order := { s.order with reports := s.order.reports ++ rs }
      corr := { s.corr with reports := s.corr.reports ++ cr }, log := { s.log with intake := s.log.intake ++ it } } := by
  rw [State.delivered, hr, hc, hl]

theorem State.delivered_delivered (s : State) (p q : MemPath) (ts us : List Task) :
    (s.delivered p ts).delivered q us = s.delivered q (ts ++ us) := by
  simp [State.delivered]

/-- The part takes submissions, and the three queues have room for what a list hands on. -/
structure State.HasRoom (s : State) (ts : List Task) : Prop where
  part : s.run.part ≠ .idle
  order : s.order.reports.length + (ts.flatMap Task.orderPart).length ≤ Config.orderReportDepth
  corr : s.corr.reports.length + (ts.flatMap Task.corrPart).length ≤ Config.corrReportDepth
  log : s.log.intake.length + (ts.flatMap (Task.logPart s.time.minute)).length ≤ Config.intakeDepth

section
variable {s : State} {t : Task} {ts : List Task}

/-- A hand-off that finds room is made. -/
theorem State.doTask_handOff (h : t.HandOff) (hr : s.HasRoom [t]) : ∃ p, s.doTask t = (s.delivered p [t], none) := by
  obtain ⟨hp, ho, hc, hl⟩ := hr
  cases h with
  | orderReport r =>
    refine ⟨(s.handed r).path, (State.doTask_orderReport r ho).trans ?_⟩
    rw [s.delivered_eq _ (rs := [r]) (cr := []) (it := []) rfl rfl rfl, List.append_nil, List.append_nil]
    rfl
  | corrReport r =>
    refine ⟨s.path, (State.doTask_corrReport r hc).trans ?_⟩
    rw [s.delivered_eq _ (rs := []) (cr := [r]) (it := []) rfl rfl rfl, List.append_nil, List.append_nil]
    rfl
  | alarm kind sev subject value =>
    have hdo : s.doTask (.alarm kind sev subject value none) = s.submit kind sev subject value none := rfl
    rw [hdo]
    rcases s.submit_spec kind sev subject value none with ⟨hi, -⟩ | ⟨-, -, hs⟩ | ⟨-, hf, -⟩
    · exact absurd hi hp
    · refine ⟨s.path, hs.trans ?_⟩
      rw [s.delivered_eq _ (rs := []) (cr := []) (it := [AlarmEntry.mk kind sev subject s.time.minute value]) rfl rfl rfl,
        List.append_nil, List.append_nil]
      rfl
    · exact absurd hl hf
  | burst r b =>
    refine ⟨(s.ask r b).path, Prod.ext ((s.ask_eq r b).trans ?_) rfl⟩
    rw [s.delivered_eq _ (rs := []) (cr := []) (it := []) rfl rfl rfl, List.append_nil, List.append_nil, List.append_nil]

theorem State.HasRoom.head (h : s.HasRoom (t :: ts)) : s.HasRoom [t] := by
  obtain ⟨hp, ho, hc, hl⟩ := h
  rw [← List.singleton_append, List.flatMap_append, List.length_append] at ho hc hl
  exact ⟨hp, by omega, by omega, by omega⟩

theorem State.HasRoom.tail (h : s.HasRoom (t :: ts)) (p : MemPath) : (s.delivered p [t]).HasRoom ts := by
  obtain ⟨hp, ho, hc, hl⟩ := h
  rw [← List.singleton_append, List.flatMap_append, List.length_append] at ho hc hl
  refine ⟨hp, ?_, ?_, ?_⟩ <;> simp only [State.delivered, List.length_append] <;> omega

/-- Hand-offs that all find room are made one after another, and the work goes on. -/
theorem State.runTasks_handOffs (b : Blk) (rest : List Task) (h : ∀ t ∈ ts, t.HandOff) (hr : s.HasRoom ts) :
    ∃ p, State.runTasks b (ts ++ rest) s = State.runTasks b rest (s.delivered p ts) := by
  induction ts generalizing s with
  | nil => exact ⟨s.path, by simp [State.delivered]⟩
  | cons t ts ih =>
    obtain ⟨p, hp⟩ := State.doTask_handOff (h t List.mem_cons_self) hr.head
    obtain ⟨q, hq⟩ := ih (fun u hu => h u (List.mem_cons_of_mem t hu)) (hr.tail p)
    refine ⟨q, ?_⟩
    rw [List.cons_append, State.runTasks_go _ _ _ _ _ hp, hq, State.delivered_delivered]
    rfl

/-- The Tap Directory's hand-offs that all find room leave it without work. -/
theorem State.pushCalls_handOffs (hw : s.dir.work = []) (h : ∀ t ∈ ts, t.HandOff) (hr : s.HasRoom ts) :
    ∃ p, s.pushCalls ts = s.delivered p ts := by
  obtain ⟨p, hp⟩ := State.runTasks_handOffs .directory [] h hr
  rw [List.append_nil] at hp
  exact ⟨p, (State.pushCalls_done hw hp).trans (State.setWork_nil (b := .directory) hw)⟩

/-- The Tap Directory's hand-offs that all find room, with the task that ends its work. -/
theorem State.pushCalls_last {g : State → State} {last : Task} (hw : s.dir.work = []) (h : ∀ t ∈ ts, t.HandOff)
    (hr : s.HasRoom ts) (hl : ∀ p, (s.delivered p ts).doTask last = (g (s.delivered p ts), none))
    (hg : ∀ p, (g (s.delivered p ts)).dir.work = []) : ∃ p, s.pushCalls (ts ++ [last]) = g (s.delivered p ts) := by
  obtain ⟨p, hp⟩ := State.runTasks_handOffs .directory [last] h hr
  rw [State.runTasks_go _ _ _ _ _ (hl p)] at hp
  exact ⟨p, (State.pushCalls_done hw hp).trans (State.setWork_nil (b := .directory) (hg p))⟩

end

/-! ### Hand-offs that may have to wait -/

/-- The part of the state that hand-offs to the correlator and the log can change, and the Memory Path. -/
def State.loggedAs (s : State) (p : MemPath) (cr : List CorrReport) (it : List AlarmEntry) (work : List Task) : State :=
  { s with
    path := p, corr := { s.corr with reports := cr }, log := { s.log with intake := it }, dir := { s.dir with work := work } }

/-- Hand-offs without a report to the Order Unit touch the correlator's queue and the intake, whether or not they wait. -/
theorem State.runTasks_loggedAs {ts : List Task} (s : State) (h : ∀ t ∈ ts, t.Logs) :
    ∃ p cr it work, State.runTasks .directory ts s = s.loggedAs p cr it work := by
  induction ts generalizing s with
  | nil => exact ⟨s.path, s.corr.reports, s.log.intake, [], rfl⟩
  | cons t ts ih =>
    have hstep : ∃ p cr it, (s.doTask t).1 = s.loggedAs p cr it s.dir.work := by
      have hself : s = s.loggedAs s.path s.corr.reports s.log.intake s.dir.work := rfl
      obtain ⟨hand, hnone⟩ := h t List.mem_cons_self
      cases hand with
      | orderReport r => exact nomatch hnone
      | corrReport r =>
        by_cases hr : s.corr.reports.length < Config.corrReportDepth
        · exact ⟨s.path, _, s.log.intake, congrArg Prod.fst (State.doTask_corrReport r hr)⟩
        · exact ⟨_, _, _, (congrArg Prod.fst (show s.doTask (.corrReport r) = (s, _) from if_neg hr)).trans hself⟩
      | alarm kind sev subject value =>
        have hdo : s.doTask (.alarm kind sev subject value none) = s.submit kind sev subject value none := rfl
        rw [hdo]
        rcases s.submit_spec kind sev subject value none with ⟨-, hs⟩ | ⟨-, -, hs⟩ | ⟨-, -, hs⟩ <;> rw [hs]
        · exact ⟨_, _, _, hself⟩
        · exact ⟨s.path, s.corr.reports, _, rfl⟩
        · exact ⟨_, _, _, hself⟩
      | burst r b => exact ⟨_, s.corr.reports, s.log.intake, s.ask_eq r b⟩
    obtain ⟨p, cr, it, hstep⟩ := hstep
    rcases hd : s.doTask t with ⟨s1, _ | w⟩ <;> rw [hd] at hstep <;> dsimp only at hstep <;> subst hstep
    · rw [State.runTasks_go _ _ _ _ _ hd]
      obtain ⟨p', cr', it', work, he⟩ := ih (s.loggedAs p cr it s.dir.work) fun u hu => h u (List.mem_cons_of_mem t hu)
      exact ⟨p', cr', it', work, he⟩
    · rw [State.runTasks_wait _ _ _ _ _ _ hd]
      exact ⟨p, cr, it, w :: ts, rfl⟩

/-- The Tap Directory's hand-offs, the reports to the Order Unit first and with room for them. -/
theorem State.pushCalls_loggedAs {s : State} {rs : List OrderReport} {ts : List Task} (hw : s.dir.work = [])
    (hroom : s.order.reports.length + rs.length ≤ Config.orderReportDepth) (h : ∀ t ∈ ts, t.Logs) :
    ∃ p cr it work, s.pushCalls (rs.map Task.orderReport ++ ts) =
      { s.loggedAs p cr it work with order := { s.order with reports := s.order.reports ++ rs } } := by
  obtain ⟨q, hq⟩ := s.handedAll_eq rs
  obtain ⟨p, cr, it, work, he⟩ := State.runTasks_loggedAs (s.handedAll rs) h
  have hidle : s.workOf .directory = [] := hw
  rw [State.pushCalls, State.push_idle _ _ _ hidle, State.runTasks_reports _ _ _ _ hroom, he, hq]
  exact ⟨p, cr, it, work.map Task.later, rfl⟩

end Sys2Proof.Machine
end

section
/-! Outcomes of READ and SET PORT (O46): what they make of their entry, and what the Tap Directory hands on. -/

open Sys2Proof

namespace Sys2Proof.Machine

/-! ### What the hand-offs of an outcome leave (R4, R98, R107) -/

/-- Reports to the Order Unit have been handed, and then other hand-offs made or begun: engines, entries and memory stand, and
with room for them the hand-offs are made in full. -/
structure State.HandsOn (s t : State) (rs : List OrderReport) (ts : List Task) : Prop where
  eng : ∀ g, t.eng g = s.eng g
  entry : ∀ e, t.entry e = s.entry e
  mem : t.mem = s.mem
  reports : t.order.reports = s.order.reports ++ rs
  logged : s.run.part ≠ .idle →
    s.corr.reports.length + (ts.flatMap Task.corrPart).length ≤ Config.corrReportDepth →
    s.log.intake.length + (ts.flatMap (Task.logPart s.time.minute)).length ≤ Config.intakeDepth →
      t.corr.reports = s.corr.reports ++ ts.flatMap Task.corrPart ∧
        t.log.intake = s.log.intake ++ ts.flatMap (Task.logPart s.time.minute)

/-- What reports to the Order Unit hand to each block. -/
theorem orderReports_parts (rs : List OrderReport) (minute : Nat) :
    (rs.map Task.orderReport).flatMap Task.orderPart = rs ∧ (rs.map Task.orderReport).flatMap Task.corrPart = [] ∧
      (rs.map Task.orderReport).flatMap (Task.logPart minute) = [] := by
  induction rs with
  | nil => exact ⟨rfl, rfl, rfl⟩
  | cons r rs ih =>
    obtain ⟨ho, hc, hl⟩ := ih
    exact ⟨congrArg (r :: ·) ho, hc, hl⟩

theorem State.pushCalls_handsOn {s : State} (rs : List OrderReport) {ts : List Task} (hw : s.dir.work = [])
    (hroom : s.order.reports.length + rs.length ≤ Config.orderReportDepth) (h : ∀ t ∈ ts, t.Logs) :
    s.HandsOn (s.pushCalls (rs.map Task.orderReport ++ ts)) rs ts := by
  obtain ⟨p, cr, it, work, he⟩ := State.pushCalls_loggedAs hw hroom h
  rw [he]
  refine ⟨fun _ => rfl, fun _ => rfl, rfl, rfl, fun hp hc hl => ?_⟩
  obtain ⟨rorder, rcorr, rlog⟩ := orderReports_parts rs s.time.minute
  have horder : (rs.map Task.orderReport ++ ts).flatMap Task.orderPart = rs := by
    rw [List.flatMap_append, rorder, List.flatMap_eq_nil_iff.2 fun t ht => (h t ht).2, List.append_nil]
  have hcorr : (rs.map Task.orderReport ++ ts).flatMap Task.corrPart = ts.flatMap Task.corrPart := by
    rw [List.flatMap_append, rcorr, List.nil_append]
  have hlog : (rs.map Task.orderReport ++ ts).flatMap (Task.logPart s.time.minute) =
      ts.flatMap (Task.logPart s.time.minute) := by
    rw [List.flatMap_append, rlog, List.nil_append]
  have hall : ∀ t ∈ rs.map Task.orderReport ++ ts, t.HandOff :=
    List.forall_mem_append.2 ⟨List.forall_mem_map.2 fun r _ => .orderReport r, fun t ht => (h t ht).1⟩
  obtain ⟨q, hq⟩ := State.pushCalls_handOffs hw hall
    ⟨hp, by rw [horder]; exact hroom, by rw [hcorr]; exact hc, by rw [hlog]; exact hl⟩
  have hboth := he.symm.trans hq
  rw [s.delivered_eq q horder hcorr hlog] at hboth
  exact ⟨congrArg (·.corr.reports) hboth, congrArg (·.log.intake) hboth⟩

theorem State.pushCalls_report {s : State} (r : OrderReport) (hw : s.dir.work = [])
    (hroom : s.order.reports.length < Config.orderReportDepth) : s.pushCalls [.orderReport r] = s.handed r := by
  have hrun := State.runTasks_go .directory _ [] s _ (State.doTask_orderReport r hroom)
  exact (State.pushCalls_done hw hrun).trans (State.setWork_nil (b := .directory) hw)

/-! ### Hand-offs that are no report to the Order Unit -/

section
variable (e : EntryId) (f : Feeder) (pos : Nat)

theorem tapAlarm_logs (k : AlarmKind) (sv : Severity) (v : Word) : (tapAlarm k sv f pos v).Logs := ⟨.alarm .., rfl⟩

/-- An entry about a tap's place that is logged under a condition. -/
theorem tapAlarm_if (p : Prop) [Decidable p] (k : AlarmKind) (sv : Severity) (v : Word) (minute : Nat) :
    (∀ t ∈ (if p then [tapAlarm k sv f pos v] else []), t.Logs) ∧
      (if p then [tapAlarm k sv f pos v] else []).flatMap Task.corrPart = [] ∧
      (if p then [tapAlarm k sv f pos v] else []).flatMap (Task.logPart minute) =
        if p then [AlarmEntry.mk k sv (.place f pos) minute v] else [] := by
  split
  · exact ⟨List.forall_mem_singleton.2 (tapAlarm_logs ..), rfl, rfl⟩
  · exact ⟨fun t ht => (nomatch ht), rfl, rfl⟩

theorem mirrorTask_logs (x y : Entry) : ∀ t ∈ mirrorTask x y e, t.Logs := by
  unfold mirrorTask
  split
  · exact fun t ht => nomatch ht
  · exact List.forall_mem_singleton.2 ⟨.burst .., rfl⟩

theorem mirrorTask_parts (x y : Entry) (minute : Nat) : (mirrorTask x y e).flatMap Task.corrPart = [] ∧
    (mirrorTask x y e).flatMap (Task.logPart minute) = [] := by
  unfold mirrorTask
  split <;> exact ⟨rfl, rfl⟩

theorem flagAlarm_logs (k : AlarmKind) (old new : Bool) : ∀ t ∈ flagAlarm k f pos old new, t.Logs := by
  cases old <;> cases new
  · exact fun t ht => nomatch ht
  · exact List.forall_mem_singleton.2 (tapAlarm_logs ..)
  · exact List.forall_mem_singleton.2 (tapAlarm_logs ..)
  · exact fun t ht => nomatch ht

/-- The entry for the log of a changed status flag (R75). -/
def flagLog (k : AlarmKind) (f : Feeder) (pos minute : Nat) (old new : Bool) : List AlarmEntry :=
  if old = new then [] else
    [if new then AlarmEntry.mk k .major (.place f pos) minute 1 else AlarmEntry.mk k .info (.place f pos) minute 0]

theorem flagAlarm_parts (k : AlarmKind) (old new : Bool) (minute : Nat) :
    (flagAlarm k f pos old new).flatMap Task.corrPart = [] ∧
      (flagAlarm k f pos old new).flatMap (Task.logPart minute) = flagLog k f pos minute old new := by
  cases old <;> cases new <;> exact ⟨rfl, rfl⟩

theorem flagLog_length (k : AlarmKind) (minute : Nat) (old new : Bool) : (flagLog k f pos minute old new).length ≤ 1 := by
  unfold flagLog
  split <;> simp

end

/-! ### What an answer hands on (R64, R75, R78, R79) -/

/-- The entries for the log of an OK outcome, by the entry before it (R75). -/
def Entry.answerLog (x : Entry) (f : Feeder) (pos minute lat : Nat) (tamper low : Bool) : List AlarmEntry :=
  (if x.latency ≠ 0 ∧ (x.latency + 8 < lat ∨ lat + 8 < x.latency) then
    [AlarmEntry.mk .tapLatencyShift .minor (.place f pos) minute (word lat)] else []) ++
  flagLog .tapTamper f pos minute x.tamper tamper ++ flagLog .tapLowSupply f pos minute x.low low ++
  (if x.state = .lost then
    [AlarmEntry.mk .tapBack .info (.place f pos) minute (spanWord minute x.silentSince)] else [])

/-- The entry for the log of ports that differed from what was known or sent (R78, R79). -/
def mismatchLog (f : Feeder) (pos minute : Nat) (d : Port → Bool) : List AlarmEntry :=
  if d 0 || d 1 || d 2 || d 3 then [AlarmEntry.mk .tapStateMismatch .minor (.place f pos) minute
    (word (bitOf (d 0) + 2 * bitOf (d 1) + 4 * bitOf (d 2) + 8 * bitOf (d 3)))] else []

/-- The return report of a LOST entry (R75). -/
def Entry.backReport (x : Entry) (e : EntryId) (f : Feeder) (pos minute : Nat) : List CorrReport :=
  if x.state = .lost then [.back e f pos minute] else []

/-- What an answer hands on beside the outcome itself. -/
def Entry.answerTasks (x y : Entry) (e : EntryId) (f : Feeder) (pos now lat : Nat) (tamper low : Bool) (d : Port → Bool) :
    List Task :=
  x.returnReport e f pos now ++ x.answerAlarms f pos now lat tamper low ++ mismatchAlarm f pos d ++ mirrorTask x y e

section
variable (x y : Entry) (e : EntryId) (f : Feeder) (pos now lat : Nat) (tamper low : Bool) (d : Port → Bool)

theorem Entry.returnReport_spec : (∀ t ∈ x.returnReport e f pos now, t.Logs) ∧
    (x.returnReport e f pos now).flatMap Task.corrPart = x.backReport e f pos now ∧
    (x.returnReport e f pos now).flatMap (Task.logPart now) = [] := by
  unfold Entry.returnReport Entry.backReport
  split
  · exact ⟨List.forall_mem_singleton.2 ⟨.corrReport .., rfl⟩, rfl, rfl⟩
  · exact ⟨fun t ht => (nomatch ht), rfl, rfl⟩

theorem mismatchAlarm_spec : (∀ t ∈ mismatchAlarm f pos d, t.Logs) ∧
    (mismatchAlarm f pos d).flatMap Task.corrPart = [] ∧
    (mismatchAlarm f pos d).flatMap (Task.logPart now) = mismatchLog f pos now d := by
  have hany : (List.finRange 4).any d = (d 0 || d 1 || d 2 || d 3) := by
    simp [List.finRange_succ, Bool.or_assoc]
  have hflags : portFlags d = word (bitOf (d 0) + 2 * bitOf (d 1) + 4 * bitOf (d 2) + 8 * bitOf (d 3)) := by
    simp [portFlags, List.finRange_succ]
  unfold mismatchAlarm mismatchLog
  rw [hany, hflags]
  exact tapAlarm_if ..

theorem Entry.answerAlarms_spec : (∀ t ∈ x.answerAlarms f pos now lat tamper low, t.Logs) ∧
    (x.answerAlarms f pos now lat tamper low).flatMap Task.corrPart = [] ∧
    (x.answerAlarms f pos now lat tamper low).flatMap (Task.logPart now) = x.answerLog f pos now lat tamper low := by
  have hshift : latencyShift x.latency lat = decide (x.latency ≠ 0 ∧ (x.latency + 8 < lat ∨ lat + 8 < x.latency)) := by
    rw [Bool.eq_iff_iff]
    simp [latencyShift]
  unfold Entry.answerAlarms Entry.answerLog
  rw [hshift]
  simp only [decide_eq_true_eq]
  refine ⟨?_, ?_, ?_⟩
  · simp only [List.forall_mem_append]
    exact ⟨⟨⟨(tapAlarm_if f pos _ _ _ _ now).1, flagAlarm_logs f pos _ _ _⟩, flagAlarm_logs f pos _ _ _⟩,
      (tapAlarm_if f pos _ _ _ _ now).1⟩
  · simp only [List.flatMap_append, tapAlarm_if f pos _ _ _ _ now, flagAlarm_parts f pos _ _ _ now, List.append_nil]
  · simp only [List.flatMap_append, tapAlarm_if, flagAlarm_parts]

/-- An answer's hand-offs go to the correlator and the log: the return report, the entries of R75 and then the mismatch. -/
theorem Entry.answerTasks_spec : (∀ t ∈ x.answerTasks y e f pos now lat tamper low d, t.Logs) ∧
    (x.answerTasks y e f pos now lat tamper low d).flatMap Task.corrPart = x.backReport e f pos now ∧
    (x.answerTasks y e f pos now lat tamper low d).flatMap (Task.logPart now) =
      x.answerLog f pos now lat tamper low ++ mismatchLog f pos now d := by
  obtain ⟨rlogs, rcorr, rlog⟩ := x.returnReport_spec e f pos now
  obtain ⟨alogs, acorr, alog⟩ := x.answerAlarms_spec f pos now lat tamper low
  obtain ⟨mlogs, mcorr, mlog⟩ := mismatchAlarm_spec f pos now d
  obtain ⟨bcorr, blog⟩ := mirrorTask_parts e x y now
  unfold Entry.answerTasks
  simp only [List.flatMap_append, rcorr, rlog, acorr, alog, mcorr, mlog, bcorr, blog, List.append_nil, List.nil_append]
  refine ⟨?_, trivial, trivial⟩
  simp only [List.forall_mem_append]
  exact ⟨⟨⟨rlogs, alogs⟩, mlogs⟩, mirrorTask_logs e x y⟩

theorem Entry.answerTasks_room : (x.backReport e f pos now).length ≤ 1 ∧
    (x.answerLog f pos now lat tamper low ++ mismatchLog f pos now d).length ≤ 5 := by
  have hif (p : Prop) [Decidable p] (a : AlarmEntry) : (if p then [a] else []).length ≤ 1 := by split <;> simp
  have hshift := hif (x.latency ≠ 0 ∧ (x.latency + 8 < lat ∨ lat + 8 < x.latency))
    (AlarmEntry.mk .tapLatencyShift .minor (.place f pos) now (word lat))
  have hback := hif (x.state = .lost) (AlarmEntry.mk .tapBack .info (.place f pos) now (spanWord now x.silentSince))
  have hmis := hif ((d 0 || d 1 || d 2 || d 3) = true) (AlarmEntry.mk .tapStateMismatch .minor (.place f pos) now
    (word (bitOf (d 0) + 2 * bitOf (d 1) + 4 * bitOf (d 2) + 8 * bitOf (d 3))))
  have htamper := flagLog_length f pos .tapTamper now x.tamper tamper
  have hlow := flagLog_length f pos .tapLowSupply now x.low low
  constructor
  · unfold Entry.backReport
    split <;> simp
  · unfold Entry.answerLog mismatchLog
    simp only [List.length_append]
    omega

end

/-! ### What a miss hands on (R76, R77) -/

/-- The entry at its miss: the count, the silence it dates, and whether the tap is SILENT or LOST (R76). -/
def Entry.missed (x : Entry) (minute thr : Nat) (cmd : TapCmd) : Entry :=
  { x with
    misses := min 15 (x.misses + 1), silentSince := if x.misses = 0 then minute else x.silentSince
    verify := x.verify && cmd != .read
    state := if x.state = .lost then .lost else if min 15 (x.misses + 1) < thr then .silent else .lost }

/-- What a miss that makes its entry LOST hands to the Order Unit. -/
def Entry.missOrders (x : Entry) (thr : Nat) (e : EntryId) : List OrderReport :=
  if x.state ≠ .lost ∧ thr ≤ min 15 (x.misses + 1) then [.lostTap e] else []

/-- What a miss that makes its entry LOST hands to the correlator and the log. -/
def Entry.missLogs (x : Entry) (thr : Nat) (e : EntryId) (f : Feeder) (pos since : Nat) : List Task :=
  if x.state ≠ .lost ∧ thr ≤ min 15 (x.misses + 1) then
    [.corrReport (.lost e f pos since), tapAlarm .tapLost .major f pos (word since)] else []

theorem Entry.missLogs_spec (x : Entry) (thr : Nat) (e : EntryId) (f : Feeder) (pos since minute : Nat) :
    (∀ t ∈ x.missLogs thr e f pos since, t.Logs) ∧
    (x.missLogs thr e f pos since).flatMap Task.corrPart =
      (if x.state ≠ .lost ∧ thr ≤ min 15 (x.misses + 1) then [.lost e f pos since] else []) ∧
    (x.missLogs thr e f pos since).flatMap (Task.logPart minute) =
      (if x.state ≠ .lost ∧ thr ≤ min 15 (x.misses + 1) then
        [AlarmEntry.mk .tapLost .major (.place f pos) minute (word since)] else []) := by
  unfold Entry.missLogs
  split
  · exact ⟨List.forall_mem_cons.2 ⟨⟨.corrReport _, rfl⟩, List.forall_mem_singleton.2 (tapAlarm_logs ..)⟩, rfl, rfl⟩
  · exact ⟨fun t ht => (nomatch ht), rfl, rfl⟩

/-- A failed outcome: the missed entry, and its hand-offs with the reports to the Order Unit first. -/
theorem State.failedOutcome_eq (s : State) (f : Feeder) (o : Outcome) (extra : List Task) :
    let x := s.entry o.entry
    let y := x.missed s.time.minute s.cfg.missThr o.cmd
    s.failedOutcome f o extra = (s.setEntry o.entry y,
      (OrderReport.outcome o.cmd o.entry o.port .failed :: x.missOrders s.cfg.missThr o.entry).map Task.orderReport ++
        (x.missLogs s.cfg.missThr o.entry f o.addr y.silentSince ++ extra ++ mirrorTask x y o.entry)) := by
  intro x y
  have hlost : (x.state ≠ .lost ∧ y.state = .lost) ↔ (x.state ≠ .lost ∧ s.cfg.missThr ≤ min 15 (x.misses + 1)) := by
    refine and_congr_right fun hx => ?_
    simp only [y, Entry.missed, if_neg hx]
    split
    · next h => exact iff_of_false (fun hs => nomatch hs) (Nat.not_le.2 h)
    · next h => exact iff_of_true rfl (Nat.not_lt.1 h)
  have htasks : x.missTasks y o.entry f o.addr =
      (if x.state ≠ .lost ∧ s.cfg.missThr ≤ min 15 (x.misses + 1) then
        ([.orderReport (.lostTap o.entry), .corrReport (.lost o.entry f o.addr y.silentSince)],
          [tapAlarm .tapLost .major f o.addr (word y.silentSince)]) else ([], [])) := by
    unfold Entry.missTasks
    exact if_congr hlost rfl rfl
  have heq : s.failedOutcome f o extra = (s.setEntry o.entry y,
      [.orderReport (.outcome o.cmd o.entry o.port .failed)] ++ (x.missTasks y o.entry f o.addr).1 ++
        (x.missTasks y o.entry f o.addr).2 ++ extra ++ mirrorTask x y o.entry) := rfl
  rw [heq, htasks]
  unfold Entry.missOrders Entry.missLogs
  split <;> simp

/-! ### The outcomes of a tap (R74–R79) -/

/-- The state in which the Tap Directory has taken a feeder's outcome, the line at the level given. -/
def State.outcomeTaken (s : State) (f : Feeder) (mark : Bool) : State :=
  s.setEng f { s.eng f with outcome := none, mark := mark }

section
variable {s : State} {f : Feeder} {o : Outcome}

/-- An outcome of a READ or SET PORT is taken by the command whose outcome it is. -/
theorem State.takeOutcome_tap (mine : Outcome → Bool) (hw : s.dir.work = []) (ho : (s.eng f).outcome = some o)
    (hp : o.probe = false) (ht : o.toTap = true) (hm : mine o = true) {u : State} {ts : List Task}
    (h : (s.outcomeTaken f (s.eng f).mark).tapOutcome f o = (u, ts)) :
    s.takeOutcome f (s.eng f).mark mine = u.pushCalls ts := by
  have heffect : (s.setEng f { s.eng f with outcome := none, mark := (s.eng f).mark }).outcomeEffect f o = (u, ts) := by
    unfold State.outcomeEffect
    rw [hp, ht]
    exact h
  rw [State.takeOutcome_due _ mine ho hw hm, heffect]

theorem State.tapOutcome_stale (h : s.isCurrent f o = false) :
    s.tapOutcome f o = (s, [.orderReport (.outcome o.cmd o.entry o.port .failed)]) := by
  rw [State.tapOutcome, h]
  rfl

theorem State.tapOutcome_lineBlocked (h : s.isCurrent f o = true) (hr : o.res = .failed .lineBlocked) :
    s.tapOutcome f o = (s, [.orderReport (.outcome o.cmd o.entry o.port .failed)]) := by
  rw [State.tapOutcome, h, hr]
  rfl

theorem State.tapOutcome_failed {k : FailKind} (h : s.isCurrent f o = true) (hr : o.res = .failed k) (hk : k ≠ .lineBlocked) :
    s.tapOutcome f o = s.failedOutcome f o [] := by
  rw [State.tapOutcome, h, hr]
  cases k with
  | lineBlocked => exact absurd rfl hk
  | _ => rfl

section
variable {lat : Nat} {tamper low gate : Bool} {payload : List Byte} (h : s.isCurrent f o = true)
  (hr : o.res = .ok lat tamper low gate payload)
include h hr

theorem State.tapOutcome_read (hc : o.cmd = .read) : s.tapOutcome f o =
    if serialOfChars payload = (s.entry o.entry).serial then s.readMatch f o lat tamper low payload
    else s.failedOutcome f o [tapAlarm .tapStateMismatch .minor f o.addr (serialOfChars payload)] := by
  rw [State.tapOutcome, h, hr, hc]
  rfl

theorem State.tapOutcome_setPort (hc : o.cmd = .setPort) :
    s.tapOutcome f o = s.setPortOk f o lat tamper low payload := by
  rw [State.tapOutcome, h, hr, hc]
  rfl

end

/-- What the hand-offs of an outcome leave of the rest, once its entry has changed. -/
theorem State.HandsOn.taken {t : State} {e : EntryId} {y : Entry} {rs : List OrderReport} {ts : List Task}
    (h : ((s.outcomeTaken f (s.eng f).mark).setEntry e y).HandsOn t rs ts) :
    t.eng f = { s.eng f with outcome := none } ∧ (∀ g, g ≠ f → t.eng g = s.eng g) ∧ t.entry e = y ∧
      (∀ d, d ≠ e → t.entry d = s.entry d) ∧ SameMemory s t := by
  refine ⟨(h.eng f).trans (State.eng_setEng_self s f _), fun g hg => (h.eng g).trans (State.eng_setEng_ne s _ hg),
    (h.entry e).trans ?_, fun d hd => (h.entry d).trans ?_, fun a => by rw [h.mem]; rfl⟩
  · rw [State.entry_setEntry, if_pos rfl]
  · rw [State.entry_setEntry, if_neg hd.symm]
    rfl

/-- The state once an answer has been taken: the entry is `y`, the report `r` is handed, and then what the answer hands on. -/
def State.answerTaken (s : State) (f : Feeder) (o : Outcome) (y : Entry) (r : OrderReport) (lat : Nat) (tamper low : Bool)
    (d : Port → Bool) : State :=
  ((s.outcomeTaken f (s.eng f).mark).setEntry o.entry y).pushCalls ([r].map Task.orderReport ++
    (s.entry o.entry).answerTasks y o.entry f o.addr s.time.minute lat tamper low d)

section
variable (y : Entry) (r : OrderReport) (lat : Nat) (tamper low : Bool) (d : Port → Bool) (hw : s.dir.work = [])
  (hroom : s.order.reports.length < Config.orderReportDepth)
include hw hroom

theorem State.answerTaken_handsOn : ((s.outcomeTaken f (s.eng f).mark).setEntry o.entry y).HandsOn
    (s.answerTaken f o y r lat tamper low d) [r]
    ((s.entry o.entry).answerTasks y o.entry f o.addr s.time.minute lat tamper low d) :=
  State.pushCalls_handsOn [r] hw hroom ((s.entry o.entry).answerTasks_spec ..).1

theorem State.answerTaken_logged (hp : s.run.part ≠ .idle) (hl : s.log.intake = [])
    (hc : s.corr.reports.length < Config.corrReportDepth) :
    (s.answerTaken f o y r lat tamper low d).log.intake =
        (s.entry o.entry).answerLog f o.addr s.time.minute lat tamper low ++ mismatchLog f o.addr s.time.minute d ∧
      (s.answerTaken f o y r lat tamper low d).corr.reports =
        s.corr.reports ++ (s.entry o.entry).backReport o.entry f o.addr s.time.minute := by
  obtain ⟨-, hcorr, hlog⟩ := (s.entry o.entry).answerTasks_spec y o.entry f o.addr s.time.minute lat tamper low d
  obtain ⟨hone, hfive⟩ := (s.entry o.entry).answerTasks_room o.entry f o.addr s.time.minute lat tamper low d
  obtain ⟨hreports, hintake⟩ := (State.answerTaken_handsOn (f := f) (o := o) y r lat tamper low d hw hroom).logged hp
    (by rw [hcorr]; exact Nat.le_trans (Nat.add_le_add_left hone _) hc)
    (by
      refine Nat.le_trans (Nat.add_le_add_left (m := 5) ?_ _) ?_
      · exact (congrArg List.length hlog).le.trans hfive
      · show s.log.intake.length + 5 ≤ Config.intakeDepth
        rw [hl]
        decide)
  refine ⟨hintake.trans ?_, hreports.trans (congrArg _ hcorr)⟩
  exact (congrArg₂ (· ++ ·) hl hlog).trans (List.nil_append _)

end

/-! ### The commands -/

/-- The entry after a READ of its own serial (R75, R78, R85). -/
def Entry.readBy (x : Entry) (minute lat : Nat) (tamper low : Bool) (payload : List Byte) : Entry :=
  { x.answered minute lat tamper low with
    ports := Vector.ofFn fun p => { x.ports[p] with applied := some (readPorts payload)[p] }, verify := false }

/-- The ports that a READ finds other than they were known (R78). -/
def Entry.readDiffers (x : Entry) (payload : List Byte) (p : Port) : Bool :=
  x.ports[p].applied.isSome && x.ports[p].applied != some (readPorts payload)[p]

/-- The state of a port after a SET PORT: as answered, and of the other ports on or off alone (R79). -/
def Entry.setApplied (x : Entry) (o : Outcome) (payload : List Byte) (p : Port) : PortState :=
  if p = o.port then { on := (charAt payload 0).getLsbD o.port.val, mask := charAt payload 1 }
  else { on := (charAt payload 0).getLsbD p.val, mask := (x.ports[p].applied.map (·.mask)).getD 0 }

/-- The entry after a SET PORT (R75, R79). -/
def Entry.setBy (x : Entry) (o : Outcome) (minute lat : Nat) (tamper low : Bool) (payload : List Byte) : Entry :=
  { x.answered minute lat tamper low with
    ports := Vector.ofFn fun p => { x.ports[p] with applied := some (x.setApplied o payload p) } }

/-- The ports that a SET PORT finds other than they were known, or sent (R79). -/
def Entry.setDiffers (x : Entry) (o : Outcome) (payload : List Byte) (p : Port) : Bool :=
  if p = o.port then
    ({ on := (charAt payload 0).getLsbD o.port.val, mask := charAt payload 1 } : PortState) != o.sent
  else (x.ports[p].applied.map fun a => a.on != (charAt payload 0).getLsbD p.val).getD false

section
variable {lat : Nat} {tamper low gate : Bool} {payload : List Byte} (hw : s.dir.work = [])
  (ho : (s.eng f).outcome = some o) (hp : o.probe = false) (hr : o.res = .ok lat tamper low gate payload)
  (hcur : s.isCurrent f o = true)
include hw ho hp hr hcur

theorem exec_readOutcomeOk (hc : o.cmd = .read) (hs : serialOfChars payload = (s.entry o.entry).serial) :
    exec (.readOutcomeOk f) s = .next (s.answerTaken f o ((s.entry o.entry).readBy s.time.minute lat tamper low payload)
      (.outcome .read o.entry o.port (.readOk (readPorts payload))) lat tamper low
      ((s.entry o.entry).readDiffers payload)) := by
  have hmine : (o.ofTap .read && o.isOk && s.isCurrent f o) = true := by simp [Outcome.ofTap, Outcome.isOk, hp, hc, hr, hcur]
  have htap : o.toTap = true := by simp [Outcome.toTap, hc]
  refine congrArg _ (State.takeOutcome_tap (f := f) _ hw ho hp htap hmine ?_)
  exact (State.tapOutcome_read (s := s.outcomeTaken f (s.eng f).mark) hcur hr hc).trans (if_pos hs)

theorem exec_setPortOutcomeOk (hc : o.cmd = .setPort) :
    exec (.setPortOutcomeOk f) s = .next (s.answerTaken f o ((s.entry o.entry).setBy o s.time.minute lat tamper low payload)
      (.outcome .setPort o.entry o.port (.setOk
        { on := (charAt payload 0).getLsbD o.port.val, mask := charAt payload 1 } s.time.minute)) lat tamper low
      ((s.entry o.entry).setDiffers o payload)) := by
  have hmine : (o.ofTap .setPort && o.isOk && s.isCurrent f o) = true := by
    simp [Outcome.ofTap, Outcome.isOk, hp, hc, hr, hcur]
  have htap : o.toTap = true := by simp [Outcome.toTap, hc]
  have happlied (x : Entry) (p : Port) : x.setApplied o payload p =
      if p = o.port then { on := (charAt payload 0).getLsbD o.port.val, mask := charAt payload 1 }
      else
        match x.ports[p].applied with
        | some a => { a with on := (charAt payload 0).getLsbD p.val }
        | none => { on := (charAt payload 0).getLsbD p.val, mask := 0 } := by
    unfold Entry.setApplied
    cases x.ports[p].applied <;> rfl
  have hdiffers (x : Entry) (p : Port) : x.setDiffers o payload p =
      if p = o.port then
        ({ on := (charAt payload 0).getLsbD o.port.val, mask := charAt payload 1 } : PortState) != o.sent
      else
        match x.ports[p].applied with
        | some a => a.on != (charAt payload 0).getLsbD p.val
        | none => false := by
    unfold Entry.setDiffers
    cases x.ports[p].applied <;> rfl
  refine congrArg _ (State.takeOutcome_tap (f := f) _ hw ho hp htap hmine ?_)
  refine (State.tapOutcome_setPort (s := s.outcomeTaken f (s.eng f).mark) hcur hr hc).trans ?_
  simp only [Entry.setBy, funext (happlied (s.entry o.entry)), funext (hdiffers (s.entry o.entry))]
  rfl

end

end

section
variable {s : State} {f : Feeder} {o : Outcome} (hw : s.dir.work = []) (ho : (s.eng f).outcome = some o)
  (hp : o.probe = false) (ht : o.toTap = true)

/-- What a miss hands to the correlator and the log, `extra` behind TAP LOST, and its mirror burst. -/
def State.missOthers (s : State) (f : Feeder) (o : Outcome) (extra : List Task) : List Task :=
  let x := s.entry o.entry
  let y := x.missed s.time.minute s.cfg.missThr o.cmd
  x.missLogs s.cfg.missThr o.entry f o.addr y.silentSince ++ extra ++ mirrorTask x y o.entry

/-- The state once a miss has been taken. -/
def State.missTaken (s : State) (f : Feeder) (o : Outcome) (extra : List Task) : State :=
  let x := s.entry o.entry
  ((s.outcomeTaken f (s.eng f).mark).setEntry o.entry (x.missed s.time.minute s.cfg.missThr o.cmd)).pushCalls
    ((OrderReport.outcome o.cmd o.entry o.port .failed :: x.missOrders s.cfg.missThr o.entry).map Task.orderReport ++
      s.missOthers f o extra)

include hw ho hp ht

theorem exec_outcomeFailed {k : FailKind} (hr : o.res = .failed k) (hk : k ≠ .lineBlocked) (hcur : s.isCurrent f o = true) :
    exec (.outcomeFailed f) s = .next (s.missTaken f o []) := by
  have hmine : (!o.probe && o.toTap && !o.isOk && s.isCurrent f o) = true := by
    simp [Outcome.isOk, hp, ht, hr, hcur]
  refine congrArg _ (State.takeOutcome_tap (f := f) _ hw ho hp ht hmine ?_)
  exact (State.tapOutcome_failed (s := s.outcomeTaken f (s.eng f).mark) hcur hr hk).trans (State.failedOutcome_eq ..)

theorem exec_readOutcomeOk_other {lat : Nat} {tamper low gate : Bool} {payload : List Byte}
    (hr : o.res = .ok lat tamper low gate payload) (hcur : s.isCurrent f o = true) (hc : o.cmd = .read)
    (hs : serialOfChars payload ≠ (s.entry o.entry).serial) : exec (.readOutcomeOk f) s =
      .next (s.missTaken f o [tapAlarm .tapStateMismatch .minor f o.addr (serialOfChars payload)]) := by
  have hmine : (o.ofTap .read && o.isOk && s.isCurrent f o) = true := by simp [Outcome.ofTap, Outcome.isOk, hp, hc, hr, hcur]
  refine congrArg _ (State.takeOutcome_tap (f := f) _ hw ho hp ht hmine ?_)
  exact ((State.tapOutcome_read (s := s.outcomeTaken f (s.eng f).mark) hcur hr hc).trans (if_neg hs)).trans
    (State.failedOutcome_eq ..)

/-- An outcome that counts as no miss, LINE-BLOCKED or stale, is handed on as FAILED, and nothing else is done. -/
theorem exec_outcome_passedOn {c : Instr}
    (hc : c = .outcomeFailed f ∧ o.res = .failed .lineBlocked ∧ s.isCurrent f o = true ∨
      c = .staleOutcome f ∧ s.isCurrent f o = false) :
    exec c s = .next ((s.outcomeTaken f (s.eng f).mark).pushCalls
      [.orderReport (.outcome o.cmd o.entry o.port .failed)]) := by
  rcases hc with ⟨rfl, hr, hcur⟩ | ⟨rfl, hcur⟩
  · have hmine : (!o.probe && o.toTap && !o.isOk && s.isCurrent f o) = true := by
      simp [Outcome.isOk, hp, ht, hr, hcur]
    exact congrArg _ (State.takeOutcome_tap (f := f) _ hw ho hp ht hmine
      (State.tapOutcome_lineBlocked (s := s.outcomeTaken f (s.eng f).mark) hcur hr))
  · have hmine : (!o.probe && o.toTap && !s.isCurrent f o) = true := by simp [hp, ht, hcur]
    exact congrArg _ (State.takeOutcome_tap (f := f) _ hw ho hp ht hmine
      (State.tapOutcome_stale (s := s.outcomeTaken f (s.eng f).mark) hcur))

end

section
variable {s : State} {f : Feeder} {o : Outcome} {extra : List Task} {more : List AlarmEntry}
  (hextra : ∀ t ∈ extra, t.Logs) (hnone : extra.flatMap Task.corrPart = [])
  (hmore : extra.flatMap (Task.logPart s.time.minute) = more)
include hextra hnone hmore

theorem State.missOthers_spec :
    let x := s.entry o.entry
    let since := if x.misses = 0 then s.time.minute else x.silentSince
    (∀ t ∈ s.missOthers f o extra, t.Logs) ∧
    (s.missOthers f o extra).flatMap Task.corrPart =
      (if x.state ≠ .lost ∧ s.cfg.missThr ≤ min 15 (x.misses + 1) then [.lost o.entry f o.addr since] else []) ∧
    (s.missOthers f o extra).flatMap (Task.logPart s.time.minute) =
      (if x.state ≠ .lost ∧ s.cfg.missThr ≤ min 15 (x.misses + 1) then
        [AlarmEntry.mk .tapLost .major (.place f o.addr) s.time.minute (word since)] else []) ++ more := by
  intro x since
  obtain ⟨hlogs, hcorr, hlog⟩ := x.missLogs_spec s.cfg.missThr o.entry f o.addr since s.time.minute
  obtain ⟨mcorr, mlog⟩ := mirrorTask_parts o.entry x (x.missed s.time.minute s.cfg.missThr o.cmd) s.time.minute
  have heq : s.missOthers f o extra = x.missLogs s.cfg.missThr o.entry f o.addr since ++ extra ++
      mirrorTask x (x.missed s.time.minute s.cfg.missThr o.cmd) o.entry := rfl
  rw [heq]
  refine ⟨List.forall_mem_append.2 ⟨List.forall_mem_append.2 ⟨hlogs, hextra⟩, mirrorTask_logs o.entry _ _⟩, ?_, ?_⟩
  · simp only [List.flatMap_append, hcorr, hnone, mcorr, List.append_nil]
  · simp only [List.flatMap_append, hlog, hmore, mlog, List.append_nil]

/-- What a miss leaves: the frame, the missed entry, and its hand-offs. -/
theorem State.missTaken_leaves (hw : s.dir.work = []) (hroom : s.order.reports.length + 1 < Config.orderReportDepth)
    (hlen : more.length ≤ 1) :
    let x := s.entry o.entry
    let since := if x.misses = 0 then s.time.minute else x.silentSince
    let t := s.missTaken f o extra
    (t.eng f = { s.eng f with outcome := none } ∧ (∀ g, g ≠ f → t.eng g = s.eng g) ∧
      (∀ e, e ≠ o.entry → t.entry e = s.entry e) ∧ SameMemory s t) ∧
    t.entry o.entry = x.missed s.time.minute s.cfg.missThr o.cmd ∧
    t.order.reports = s.order.reports ++ [.outcome o.cmd o.entry o.port .failed] ++ x.missOrders s.cfg.missThr o.entry ∧
    (s.run.part ≠ .idle → s.log.intake = [] → s.corr.reports.length < Config.corrReportDepth →
      t.corr.reports = s.corr.reports ++
        (if x.state ≠ .lost ∧ s.cfg.missThr ≤ min 15 (x.misses + 1) then [.lost o.entry f o.addr since] else []) ∧
      t.log.intake = (if x.state ≠ .lost ∧ s.cfg.missThr ≤ min 15 (x.misses + 1) then
        [AlarmEntry.mk .tapLost .major (.place f o.addr) s.time.minute (word since)] else []) ++ more) := by
  intro x since t
  obtain ⟨hlogs, hcorr, hlog⟩ := State.missOthers_spec (s := s) (f := f) (o := o) hextra hnone hmore
  have hif {α : Type} (a : α) :
      (if x.state ≠ .lost ∧ s.cfg.missThr ≤ min 15 (x.misses + 1) then [a] else []).length ≤ 1 := by
    split <;> simp
  have horders : (x.missOrders s.cfg.missThr o.entry).length ≤ 1 := hif _
  have hleft : ((s.outcomeTaken f (s.eng f).mark).setEntry o.entry (x.missed s.time.minute s.cfg.missThr o.cmd)).HandsOn t
      (.outcome o.cmd o.entry o.port .failed :: x.missOrders s.cfg.missThr o.entry) (s.missOthers f o extra) := by
    refine State.pushCalls_handsOn _ hw ?_ hlogs
    show s.order.reports.length + ((x.missOrders s.cfg.missThr o.entry).length + 1) ≤ Config.orderReportDepth
    omega
  obtain ⟨heng, hengs, hentry, hentries, hmem⟩ := hleft.taken
  refine ⟨⟨heng, hengs, hentries, hmem⟩, hentry, ?_, fun hp hl hc => ?_⟩
  · rw [hleft.reports, List.append_assoc]
    rfl
  · obtain ⟨hreports, hlogged⟩ := hleft.logged hp
      (by
        rw [hcorr]
        exact Nat.le_trans (Nat.add_le_add_left (hif _) _) hc)
      (by
        show s.log.intake.length + ((s.missOthers f o extra).flatMap (Task.logPart s.time.minute)).length ≤ Config.intakeDepth
        rw [hl, hlog, List.length_append, List.length_nil, Nat.zero_add]
        exact (Nat.add_le_add (hif _) hlen).trans (by decide))
    exact ⟨hreports.trans (congrArg _ hcorr), hlogged.trans ((congrArg₂ (· ++ ·) hl hlog).trans (List.nil_append _))⟩

end

/-- Settles O46: the answers of a READ and of a SET PORT, the misses, and the outcomes that are passed on. -/
theorem tapOutcomes : Obligations.TapOutcomes := by
  unfold Obligations.TapOutcomes
  refine ⟨fun s f o lat tamper low gate payload hw ho hp hr hcur hroom => ⟨fun hc hs => ?_, fun hc => ?_⟩,
    fun s f o hw ho hp ht hroom => ⟨fun k hk hr hcur => ?_, fun lat tamper low gate payload hc hr hs hcur => ?_,
      fun c hc => ?_⟩⟩
  · have hleft := State.answerTaken_handsOn (f := f) (o := o) ((s.entry o.entry).readBy s.time.minute lat tamper low payload)
      (.outcome .read o.entry o.port (.readOk (readPorts payload))) lat tamper low ((s.entry o.entry).readDiffers payload)
      hw hroom
    obtain ⟨heng, hengs, hentry, hentries, hmem⟩ := hleft.taken
    refine ⟨_, exec_readOutcomeOk hw ho hp hr hcur hc hs, ⟨heng, hengs, hentries, hmem, fun hpart hl hcorr => ?_⟩, ?_, ?_,
      hleft.reports⟩
    · exact State.answerTaken_logged _ _ _ _ _ _ hw hroom hpart hl hcorr
    · rw [hentry]
      rfl
    · intro p
      rw [State.tapPort, hentry]
      exact Vector.getElem_ofFn p.isLt
  · have hleft := State.answerTaken_handsOn (f := f) (o := o) ((s.entry o.entry).setBy o s.time.minute lat tamper low payload)
      (.outcome .setPort o.entry o.port (.setOk
        { on := (charAt payload 0).getLsbD o.port.val, mask := charAt payload 1 } s.time.minute)) lat tamper low
      ((s.entry o.entry).setDiffers o payload) hw hroom
    obtain ⟨heng, hengs, hentry, hentries, hmem⟩ := hleft.taken
    refine ⟨_, exec_setPortOutcomeOk hw ho hp hr hcur hc, ⟨heng, hengs, hentries, hmem, fun hpart hl hcorr => ?_⟩, ?_, ?_,
      hleft.reports⟩
    · exact State.answerTaken_logged _ _ _ _ _ _ hw hroom hpart hl hcorr
    · rw [hentry]
      rfl
    · intro p
      rw [State.tapPort, hentry]
      exact Vector.getElem_ofFn p.isLt
  · exact ⟨_, exec_outcomeFailed hw ho hp ht hr hk hcur, State.missTaken_leaves (fun t h => nomatch h) rfl rfl hw hroom
      (Nat.zero_le 1)⟩
  · exact ⟨_, exec_readOutcomeOk_other hw ho hp ht hr hcur hc hs, State.missTaken_leaves
      (List.forall_mem_singleton.2 (tapAlarm_logs ..)) rfl rfl hw hroom (Nat.le_refl 1)⟩
  · rw [exec_outcome_passedOn hw ho hp ht hc, State.pushCalls_report (s := s.outcomeTaken f (s.eng f).mark) _ hw
      (Nat.lt_of_succ_lt hroom)]
    exact ⟨_, rfl, ⟨State.eng_setEng_self s f _, fun g hg => State.eng_setEng_ne s _ hg, fun _ _ => rfl, fun _ => rfl⟩, rfl, rfl,
      rfl, rfl⟩

end Sys2Proof.Machine
end

section
/-! The choices of an enumeration (O49): the position given to a serial, and the entry taken for it (R89, R90). -/

open Sys2Proof

namespace Sys2Proof.Machine

/-! ### The position (R90) -/

/-- No position of a row lies above its last. -/
theorem Row.le_lastPos {r : Row} (h : r.Pairwise fun x y => x.1 ≤ y.1) {x : Nat × EntryId} (hx : x ∈ r) :
    x.1 ≤ Row.lastPos r := by
  have hne : r ≠ [] := List.ne_nil_of_mem hx
  have hlast : Row.lastPos r = (r.getLast hne).1 := by rw [Row.lastPos, List.getLast?_eq_some_getLast hne]; rfl
  rw [hlast]
  rw [← List.dropLast_concat_getLast hne] at h hx
  rcases List.mem_append.1 hx with hx | hx
  · exact (List.pairwise_append.1 h).2.2 x hx _ List.mem_cons_self
  · rw [List.mem_singleton.1 hx]

section
variable {s : State} {f : Feeder} {en : Enum} {serial : Word}

theorem State.choosePos_fresh (h : en.mode = .fresh) : s.choosePos f en serial = en.next := by
  unfold State.choosePos
  rw [h]

/-- An EXTEND leaves a tap that is placed on the feeder at its position. -/
theorem State.choosePos_own {e : EntryId} {n : Nat} (h : en.mode = .extend) (hs : s.entryOfSerial serial = some e)
    (hp : (s.entry e).place = some { feeder := f, pos := n }) : s.choosePos f en serial = n := by
  unfold State.choosePos
  rw [h, hs]
  dsimp only
  rw [hp]
  exact if_pos rfl

/-- An EXTEND gives every other tap the position above the highest occupied one. -/
theorem State.choosePos_above (h : en.mode = .extend)
    (hs : ∀ e, s.entryOfSerial serial = some e → (s.entry e).on f = false) :
    s.choosePos f en serial = Row.lastPos (s.row f) + 1 := by
  unfold State.choosePos
  rw [h]
  dsimp only
  split
  · next e he =>
    split
    · next pl hpl =>
      have hoff : pl.feeder ≠ f := by
        have hon := hs e he
        rw [Entry.on, hpl] at hon
        exact ne_of_beq_false hon
      exact if_neg hoff
    · rfl
  · rfl

theorem State.row_eq_nil (h : ∀ e, (s.entry e).on f = false) : s.row f = [] := by
  refine List.eq_nil_iff_forall_not_mem.2 fun x hx => Bool.false_ne_true ((h x.2).symm.trans ?_)
  exact (Entry.on_iff _ f).2 ⟨x.1, (s.mem_row f x.1 x.2).1 hx⟩

end

/-! ### The entry (R89) -/

theorem Entry.reusable_iff (x : Entry) : x.reusable = true ↔
    x.state = .lost ∧ x.place = none ∧ x.pending = none ∧ ∀ p : Port, x.ports[p].claim = none := by
  simp only [Entry.reusable, Bool.and_eq_true, beq_iff_eq, Option.isNone_iff_eq_none, Vector.all_eq_true, and_assoc]
  refine and_congr_right fun _ => and_congr_right fun _ => and_congr_right fun _ => ?_
  exact ⟨fun h p => h p.val p.isLt, fun h i hi => h ⟨i, hi⟩⟩

/-- The step of free-on-demand's search: of two entries that can be taken, the one silent for longer, the first of equals. -/
def State.spareStep (s : State) (a : Option EntryId) (e : EntryId) : Option EntryId :=
  if (s.entry e).reusable then
    match a with
    | none => some e
    | some b => if (s.entry e).lastAnswer < (s.entry b).lastAnswer then some e else a
  else a

theorem State.freeOnDemand_eq (s : State) : s.freeOnDemand = (List.finRange 576).foldl s.spareStep none := rfl

section
variable {s : State}

theorem State.spareStep_none {e : EntryId} (a : Option EntryId) (h : (s.entry e).reusable = false) : s.spareStep a e = a := by
  unfold State.spareStep
  rw [h]
  exact if_neg Bool.false_ne_true

/-- The entry `e` is taken before `d`: it was silent for longer, or as long and comes first. -/
def State.sparedBefore (s : State) (e d : EntryId) : Prop :=
  (s.entry e).lastAnswer < (s.entry d).lastAnswer ∨ (s.entry e).lastAnswer = (s.entry d).lastAnswer ∧ e < d

/-- What the search finds among some entries: none where none can be taken, else the one taken before every other. -/
def State.Spared (s : State) (l : List EntryId) : Option EntryId → Prop
  | none => ∀ d ∈ l, (s.entry d).reusable = false
  | some b => b ∈ l ∧ (s.entry b).reusable = true ∧ ∀ d ∈ l, (s.entry d).reusable = true → d ≠ b → s.sparedBefore b d

/-- One entry more, behind those searched. -/
theorem State.Spared.step {l : List EntryId} {a : Option EntryId} {c : EntryId} (h : s.Spared l a) (hc : ∀ b ∈ l, b < c) :
    s.Spared (l ++ [c]) (s.spareStep a c) := by
  have hcases {d : EntryId} (hd : d ∈ l ++ [c]) : d ∈ l ∨ d = c := (List.mem_append.1 hd).imp_right List.mem_singleton.1
  have hlast : c ∈ l ++ [c] := List.mem_append_right l List.mem_cons_self
  cases hr : (s.entry c).reusable with
  | false =>
    rw [State.spareStep_none a hr]
    cases a with
    | none => exact fun d hd => (hcases hd).elim (h d) fun he => he ▸ hr
    | some b =>
      obtain ⟨hmem, hb, hbest⟩ := h
      refine ⟨List.mem_append_left _ hmem, hb, fun d hd hdr => (hcases hd).elim (fun hdl => hbest d hdl hdr) fun he => ?_⟩
      exact absurd (hr.symm.trans (he ▸ hdr)) Bool.false_ne_true
  | true =>
    unfold State.spareStep
    rw [if_pos hr]
    cases a with
    | none =>
      refine ⟨hlast, hr, fun d hd hdr hne => ?_⟩
      exact absurd ((h d ((hcases hd).resolve_right hne)).symm.trans hdr) Bool.false_ne_true
    | some b =>
      obtain ⟨hmem, hb, hbest⟩ := h
      dsimp only
      split
      · next hlt =>
        refine ⟨hlast, hr, fun d hd hdr hne => .inl ?_⟩
        have hdl := (hcases hd).resolve_right hne
        by_cases hdb : d = b
        · rwa [hdb]
        · rcases hbest d hdl hdr hdb with hbd | ⟨hbd, -⟩ <;> omega
      · next hge =>
        refine ⟨List.mem_append_left _ hmem, hb, fun d hd hdr hne => (hcases hd).elim (fun hdl => hbest d hdl hdr hne) ?_⟩
        rintro rfl
        have hlt := hc b hmem
        rcases Nat.lt_or_eq_of_le (Nat.not_lt.1 hge) with hbd | hbd
        · exact .inl hbd
        · exact .inr ⟨hbd, hlt⟩

theorem State.freeOnDemand_spared {a : Option EntryId} (h : s.freeOnDemand = a) : s.Spared (List.finRange 576) a := by
  rw [← h, State.freeOnDemand_eq]
  have hsorted : (List.finRange 576).Pairwise (· < ·) := List.pairwise_lt_finRange 576
  generalize List.finRange 576 = l at hsorted
  induction l using List.reverseRecOn with
  | nil => exact fun d hd => nomatch hd
  | append_singleton l c ih =>
    obtain ⟨hl, -, hlt⟩ := List.pairwise_append.1 hsorted
    rw [List.foldl_concat]
    exact (ih hl).step fun b hb => hlt b hb c List.mem_cons_self

theorem State.freeOnDemand_none (h : ∀ e, (s.entry e).reusable = false) : s.freeOnDemand = none := by
  cases hf : s.freeOnDemand with
  | none => rfl
  | some b =>
    obtain ⟨-, hb, -⟩ := State.freeOnDemand_spared hf
    exact absurd ((h b).symm.trans hb) Bool.false_ne_true

/-- Free-on-demand takes the entry that is taken before every other that can be. -/
theorem State.freeOnDemand_some {e : EntryId} (he : (s.entry e).reusable = true)
    (hbest : ∀ d, (s.entry d).reusable = true → d ≠ e → s.sparedBefore e d) : s.freeOnDemand = some e := by
  cases hf : s.freeOnDemand with
  | none => exact absurd ((State.freeOnDemand_spared hf e (List.mem_finRange e)).symm.trans he) Bool.false_ne_true
  | some b =>
    obtain ⟨-, hb, hall⟩ := State.freeOnDemand_spared hf
    by_cases hne : b = e
    · rw [hne]
    · have heb := hbest b hb hne
      have hbe := hall e (List.mem_finRange e) he (Ne.symm hne)
      rcases heb with heb | ⟨heb, hlt⟩ <;> rcases hbe with hbe | ⟨hbe, hlt'⟩
      · omega
      · omega
      · omega
      · exact absurd hlt (lt_asymm hlt')

/-- The lowest FREE entry. -/
theorem State.freeEntry_some {e : EntryId} (he : (s.entry e).state = .free)
    (hlow : ∀ d, d < e → (s.entry d).state ≠ .free) : s.freeEntry = some e := by
  rw [State.freeEntry, ← Fin.find?_eq_find?_finRange]
  exact Fin.find?_eq_some_iff.2 ⟨beq_iff_eq.2 he, fun d hd => beq_eq_false_iff_ne.2 (hlow d hd)⟩

theorem State.freeEntry_none (h : ∀ e, (s.entry e).state ≠ .free) : s.freeEntry = none :=
  List.find?_eq_none.2 fun e _ hf => h e (beq_iff_eq.1 hf)

section
variable {serial : Word}

theorem State.chooseEntry_held {e : EntryId} (h : s.entryOfSerial serial = some e) : s.chooseEntry serial = some (e, .held) := by
  unfold State.chooseEntry
  rw [h]

theorem State.chooseEntry_free {e : EntryId} (h : s.entryOfSerial serial = none) (hf : s.freeEntry = some e) :
    s.chooseEntry serial = some (e, .free) := by
  unfold State.chooseEntry
  rw [h, hf]

theorem State.chooseEntry_spare (h : s.entryOfSerial serial = none) (hf : s.freeEntry = none) :
    s.chooseEntry serial = s.freeOnDemand.map fun e => (e, .reused) := by
  unfold State.chooseEntry
  rw [h, hf]

/-- Where no entry can be had, none holds the serial. -/
theorem State.entryOfSerial_of_chooseEntry (h : s.chooseEntry serial = none) : s.entryOfSerial serial = none := by
  cases hs : s.entryOfSerial serial with
  | none => rfl
  | some e => exact nomatch (State.chooseEntry_held hs).symm.trans h

end

/-- Where an EXTEND places a tap, by its entry (R90). -/
theorem State.choosePos_spec (s : State) (f : Feeder) (en : Enum) (serial : Word) (h : en.mode = .extend) :
    (∀ e n, s.entryOfSerial serial = some e → (s.entry e).place = some { feeder := f, pos := n } →
      s.choosePos f en serial = n) ∧
    ((∀ e, s.entryOfSerial serial = some e → (s.entry e).on f = false) →
      (∀ e n, (s.entry e).place = some { feeder := f, pos := n } → n < s.choosePos f en serial) ∧
      ((∀ e, (s.entry e).on f = false) → s.choosePos f en serial = 1) ∧
      ((∃ e, (s.entry e).on f = true) →
        ∃ e n, (s.entry e).place = some { feeder := f, pos := n } ∧ s.choosePos f en serial = n + 1)) := by
  refine ⟨fun e n hs hp => State.choosePos_own h hs hp, fun hoff => ?_⟩
  rw [State.choosePos_above h hoff]
  refine ⟨fun e n hp => ?_, fun hnone => ?_, fun ⟨e, he⟩ => ?_⟩
  · exact Nat.lt_succ_of_le (Row.le_lastPos (s.row_sorted f) ((s.mem_row f n e).2 hp))
  · rw [State.row_eq_nil hnone]
    rfl
  · obtain ⟨n, hn⟩ := (Entry.on_iff _ f).1 he
    obtain ⟨x, hx, hlast⟩ := Row.lastPos_mem (List.ne_nil_of_mem ((s.mem_row f n e).2 hn))
    exact ⟨x.2, x.1, (s.mem_row f x.1 x.2).1 hx, congrArg (· + 1) hlast⟩

end

/-- The entry taken for a serial (R89): its own, the lowest FREE one, or that which free-on-demand takes. -/
theorem State.chooseEntry_spec (s : State) (serial : Word) :
    let spare (e : EntryId) : Prop := (s.entry e).state = .lost ∧ (s.entry e).place = none ∧ (s.entry e).pending = none ∧
      ∀ p : Port, (s.tapPort e p).claim = none
    (∀ e, s.entryOfSerial serial = some e → s.chooseEntry serial = some (e, .held)) ∧
    (s.entryOfSerial serial = none →
      (∀ e, (s.entry e).state = .free → (∀ d, d < e → (s.entry d).state ≠ .free) →
        s.chooseEntry serial = some (e, .free)) ∧
      ((∀ e, (s.entry e).state ≠ .free) →
        ((∀ e, ¬ spare e) → s.chooseEntry serial = none) ∧
        ∀ e, spare e → (∀ d, spare d → d ≠ e →
            (s.entry e).lastAnswer < (s.entry d).lastAnswer ∨
              (s.entry e).lastAnswer = (s.entry d).lastAnswer ∧ e < d) →
          s.chooseEntry serial = some (e, .reused))) := by
  intro spare
  have hspare (e : EntryId) : (s.entry e).reusable = true ↔ spare e := (s.entry e).reusable_iff
  refine ⟨fun e hs => State.chooseEntry_held hs, fun hs => ⟨fun e he hlow => ?_, fun hfull => ⟨fun hnone => ?_,
    fun e he hbest => ?_⟩⟩⟩
  · exact State.chooseEntry_free hs (State.freeEntry_some he hlow)
  · rw [State.chooseEntry_spare hs (State.freeEntry_none hfull), State.freeOnDemand_none fun e =>
      Bool.eq_false_iff.2 fun h => hnone e ((hspare e).1 h)]
    rfl
  · rw [State.chooseEntry_spare hs (State.freeEntry_none hfull), State.freeOnDemand_some ((hspare e).2 he) fun d hd =>
      hbest d ((hspare d).1 hd)]
    rfl

end Sys2Proof.Machine
end

section
/-! The calls of an enumeration (O49): its first call, what a FORGET leaves, and the ASSIGN after an IDENTIFY (R87–R90). -/

open Sys2Proof

namespace Sys2Proof.Machine

/-! ### A call sent (R58, R88–R91) -/

/-- The transaction of an enumeration's call. -/
def Enum.call (en : Enum) (attempts : Nat) : TapCmd → Txn
  | .forget => newTxn .forget 63 0 0 PortState.off false [] attempts
  | .assign => newTxn .assign 0 0 0 PortState.off false (assignPayload en.pos en.serial) attempts
  | _ => newTxn .identify 0 0 0 PortState.off false [] attempts

/-- The enumeration once a call has been sent. -/
def Enum.called (en : Enum) (cmd : TapCmd) : Enum :=
  { en with due := none, again := false, forgot := if cmd = .forget then true else en.forgot }

/-- The engine that sends a call of its enumeration. -/
def Engine.calling (x : Engine) (en : Enum) (cmd : TapCmd) (attempts : Nat) : Engine :=
  Engine.begin { x with enum := some (en.called cmd) } (en.call attempts cmd) x.mark

section
variable {s : State} {f : Feeder} {en : Enum}

theorem State.beginCall_eq (cmd : TapCmd) (hr : s.run.part = .running) (hs : (s.eng f).state = .enumerating)
    (hen : (s.eng f).enum = some en) : s.beginCall f cmd = s.setEng f ((s.eng f).calling en cmd s.cfg.attempts) := by
  unfold State.beginCall
  simp only [hen, if_pos (And.intro hr hs)]
  cases cmd <;> rfl

/-- The Tap Directory's hand-offs with the call that they lead to, sent in the same step. -/
theorem State.pushCalls_call {ts : List Task} (cmd : TapCmd) (hw : s.dir.work = []) (hr : s.run.part = .running)
    (hs : (s.eng f).state = .enumerating) (hen : (s.eng f).enum = some en) (h : ∀ t ∈ ts, t.HandOff) (hroom : s.HasRoom ts) :
    ∃ p, s.pushCalls (ts ++ [.beginCall f cmd]) =
      (s.delivered p ts).setEng f ((s.eng f).calling en cmd s.cfg.attempts) := by
  refine State.pushCalls_last (g := fun t => t.setEng f ((s.eng f).calling en cmd s.cfg.attempts)) hw h hroom (fun p => ?_)
    fun _ => hw
  exact congrArg (·, none) (State.beginCall_eq (s := s.delivered p ts) cmd hr hs hen)

end

/-! ### A request taken (R87) -/

/-- The engine of an enumeration that begins, no call of it sent. -/
def Engine.enumBegun (x : Engine) (mode : EnumMode) (mark : Bool) : Engine :=
  { x with state := .enumerating, request := none, txn := none, enum := some (Enum.start mode), mark := mark }

theorem exec_enumerationRequestTaken {s : State} {f : Feeder} {m : EnumMode} (mark : Bool) (hq : s.quiet)
    (hr : s.run.part = .running) (hs : (s.eng f).state = .ready) (hx : (s.eng f).txn = none)
    (ho : (s.eng f).outcome = none) (hg : (s.eng f).quiet = false) (hreq : (s.eng f).request = some m)
    (hopen : s.openOutageOn f = false) : exec (.enumerationRequestTaken f mark) s =
      .next ((s.setEng f ((s.eng f).enumBegun m mark)).pushCalls
        ([.corrReport (.enumStart f)] ++ [.beginCall f (if m = .fresh then .forget else .identify)])) := by
  have he : exec (.enumerationRequestTaken f mark) s = .next (doEnumerationRequestTaken f mark s) := rfl
  have hbegun : (s.setEng f { s.eng f with mark := mark }).beginEnum f m =
      (s.setEng f ((s.eng f).enumBegun m mark), [.corrReport (.enumStart f)]) := by
    rw [State.beginEnum, State.setEng_setEng, State.eng_setEng_self]
    rfl
  have hclosed : ¬ (m = .fresh ∧ s.openOutageOn f = true) := fun h => Bool.false_ne_true (hopen.symm.trans h.2)
  rw [he, doEnumerationRequestTaken, if_pos ⟨hr, hs, hx, ho, hg, hq.1 (.engine f), hq.1 .directory⟩]
  split
  · next hnone => exact nomatch hnone.symm.trans hreq
  · next n hn =>
    obtain rfl := Option.some.inj (hn.symm.trans hreq)
    rw [if_neg hclosed]
    exact congrArg (fun b : State × List Task =>
      Host.Outcome.next (b.1.pushCalls (b.2 ++ [.beginCall f (if n = .fresh then .forget else .identify)]))) hbegun

/-! ### The outcome of an enumeration's call -/

/-- The engine of a feeder enumerates, the outcome `o` of its call waits, and there is room in the queues. -/
structure State.EnumAnswer (s : State) (f : Feeder) (o : Outcome) (en : Enum) : Prop where
  dirWork : s.dir.work = []
  part : s.run.part = .running
  state : (s.eng f).state = .enumerating
  outcome : (s.eng f).outcome = some o
  probe : o.probe = false
  enum : (s.eng f).enum = some en
  corr : s.corr.reports.length < Config.corrReportDepth
  reports : s.order.reports = []
  intake : s.log.intake = []

section
variable {s : State} {f : Feeder} {o : Outcome} {en : Enum}

theorem State.EnumAnswer.takes {cmd : TapCmd} {u : State} {ts : List Task} (h : s.EnumAnswer f o en) (mark : Bool)
    (hc : o.cmd = cmd) (he : (s.outcomeTaken f mark).outcomeEffect f o = (u, ts)) :
    s.takeEnumOutcome f cmd mark = u.pushCalls ts := by
  have hmine : ((s.eng f).enum.isSome && !o.probe && o.cmd == cmd) = true := by simp [h.enum, h.probe, hc]
  exact (State.takeOutcome_due mark _ h.outcome h.dirWork hmine).trans (by rw [← State.outcomeTaken, he])

theorem State.EnumAnswer.taken_enum (h : s.EnumAnswer f o en) (mark : Bool) :
    ((s.outcomeTaken f mark).eng f).enum = some en :=
  (congrArg Engine.enum (State.eng_setEng_self s f _)).trans h.enum

/-- The effect of an outcome that is neither a probe's nor a tap's is that of its call. -/
theorem State.outcomeEffect_call {u : State} (hp : o.probe = false) (hen : (u.eng f).enum = some en) :
    (o.cmd = .forget → u.outcomeEffect f o = u.forgetOutcome f en o) ∧
      (o.cmd = .identify → u.outcomeEffect f o = u.identifyOutcome f en o) ∧
      (o.cmd = .assign → u.outcomeEffect f o = u.assignOutcome f en o) := by
  refine ⟨fun hc => ?_, fun hc => ?_, fun hc => ?_⟩ <;>
    simp only [State.outcomeEffect, Outcome.toTap, hp, hc, hen] <;> rfl

theorem exec_forgetOutcome {u : State} {ts : List Task} (mark : Bool) (h : s.EnumAnswer f o en) (hc : o.cmd = .forget)
    (he : (s.outcomeTaken f mark).forgetOutcome f en o = (u, ts)) :
    exec (.forgetOutcome f mark) s = .next (u.pushCalls ts) :=
  congrArg _ (h.takes mark hc (((State.outcomeEffect_call h.probe (h.taken_enum mark)).1 hc).trans he))

theorem exec_enumIdentifyOutcome {u : State} {ts : List Task} (mark : Bool) (h : s.EnumAnswer f o en)
    (hc : o.cmd = .identify) (he : (s.outcomeTaken f mark).identifyOutcome f en o = (u, ts)) :
    exec (.enumIdentifyOutcome f mark) s = .next (u.pushCalls ts) :=
  congrArg _ (h.takes mark hc (((State.outcomeEffect_call h.probe (h.taken_enum mark)).2.1 hc).trans he))

theorem exec_assignOutcome {u : State} {ts : List Task} (mark : Bool) (h : s.EnumAnswer f o en) (hc : o.cmd = .assign)
    (he : (s.outcomeTaken f mark).assignOutcome f en o = (u, ts)) :
    exec (.assignOutcome f mark) s = .next (u.pushCalls ts) :=
  congrArg _ (h.takes mark hc (((State.outcomeEffect_call h.probe (h.taken_enum mark)).2.2 hc).trans he))

end

/-! ### The hand-offs of a step of an enumeration -/

/-- The state with another pool. -/
def State.withPool (s : State) (pool : Vector Entry 576) : State := { s with dir := { s.dir with pool := pool } }

/-- In `u` the feeder's engine is in a step of an enumeration that began in `s`, nothing of it handed on yet; `en` is the
enumeration, none where the step ends it. -/
structure State.InStep (s u : State) (f : Feeder) (en : Option Enum) : Prop where
  dirWork : u.dir.work = []
  part : u.run.part = .running
  state : (u.eng f).state = .enumerating
  enum : (u.eng f).enum = en
  order : u.order.reports = []
  corr : u.corr.reports = s.corr.reports
  intake : u.log.intake = []
  minute : u.time.minute = s.time.minute
  mem : u.mem = s.mem

/-- Hand-offs that bring nothing to the Order Unit and to the correlator, and the entries given to the log. -/
structure OnlyLogs (ts : List Task) (minute : Nat) (log : List AlarmEntry) : Prop where
  handOff : ∀ t ∈ ts, t.HandOff
  order : ts.flatMap Task.orderPart = []
  corr : ts.flatMap Task.corrPart = []
  log : ts.flatMap (Task.logPart minute) = log

section
variable {ts us : List Task} {minute : Nat} {l m : List AlarmEntry}

theorem OnlyLogs.of_logs (h : ∀ t ∈ ts, t.Logs) (hc : ts.flatMap Task.corrPart = [])
    (hl : ts.flatMap (Task.logPart minute) = l) : OnlyLogs ts minute l :=
  ⟨fun t ht => (h t ht).1, List.flatMap_eq_nil_iff.2 fun t ht => (h t ht).2, hc, hl⟩

theorem OnlyLogs.nil : OnlyLogs [] minute [] := ⟨fun _ ht => (nomatch ht), rfl, rfl, rfl⟩

theorem OnlyLogs.alarm (k : AlarmKind) (sev : Severity) (subject : Subject) (v : Word) :
    OnlyLogs [.alarm k sev subject v none] minute [AlarmEntry.mk k sev subject minute v] :=
  ⟨List.forall_mem_singleton.2 (.alarm ..), rfl, rfl, rfl⟩

theorem OnlyLogs.burst (r : Requester) (b : Burst) : OnlyLogs [.burst r b] minute [] :=
  ⟨List.forall_mem_singleton.2 (.burst ..), rfl, rfl, rfl⟩

theorem OnlyLogs.append (ht : OnlyLogs ts minute l) (hu : OnlyLogs us minute m) : OnlyLogs (ts ++ us) minute (l ++ m) :=
  ⟨List.forall_mem_append.2 ⟨ht.handOff, hu.handOff⟩, by rw [List.flatMap_append, ht.order, hu.order]; rfl,
    by rw [List.flatMap_append, ht.corr, hu.corr]; rfl, by rw [List.flatMap_append, ht.log, hu.log]⟩

theorem OnlyLogs.thenBurst (h : OnlyLogs ts minute l) (r : Requester) (b : Burst) :
    OnlyLogs (ts ++ [.burst r b]) minute l := by
  have hboth := h.append (.burst r b)
  rwa [List.append_nil] at hboth

/-- With a report to the correlator behind them. -/
theorem OnlyLogs.thenReport (h : OnlyLogs ts minute l) (r : CorrReport) :
    (∀ t ∈ ts ++ [Task.corrReport r], t.HandOff) ∧ (ts ++ [Task.corrReport r]).flatMap Task.orderPart = [] ∧
      (ts ++ [Task.corrReport r]).flatMap Task.corrPart = [r] ∧
      (ts ++ [Task.corrReport r]).flatMap (Task.logPart minute) = l := by
  rw [List.flatMap_append, List.flatMap_append, List.flatMap_append, h.order, h.corr, h.log]
  exact ⟨List.forall_mem_append.2 ⟨h.handOff, List.forall_mem_singleton.2 (.corrReport r)⟩, rfl, rfl, List.append_nil l⟩

theorem OnlyLogs.flatMap {α : Type} (l : List α) {g : α → List Task} {k : α → List AlarmEntry}
    (h : ∀ a, OnlyLogs (g a) minute (k a)) : OnlyLogs (l.flatMap g) minute (l.flatMap k) := by
  induction l with
  | nil => exact .nil
  | cons a l ih => exact (h a).append ih

theorem OnlyLogs.mirror (e : EntryId) (x y : Entry) : OnlyLogs (mirrorTask x y e) minute [] := by
  obtain ⟨hcorr, hlog⟩ := mirrorTask_parts e x y minute
  exact .of_logs (mirrorTask_logs e x y) hcorr hlog

theorem OnlyLogs.flag (k : AlarmKind) (f : Feeder) (pos : Nat) (old new : Bool) :
    OnlyLogs (flagAlarm k f pos old new) minute (flagLog k f pos minute old new) := by
  obtain ⟨hcorr, hlog⟩ := flagAlarm_parts f pos k old new minute
  exact .of_logs (flagAlarm_logs f pos k old new) hcorr hlog

end

/-- The queues have room for what a step of an enumeration hands on, the Order Unit's and the intake being empty. -/
structure State.StepRoom (s : State) (ts : List Task) : Prop where
  handOff : ∀ t ∈ ts, t.HandOff
  order : (ts.flatMap Task.orderPart).length ≤ Config.orderReportDepth
  corr : s.corr.reports.length + (ts.flatMap Task.corrPart).length ≤ Config.corrReportDepth
  intake : (ts.flatMap (Task.logPart s.time.minute)).length ≤ Config.intakeDepth

/-- In `t` the step that began in `s` has ended, its changes those of `u` and its hand-offs made. -/
structure State.StepDone (s u t : State) (ts : List Task) : Prop where
  entry : ∀ e, t.entry e = u.entry e
  roll : ∀ f, t.roll f = u.roll f
  order : t.order.reports = ts.flatMap Task.orderPart
  corr : t.corr.reports = s.corr.reports ++ ts.flatMap Task.corrPart
  intake : t.log.intake = ts.flatMap (Task.logPart s.time.minute)
  mem : SameMemory s t

section
variable {s u : State} {f : Feeder} {en : Option Enum} {ts : List Task}

theorem State.EnumAnswer.inStep {o : Outcome} {en : Enum} (h : s.EnumAnswer f o en) (mark : Bool) :
    s.InStep (s.outcomeTaken f mark) f (some en) :=
  ⟨h.dirWork, h.part, (congrArg Engine.state (State.eng_setEng_self s f _)).trans h.state, h.taken_enum mark, h.reports, rfl,
    h.intake, rfl, rfl⟩

theorem State.InStep.withPool (h : s.InStep u f en) (pool : Vector Entry 576) :
    s.InStep (u.withPool pool) f en :=
  ⟨h.dirWork, h.part, h.state, h.enum, h.order, h.corr, h.intake, h.minute, h.mem⟩

theorem OnlyLogs.stepRoom {l : List AlarmEntry} (h : OnlyLogs ts s.time.minute l)
    (hc : s.corr.reports.length ≤ Config.corrReportDepth) (hl : l.length ≤ Config.intakeDepth) : s.StepRoom ts :=
  ⟨h.handOff, by rw [h.order]; exact Nat.zero_le _, by rw [h.corr]; exact hc, by rw [h.log]; exact hl⟩

theorem State.InStep.withEnum (h : s.InStep u f en) (en' : Option Enum) :
    s.InStep (u.setEng f { u.eng f with enum := en' }) f en' :=
  ⟨h.dirWork, h.part, (congrArg Engine.state (State.eng_setEng_self u f _)).trans h.state,
    congrArg Engine.enum (State.eng_setEng_self u f _), h.order, h.corr, h.intake, h.minute, h.mem⟩

theorem State.InStep.hasRoom (h : s.InStep u f en) (hr : s.StepRoom ts) : u.HasRoom ts := by
  refine ⟨fun hi => (nomatch h.part.symm.trans hi), ?_, ?_, ?_⟩
  · rw [h.order, List.length_nil, Nat.zero_add]
    exact hr.order
  · rw [h.corr]
    exact hr.corr
  · rw [h.intake, h.minute, List.length_nil, Nat.zero_add]
    exact hr.intake

theorem State.InStep.delivered (h : s.InStep u f en) (p : MemPath) (x : Engine) :
    s.StepDone u ((u.delivered p ts).setEng f x) ts := by
  refine ⟨fun _ => rfl, fun _ => rfl, ?_, ?_, ?_, fun a => congrArg (memGet · a) h.mem⟩
  · exact congrArg (· ++ ts.flatMap Task.orderPart) h.order
  · exact congrArg (· ++ ts.flatMap Task.corrPart) h.corr
  · exact congrArg₂ (fun l m => l ++ ts.flatMap (Task.logPart m)) h.intake h.minute

/-- A step that ends with a call. -/
theorem State.InStep.calls {en : Enum} (h : s.InStep u f (some en)) (hr : s.StepRoom ts) (cmd : TapCmd) :
    ∃ t, u.pushCalls (ts ++ [.beginCall f cmd]) = t ∧ t.eng f = (u.eng f).calling en cmd u.cfg.attempts ∧
      s.StepDone u t ts := by
  obtain ⟨p, hp⟩ := State.pushCalls_call cmd h.dirWork h.part h.state h.enum hr.handOff (h.hasRoom hr)
  exact ⟨_, hp, State.eng_setEng_self _ f _, h.delivered p _⟩

/-- A step that ends the enumeration. -/
theorem State.InStep.isOver (h : s.InStep u f en) (hr : s.StepRoom ts) :
    ∃ t, u.pushCalls (ts ++ [.enumOver f]) = t ∧ (t.eng f).state = .ready ∧ (t.eng f).enum = none ∧ s.StepDone u t ts := by
  obtain ⟨p, hp⟩ := State.pushCalls_last (g := fun t => t.enumOver f) (last := .enumOver f) h.dirWork hr.handOff (h.hasRoom hr)
    (fun _ => rfl) fun _ => h.dirWork
  refine ⟨_, hp, ?_, congrArg Engine.enum (State.eng_setEng_self _ f _), h.delivered p _⟩
  exact (congrArg Engine.state (State.eng_setEng_self _ f _)).trans (if_pos h.state)

end

/-! ### Entries changed one after another -/

section
variable {β : Type} (k : β → EntryId) (g : Nat → β → Entry → Entry)

/-- Entries changed one after another leave all but the pool. -/
theorem State.foldl_setEntry_eq (l : List β) (s : State) :
    ∃ pool, l.foldl (fun s b => s.setEntry (k b) (g s.now b (s.entry (k b)))) s = s.withPool pool := by
  induction l generalizing s with
  | nil => exact ⟨s.dir.pool, rfl⟩
  | cons b l ih =>
    obtain ⟨pool, h⟩ := ih (s.setEntry (k b) (g s.now b (s.entry (k b))))
    exact ⟨pool, h⟩

/-- Different entries changed one after another are each changed once, and no other is. -/
theorem State.foldl_setEntry_entry (l : List β) (hl : (l.map k).Nodup) (s : State) :
    (∀ b ∈ l, (l.foldl (fun s b => s.setEntry (k b) (g s.now b (s.entry (k b)))) s).entry (k b) =
        g s.now b (s.entry (k b))) ∧
      ∀ e, e ∉ l.map k → (l.foldl (fun s b => s.setEntry (k b) (g s.now b (s.entry (k b)))) s).entry e = s.entry e := by
  induction l generalizing s with
  | nil => exact ⟨fun b hb => (nomatch hb), fun _ _ => rfl⟩
  | cons c l ih =>
    obtain ⟨hc, hl⟩ := List.nodup_cons.1 hl
    obtain ⟨hin, hout⟩ := ih hl (s.setEntry (k c) (g s.now c (s.entry (k c))))
    rw [List.foldl_cons]
    refine ⟨fun b hb => ?_, fun e he => ?_⟩
    · rcases List.mem_cons.1 hb with rfl | hb
      · rw [hout _ hc, State.entry_setEntry, if_pos rfl]
      · have hne : k c ≠ k b := fun h => hc (h ▸ List.mem_map_of_mem hb)
        rw [hin b hb, State.entry_setEntry, if_neg hne]
        rfl
    · obtain ⟨hne, he⟩ := not_or.1 (mt List.mem_cons.2 he)
      rw [hout e he, State.entry_setEntry, if_neg (Ne.symm hne)]

end

/-! ### FORGET answered (R88) -/

section
variable (s : State) (f : Feeder)

/-- A tap stands once in the row of its feeder. -/
theorem State.row_nodup : ((s.row f).map (·.2)).Nodup := by
  have hperm (l : List (Nat × EntryId)) : (l.foldr insertPos []).Perm l := by
    induction l with
    | nil => exact .refl _
    | cons x l ih => exact (insertPos_perm x _).trans (ih.cons x)
  refine List.Nodup.map_on (fun x hx y hy hxy => ?_) ?_
  · have hx' := (s.mem_row f x.1 x.2).1 hx
    have hy' := (s.mem_row f y.1 y.2).1 hy
    rw [hxy, hy'] at hx'
    exact Prod.ext (congrArg Place.pos (Option.some.inj hx')).symm hxy
  · rw [State.row, (hperm _).nodup_iff]
    refine List.Nodup.filterMap (fun d e x hd he => ?_) (List.nodup_finRange 576)
    rw [Option.mem_def] at hd he
    split at hd
    · split at hd
      · cases hd
        split at he
        · split at he
          · exact (Prod.ext_iff.1 (Option.some.inj he)).2.symm
          · exact nomatch he
        · exact nomatch he
      · exact nomatch hd
    · exact nomatch hd

end

end Sys2Proof.Machine
end

section
/-! The steps of an enumeration up to its ASSIGN (O49): its start, the answer to FORGET and that to IDENTIFY (R64, R87–R90, R94). -/

open Sys2Proof

namespace Sys2Proof.Machine

/-! ### The start (R87) -/

theorem enumerationRequestTaken_calls {s : State} {f : Feeder} {m : EnumMode} (mark : Bool) (hq : s.quiet)
    (hr : s.run.part = .running) (hroom : s.corr.reports.length < Config.corrReportDepth) (ho : s.order.reports = [])
    (hl : s.log.intake = []) (hs : (s.eng f).state = .ready) (hx : (s.eng f).txn = none)
    (hout : (s.eng f).outcome = none) (hg : (s.eng f).quiet = false) (hreq : (s.eng f).request = some m)
    (hopen : s.openOutageOn f = false) :
    ∃ t x en, exec (.enumerationRequestTaken f mark) s = .next t ∧ (t.eng f).state = .enumerating ∧
      (t.eng f).request = none ∧ (t.eng f).enum = some en ∧ en.mode = m ∧ en.next = 1 ∧ en.count = 0 ∧
      (t.eng f).txn = some x ∧ x.cmd = (if m = .fresh then .forget else .identify) ∧
      x.phase = (if mark then .calling else .waitMark) ∧
      t.corr.reports = s.corr.reports ++ [.enumStart f] ∧ SameMemory s t := by
  have hself := State.eng_setEng_self s f ((s.eng f).enumBegun m mark)
  have hstep : s.InStep (s.setEng f ((s.eng f).enumBegun m mark)) f (some (Enum.start m)) :=
    ⟨hq.1 .directory, hr, congrArg Engine.state hself, congrArg Engine.enum hself, ho, rfl, hl, rfl, rfl⟩
  obtain ⟨t, ht, heng, hdone⟩ := hstep.calls (ts := [.corrReport (.enumStart f)])
    ⟨List.forall_mem_singleton.2 (.corrReport _), Nat.zero_le _, hroom, Nat.zero_le _⟩
    (if m = .fresh then .forget else .identify)
  rw [hself] at heng
  refine ⟨t, _, _, (exec_enumerationRequestTaken mark hq hr hs hx hout hg hreq hopen).trans (congrArg _ ht),
    congrArg Engine.state heng, congrArg Engine.request heng, congrArg Engine.enum heng, rfl, rfl, rfl,
    congrArg Engine.txn heng, ?_, rfl, hdone.corr, hdone.mem⟩
  cases m <;> rfl

/-! ### FORGET answered (R88) -/

/-- The entry of a tap that a FORGET has unplaced. -/
def Entry.vacated (f : Feeder) (x : Nat × EntryId) (y : Entry) : Entry :=
  { y with place := none, pending := some { feeder := f, pos := x.1 } }

/-- What the vacating of a place hands on. -/
def State.vacateTasks (s : State) (f : Feeder) (x : Nat × EntryId) : List Task :=
  [.orderReport (.lostTap x.2), .corrReport (.vacate x.2 f x.1 s.now ((s.entry x.2).state == .lost)),
   .burst .directory (.mirror x.2)]

section
variable (s : State) (f : Feeder)

theorem State.vacateAll_state : (s.vacateAll f).1 =
    (s.row f).foldl (fun t x => t.setEntry x.2 (Entry.vacated f x (t.entry x.2))) s := by
  unfold State.vacateAll
  dsimp only [Entry.vacated]

theorem State.vacateAll_tasks : (s.vacateAll f).2 = (s.row f).flatMap fun x => s.vacateTasks f x := by
  unfold State.vacateAll
  dsimp only [State.vacateTasks]

theorem State.vacateAll_pool : ∃ pool, (s.vacateAll f).1 = s.withPool pool := by
  have h := State.foldl_setEntry_eq Prod.snd (fun _ => Entry.vacated f) (s.row f) s
  rw [← s.vacateAll_state f] at h
  exact h

theorem State.vacateAll_entry (e : EntryId) : (s.vacateAll f).1.entry e =
    if (s.entry e).on f then { s.entry e with place := none, pending := (s.entry e).place } else s.entry e := by
  obtain ⟨hin, hout⟩ := State.foldl_setEntry_entry Prod.snd (fun _ => Entry.vacated f) (s.row f) (s.row_nodup f) s
  rw [s.vacateAll_state f]
  split
  · next h =>
    obtain ⟨n, hn⟩ := (Entry.on_iff _ f).1 h
    rw [hn, hin (n, e) ((s.mem_row f n e).2 hn)]
    rfl
  · next h =>
    refine hout e fun hmem => ?_
    obtain ⟨x, hx, rfl⟩ := List.mem_map.1 hmem
    exact h ((Entry.on_iff _ f).2 ⟨x.1, (s.mem_row f x.1 x.2).1 hx⟩)

theorem State.vacateTasks_parts (l : List (Nat × EntryId)) :
    (∀ t ∈ l.flatMap (s.vacateTasks f), t.HandOff) ∧
    (l.flatMap (s.vacateTasks f)).flatMap Task.orderPart = l.map (fun x => .lostTap x.2) ∧
    (l.flatMap (s.vacateTasks f)).flatMap Task.corrPart =
      l.map (fun x => .vacate x.2 f x.1 s.time.minute ((s.entry x.2).state == .lost)) ∧
    (l.flatMap (s.vacateTasks f)).flatMap (Task.logPart s.time.minute) = [] := by
  induction l with
  | nil => exact ⟨fun t ht => (nomatch ht), rfl, rfl, rfl⟩
  | cons x l ih =>
    obtain ⟨hand, horder, hcorr, hlog⟩ := ih
    refine ⟨List.forall_mem_append.2 ⟨?_, hand⟩, congrArg (OrderReport.lostTap x.2 :: ·) horder, congrArg (_ :: ·) hcorr, hlog⟩
    simp only [State.vacateTasks, List.forall_mem_cons]
    exact ⟨.orderReport _, .corrReport _, .burst .., fun t ht => nomatch ht⟩

end

section
variable {s : State} {f : Feeder} {o : Outcome} {en : Enum} {lat : Nat} {a b c : Bool} {pl : List Byte}

theorem State.EnumAnswer.forgotten (h : s.EnumAnswer f o en) (mark : Bool) (hc : o.cmd = .forget)
    (hres : o.res = .ok lat a b c pl) (hrow : (s.row f).length ≤ Config.orderReportDepth)
    (hcorr : s.corr.reports.length + (s.row f).length ≤ Config.corrReportDepth) :
    ∃ t x, exec (.forgetOutcome f mark) s = .next t ∧ (t.eng f).txn = some x ∧ x.cmd = .identify ∧
      (∀ e, (s.entry e).on f = true →
        t.entry e = { s.entry e with place := none, pending := (s.entry e).place }) ∧
      (∀ e, (s.entry e).on f = false → t.entry e = s.entry e) ∧
      t.order.reports = (s.row f).map (fun y => OrderReport.lostTap y.2) ∧
      t.corr.reports = s.corr.reports ++ (s.row f).map (fun y =>
        CorrReport.vacate y.2 f y.1 s.time.minute ((s.entry y.2).state == .lost)) ∧ SameMemory s t := by
  have hsame : (s.outcomeTaken f mark).row f = s.row f := State.row_congr (fun _ => rfl) f
  have hentry := (s.outcomeTaken f mark).vacateAll_entry f
  obtain ⟨hand, horder, hcorrs, hlog⟩ := (s.outcomeTaken f mark).vacateTasks_parts f (s.row f)
  have heffect : (s.outcomeTaken f mark).forgetOutcome f en o = (((s.outcomeTaken f mark).vacateAll f).1,
      ((s.outcomeTaken f mark).vacateAll f).2 ++ [.beginCall f .identify]) := by
    unfold State.forgetOutcome
    rw [hres]
  obtain ⟨pool, hpool⟩ := (s.outcomeTaken f mark).vacateAll_pool f
  rw [hpool, State.vacateAll_tasks, hsame] at heffect
  rw [hpool] at hentry
  obtain ⟨t, ht, heng, hdone⟩ := ((h.inStep mark).withPool pool).calls
    ⟨hand, by rw [horder, List.length_map]; exact hrow, by rw [hcorrs, List.length_map]; exact hcorr,
      (congrArg List.length hlog).le.trans (Nat.zero_le _)⟩ .identify
  refine ⟨t, _, (exec_forgetOutcome mark h hc heffect).trans (congrArg _ ht), congrArg Engine.txn heng, rfl,
    fun e he => ?_, fun e he => ?_, hdone.order.trans horder, hdone.corr.trans (congrArg _ hcorrs), hdone.mem⟩
  · exact (hdone.entry e).trans ((hentry e).trans (if_pos he))
  · exact (hdone.entry e).trans ((hentry e).trans (if_neg (Bool.eq_false_iff.1 he)))

end

/-! ### IDENTIFY answered (R64, R89, R90, R94) -/

section
variable {s t : State} {l : EntryId → Nat} (h : ∀ e, t.entry e = { s.entry e with latency := l e })
include h

/-- The choices of an enumeration do not look at the latencies. -/
theorem State.entryOfSerial_latency (serial : Word) : t.entryOfSerial serial = s.entryOfSerial serial := by
  simp only [State.entryOfSerial, h]

theorem State.chooseEntry_latency (serial : Word) : t.chooseEntry serial = s.chooseEntry serial := by
  have hfree : t.freeEntry = s.freeEntry := by simp only [State.freeEntry, h]
  have hlast (e : EntryId) : (t.entry e).lastAnswer = (s.entry e).lastAnswer := by rw [h]
  have hstep : t.spareStep = s.spareStep := by
    funext a e
    have hreusable : (t.entry e).reusable = (s.entry e).reusable := by rw [h]; rfl
    unfold State.spareStep
    rw [hreusable]
    simp only [hlast]
  unfold State.chooseEntry
  rw [State.entryOfSerial_latency h, hfree, State.freeOnDemand_eq, hstep, ← State.freeOnDemand_eq]

theorem State.choosePos_latency (f : Feeder) (en : Enum) (serial : Word) :
    t.choosePos f en serial = s.choosePos f en serial := by
  have hplace (e : EntryId) : (t.entry e).place = (s.entry e).place := by rw [h]
  simp only [State.choosePos, State.entryOfSerial_latency h, State.row_congr hplace, hplace]

theorem State.pendingFor_latency (f : Feeder) : t.pendingFor f = s.pendingFor f := by
  simp only [State.pendingFor, h]

end

section
variable (s : State) (serial : Word) (lat : Nat)

theorem State.storeLatency_pool :
    ∃ pool, (s.storeLatency serial lat).1 = s.withPool pool := by
  unfold State.storeLatency
  split
  · exact ⟨_, rfl⟩
  · exact ⟨s.dir.pool, rfl⟩

theorem State.storeLatency_entry (e : EntryId) : (s.storeLatency serial lat).1.entry e =
    if s.entryOfSerial serial = some e then { s.entry e with latency := lat } else s.entry e := by
  unfold State.storeLatency
  split
  · next d hd =>
    rw [hd, State.entry_setEntry]
    by_cases hde : d = e
    · rw [if_pos hde, if_pos (congrArg some hde), hde]
    · rw [if_neg hde, if_neg fun he => hde (Option.some.inj he)]
  · next hn =>
    rw [hn]
    rfl

theorem State.storeLatency_tasks (minute : Nat) : OnlyLogs (s.storeLatency serial lat).2 minute [] := by
  unfold State.storeLatency
  split
  · exact .mirror ..
  · exact .nil

end

/-- The entries once the latency of an answer has been stored (R64). -/
def State.latencyStored (s : State) (serial : Word) (lat : Nat) (e : EntryId) : Entry :=
  { s.entry e with latency := if s.entryOfSerial serial = some e then lat else (s.entry e).latency }

theorem State.latencyStored_eq (s : State) (serial : Word) (lat : Nat) (e : EntryId) : s.latencyStored serial lat e =
    if s.entryOfSerial serial = some e then { s.entry e with latency := lat } else s.entry e := by
  unfold State.latencyStored
  split <;> rfl

/-- The enumeration with its choices for a serial made. -/
def Enum.chosen (en : Enum) (serial : Word) (pos : Nat) (c : EntryId × Pick) : Enum :=
  { en with serial := serial, pos := pos, choice := some c }

theorem State.identified_chosen {s : State} {f : Feeder} {en : Enum} {serial : Word} {c : EntryId × Pick}
    (hc : s.chooseEntry serial = some c) (hpos : s.choosePos f en serial ≤ 62) :
    s.identified f en serial = (s.setEng f { s.eng f with enum := some (en.chosen serial (s.choosePos f en serial) c) },
      [.beginCall f (if en.again then .identify else .assign)]) := by
  unfold State.identified
  rw [hc]
  exact if_neg (Nat.not_lt.2 hpos)

section
variable {s : State} {f : Feeder} {o : Outcome} {en : Enum} {lat : Nat} {a b d : Bool} {pl : List Byte}

theorem State.identifyOutcome_ok (hres : o.res = .ok lat a b d pl) : s.identifyOutcome f en o =
    (((s.storeLatency (serialOfChars pl) lat).1.identified f en (serialOfChars pl)).1,
      (s.storeLatency (serialOfChars pl) lat).2 ++
        ((s.storeLatency (serialOfChars pl) lat).1.identified f en (serialOfChars pl)).2) := by
  unfold State.identifyOutcome
  rw [hres]

/-- The state once an answer's latency has been stored, and what that hands on. -/
theorem State.outcomeTaken_latencyStored (s : State) (f : Feeder) (mark : Bool) (serial : Word) (lat : Nat) :
    ∃ pool ts, (s.outcomeTaken f mark).storeLatency serial lat = ((s.outcomeTaken f mark).withPool pool, ts) ∧
      (∀ e, ((s.outcomeTaken f mark).withPool pool).entry e = s.latencyStored serial lat e) ∧
      OnlyLogs ts s.time.minute [] := by
  obtain ⟨pool, hpool⟩ := (s.outcomeTaken f mark).storeLatency_pool serial lat
  have hentry := (s.outcomeTaken f mark).storeLatency_entry serial lat
  rw [hpool] at hentry
  refine ⟨pool, ((s.outcomeTaken f mark).storeLatency serial lat).2, by rw [← hpool], fun e => (hentry e).trans ?_,
    State.storeLatency_tasks ..⟩
  rw [State.entryOfSerial_congr (s := s) (t := s.outcomeTaken f mark) fun _ => rfl]
  exact (s.latencyStored_eq serial lat e).symm

/-- An answer for whose serial an entry and a position can be had leads to the next call. -/
theorem State.EnumAnswer.identified {c : EntryId × Pick} (h : s.EnumAnswer f o en) (mark : Bool) (hc : o.cmd = .identify)
    (hres : o.res = .ok lat a b d pl) (hch : s.chooseEntry (serialOfChars pl) = some c)
    (hpos : s.choosePos f en (serialOfChars pl) ≤ 62) :
    ∃ (t : State) (x : Engine), exec (.enumIdentifyOutcome f mark) s = .next t ∧
      t.eng f = x.calling (en.chosen (serialOfChars pl) (s.choosePos f en (serialOfChars pl)) c)
        (if en.again then .identify else .assign) s.cfg.attempts ∧
      (∀ e, t.entry e = s.latencyStored (serialOfChars pl) lat e) ∧ SameMemory s t := by
  obtain ⟨pool, ts, hstore, hentry, hlogs⟩ := s.outcomeTaken_latencyStored f mark (serialOfChars pl) lat
  have hstep := (h.inStep mark).withPool pool
  have hnext := State.identified_chosen (f := f) (en := en) ((State.chooseEntry_latency hentry _).trans hch)
    ((State.choosePos_latency hentry f en _).le.trans hpos)
  rw [State.choosePos_latency hentry] at hnext
  have heffect := State.identifyOutcome_ok (s := s.outcomeTaken f mark) (f := f) (en := en) hres
  rw [hstore] at heffect
  dsimp only at heffect
  rw [hnext] at heffect
  obtain ⟨t, ht, heng, hdone⟩ := (hstep.withEnum (some (en.chosen _ _ c))).calls
    (hlogs.stepRoom h.corr.le (Nat.zero_le _))
    (if en.again then .identify else .assign)
  exact ⟨t, _, (exec_enumIdentifyOutcome mark h hc heffect).trans (congrArg _ ht), heng,
    fun e => (hdone.entry e).trans (hentry e), hdone.mem⟩

end

end Sys2Proof.Machine
end

section
/-! The end of an enumeration (O49): its entries and the roll call, and the steps that end it (R85, R92). -/

open Sys2Proof

namespace Sys2Proof.Machine

/-! ### What the end does (R92) -/

/-- The verification flag at the end of an enumeration (R85, R92). -/
def Enum.verifies (en : Enum) (f : Feeder) (ending : Ending) (x : Entry) : Bool :=
  x.on f && (en.mode == .fresh && ending != .outageOpen ||
    en.mode == .extend && decide (0 < en.count) && x.state == .lost)

/-- The state with another pool, other roll calls and other timers of theirs. -/
def State.reformed (s : State) (pool : Vector Entry 576) (rolls : Vector RollCall 8) (pacing : Vector Timer 8) : State :=
  { s with dir := { s.dir with pool := pool, rolls := rolls }, time := { s.time with pacing := pacing } }

section
variable (s : State) (f : Feeder) (en : Enum) (ending : Ending)

theorem State.enumVerify_mark (e : EntryId) : (s.enumVerify f en ending).entry e =
    { s.entry e with verify := (s.entry e).verify || en.verifies f ending (s.entry e) } := by
  have hmark (x : Entry) (b : Bool) :
      (if b = true then { x with verify := true } else x) = { x with verify := x.verify || b } := by
    cases b
    · rw [Bool.or_false]
      rfl
    · rw [Bool.or_true]
      rfl
  simp only [State.enumVerify, State.entry, Fin.getElem_fin, Vector.getElem_map]
  exact hmark _ _

/-- The roll call of a feeder after a FRESH, its cycle begun anew (R92). -/
def State.rollAnew : RollCall :=
  { s.roll f with
    due := none, list := s.cycleList f (s.roll f).count, cursor := 0
    period := pacingPeriod s.cfg.tr (s.cycleList f (s.roll f).count).length }

theorem State.rollAnew_spec : (s.rollAnew f).cursor = 0 ∧ (s.rollAnew f).count = (s.roll f).count ∧
    (s.rollAnew f).list = s.cycleList f (s.roll f).count := by
  simp only [State.rollAnew, and_self]

theorem State.enumNewCycle_anew :
    ∃ pacing, s.enumNewCycle f = s.reformed s.dir.pool (s.dir.rolls.set f (s.rollAnew f)) pacing := by
  simp only [State.enumNewCycle, State.newCycle, State.roll_setRoll_self, State.setRoll_setRoll,
    State.cycleList_congr (s.entry_setRoll f _)]
  split
  · exact ⟨_, rfl⟩
  · exact ⟨s.time.pacing, rfl⟩

theorem State.notFoundAll_pool (l : List EntryId) :
    ∃ pool, l.foldl (fun s e => s.setEntry e ((s.entry e).notFound s.now)) s = s.withPool pool :=
  State.foldl_setEntry_eq (fun e => e) (fun now _ x => x.notFound now) l s

theorem State.notFoundAll_entry (l : List EntryId) (hl : l.Nodup) (e : EntryId) :
    (l.foldl (fun s e => s.setEntry e ((s.entry e).notFound s.now)) s).entry e =
      if e ∈ l then (s.entry e).notFound s.now else s.entry e := by
  have h := State.foldl_setEntry_entry (fun e => e) (fun now _ x => x.notFound now) l ((List.map_id' l).symm ▸ hl) s
  rw [List.map_id'] at h
  obtain ⟨hin, hout⟩ := h
  split
  · next he => exact hin e he
  · next he => exact hout e he

theorem State.pendingFor_nodup : (s.pendingFor f).Nodup := (List.nodup_finRange 576).filter _

theorem State.mem_pendingFor (e : EntryId) :
    e ∈ s.pendingFor f ↔ ∃ pl, (s.entry e).pending = some pl ∧ pl.feeder = f := by
  rw [State.pendingFor, List.mem_filter]
  cases (s.entry e).pending with
  | none => exact ⟨fun h => (nomatch h.2), fun ⟨pl, hpl, _⟩ => nomatch hpl⟩
  | some pl =>
    exact ⟨fun h => ⟨pl, rfl, beq_iff_eq.1 h.2⟩,
      fun ⟨q, hq, hf⟩ => ⟨List.mem_finRange e, beq_iff_eq.2 (Option.some.inj hq ▸ hf)⟩⟩

/-- TAP LOST of an entry that the enumeration did not find. -/
def State.notFoundLog (e : EntryId) : Option AlarmEntry :=
  if (s.entry e).state = .lost then none else
    some (AlarmEntry.mk .tapLost .major (.place f (((s.entry e).pending.map (·.pos)).getD 0)) s.time.minute
      (word ((s.entry e).notFound s.time.minute).silentSince))

theorem State.notFoundTasks_logs (l : List EntryId) :
    OnlyLogs (l.flatMap (s.notFoundTasks f)) s.time.minute (l.filterMap (s.notFoundLog f)) := by
  rw [List.filterMap_eq_flatMap_toList]
  refine OnlyLogs.flatMap l fun e => ?_
  unfold State.notFoundTasks State.notFoundLog
  dsimp only
  split
  · exact .append .nil (.burst ..)
  · exact .append (.alarm ..) (.burst ..)

theorem State.enumEnd_extend (h : en.mode = .extend) : ∃ pool,
    s.enumEnd f en ending = ((s.withPool pool).setEng f { s.eng f with enum := none },
      [enumDone f en.count ending, .corrReport (.enumEnd f), .enumOver f]) ∧
    ∀ e, (s.withPool pool).entry e =
      { s.entry e with verify := (s.entry e).verify || en.verifies f ending (s.entry e) } := by
  have hmode : en.mode ≠ .fresh := by
    rw [h]
    decide
  refine ⟨(s.enumVerify f en ending).dir.pool, ?_, s.enumVerify_mark f en ending⟩
  unfold State.enumEnd
  rw [if_neg hmode]
  dsimp only
  rw [if_neg fun hc => hmode hc.1]
  rfl

/-- The entry at the end of a FRESH, found or not. -/
def State.foundOrLost (s : State) (f : Feeder) (e : EntryId) : Entry :=
  if e ∈ s.pendingFor f then (s.entry e).notFound s.now else s.entry e

theorem State.enumEnd_fresh (h : en.mode = .fresh) : ∃ pool rolls pacing,
    s.enumEnd f en ending = ((s.reformed pool rolls pacing).setEng f { s.eng f with enum := none },
      (s.pendingFor f).flatMap (s.notFoundTasks f) ++
        [enumDone f en.count ending, .corrReport (.enumEnd f), .enumOver f]) ∧
    (∀ e, (s.withPool pool).entry e = { s.foundOrLost f e with
      verify := (s.foundOrLost f e).verify || en.verifies f ending (s.foundOrLost f e) }) ∧
    (ending ≠ .forgetFailed → ending ≠ .outageOpen →
      rolls = s.dir.rolls.set f ((s.withPool pool).rollAnew f)) := by
  obtain ⟨gone, hgone⟩ := s.notFoundAll_pool (s.pendingFor f)
  have hentry := s.notFoundAll_entry (s.pendingFor f) (s.pendingFor_nodup f)
  rw [hgone] at hentry
  have hmark (e : EntryId) : ((s.withPool gone).enumVerify f en ending).entry e = { s.foundOrLost f e with
      verify := (s.foundOrLost f e).verify || en.verifies f ending (s.foundOrLost f e) } := by
    rw [State.enumVerify_mark, hentry e]
    rfl
  unfold State.enumEnd
  rw [if_pos h]
  dsimp only
  rw [hgone]
  split
  · next hnew =>
    obtain ⟨pacing, hroll⟩ := ((s.withPool gone).enumVerify f en ending).enumNewCycle_anew f
    rw [hroll]
    exact ⟨_, _, pacing, rfl, hmark, fun _ _ => rfl⟩
  · next hold =>
    exact ⟨((s.withPool gone).enumVerify f en ending).dir.pool, s.dir.rolls, s.time.pacing, rfl, hmark,
      fun hf ho => absurd ⟨h, hf, ho⟩ hold⟩

end

/-! ### A step that ends the enumeration -/

/-- ENUMERATION DONE (R92). -/
def Enum.doneLog (en : Enum) (f : Feeder) (ending : Ending) (minute : Nat) : AlarmEntry :=
  AlarmEntry.mk .enumerationDone (if ending = .complete then .info else .minor) (.feeder f) minute
    (word (countField en.count + 2 ^ 8 * ending.code))

/-- What the end of an enumeration leaves beside its entries, its log entries and the roll call. -/
structure State.Ended (s t : State) (f : Feeder) : Prop where
  state : (t.eng f).state = .ready
  enum : (t.eng f).enum = none
  corr : t.corr.reports = s.corr.reports ++ [.enumEnd f]
  order : t.order.reports = []
  mem : SameMemory s t

/-- The command `c` ends the enumeration of `u`, a step that began in `s`; `first` is logged before that. -/
structure State.EndStep (s u : State) (f : Feeder) (en : Enum) (c : Instr) (ending : Ending) (pre : List Task)
    (first : List AlarmEntry) : Prop where
  inStep : s.InStep u f (some en)
  roll : u.roll f = s.roll f
  effect : exec c s = .next ((u.enumEnd f en ending).1.pushCalls (pre ++ (u.enumEnd f en ending).2))
  logs : OnlyLogs pre s.time.minute first
  corr : s.corr.reports.length < Config.corrReportDepth

section
variable {s u v : State} {f : Feeder} {en : Enum} {c : Instr} {ending : Ending} {pre lost : List Task}
  {first log : List AlarmEntry}

theorem State.InStep.reformed {en' : Option Enum} (h : s.InStep u f en') (pool : Vector Entry 576)
    (rolls : Vector RollCall 8) (pacing : Vector Timer 8) : s.InStep (u.reformed pool rolls pacing) f en' :=
  ⟨h.dirWork, h.part, h.state, h.enum, h.order, h.corr, h.intake, h.minute, h.mem⟩

theorem State.EndStep.over (h : s.EndStep u f en c ending pre first) (hv : s.InStep v f none)
    (he : u.enumEnd f en ending = (v, lost ++ [enumDone f en.count ending, .corrReport (.enumEnd f), .enumOver f]))
    (hl : OnlyLogs lost s.time.minute log) (hroom : first.length + log.length < Config.intakeDepth) :
    ∃ t, exec c s = .next t ∧ s.Ended t f ∧ t.log.intake = first ++ log ++ [en.doneLog f ending s.time.minute] ∧
      (∀ e, t.entry e = v.entry e) ∧ ∀ g, t.roll g = v.roll g := by
  have hlogs : OnlyLogs (pre ++ lost ++ [enumDone f en.count ending]) s.time.minute
      (first ++ log ++ [en.doneLog f ending s.time.minute]) := (h.logs.append hl).append (.alarm ..)
  have htasks : pre ++ (lost ++ [enumDone f en.count ending, .corrReport (.enumEnd f), .enumOver f]) =
      (pre ++ lost ++ [enumDone f en.count ending]) ++ [.corrReport (.enumEnd f)] ++ [.enumOver f] := by
    simp only [List.append_assoc, List.cons_append, List.nil_append]
  obtain ⟨hand, horder, hcorr, hlog⟩ := hlogs.thenReport (.enumEnd f)
  obtain ⟨t, ht, hstate, henum, hdone⟩ := hv.isOver
    ⟨hand, by rw [horder]; exact Nat.zero_le _,
      by rw [hcorr]; exact h.corr,
      by
        rw [hlog, List.length_append, List.length_append]
        exact hroom⟩
  have heffect := h.effect
  rw [he, htasks] at heffect
  exact ⟨t, heffect.trans (congrArg _ ht),
    ⟨hstate, henum, hdone.corr.trans (congrArg _ hcorr), hdone.order.trans horder, hdone.mem⟩,
    hdone.intake.trans hlog, hdone.entry, hdone.roll⟩

theorem State.EndStep.extend (h : s.EndStep u f en c ending pre first) (hm : en.mode = .extend)
    (hroom : first.length < Config.intakeDepth) :
    ∃ t, exec c s = .next t ∧ s.Ended t f ∧ t.log.intake = first ++ [en.doneLog f ending s.time.minute] ∧
      (∀ e, t.entry e = { u.entry e with verify := (u.entry e).verify || en.verifies f ending (u.entry e) }) ∧
      t.roll f = s.roll f := by
  obtain ⟨pool, he, hentry⟩ := u.enumEnd_extend f en ending hm
  obtain ⟨t, ht, hended, hlog, hentries, hroll⟩ := h.over (lost := [])
    ((h.inStep.withPool pool).withEnum none) he .nil hroom
  rw [List.append_nil] at hlog
  exact ⟨t, ht, hended, hlog, fun e => (hentries e).trans (hentry e), (hroll f).trans h.roll⟩

theorem State.EndStep.fresh (h : s.EndStep u f en c ending pre first) (hm : en.mode = .fresh)
    (hroom : first.length + (u.pendingFor f).length < Config.intakeDepth) :
    ∃ t, exec c s = .next t ∧ s.Ended t f ∧
      t.log.intake = first ++ (u.pendingFor f).filterMap (u.notFoundLog f) ++ [en.doneLog f ending s.time.minute] ∧
      (∀ e, t.entry e = { u.foundOrLost f e with
        verify := (u.foundOrLost f e).verify || en.verifies f ending (u.foundOrLost f e) }) ∧
      (ending ≠ .forgetFailed → ending ≠ .outageOpen → (t.roll f).cursor = 0 ∧ (t.roll f).count = (s.roll f).count ∧
        (t.roll f).list = t.cycleList f (s.roll f).count) := by
  obtain ⟨pool, rolls, pacing, he, hentry, hrolls⟩ := u.enumEnd_fresh f en ending hm
  have hl := u.notFoundTasks_logs f (u.pendingFor f)
  rw [h.inStep.minute] at hl
  obtain ⟨t, ht, hended, hlog, hentries, hroll⟩ := h.over ((h.inStep.reformed pool rolls pacing).withEnum none) he hl
    (Nat.lt_of_le_of_lt (Nat.add_le_add_left (List.length_filterMap_le ..) _) hroom)
  refine ⟨t, ht, hended, hlog, fun e => (hentries e).trans (hentry e), fun hf ho => ?_⟩
  obtain rfl := hrolls hf ho
  have hanew : t.roll f = (u.withPool pool).rollAnew f := (hroll f).trans (u.roll_setRoll_self f _)
  obtain ⟨hcursor, hcount, hlist⟩ := (u.withPool pool).rollAnew_spec f
  have hsame : (u.withPool pool).roll f = s.roll f := h.roll
  rw [hanew, hcursor, hcount, hlist, hsame]
  refine ⟨rfl, rfl, ?_⟩
  exact (State.cycleList_congr (s := u.withPool pool) hentries f _).symm

end

end Sys2Proof.Machine
end

section
/-! The outcomes that end an enumeration (O49): IDENTIFY and ASSIGN without an answer, without an entry and without a position
(R89–R92). -/

open Sys2Proof

namespace Sys2Proof.Machine

/-! ### The entries that an end leaves (R85, R92) -/

section
variable {s u : State} {f : Feeder} {en : Enum} {c : Instr} {ending : Ending} {pre : List Task} {first : List AlarmEntry}
  {l : EntryId → Nat} (h : s.EndStep u f en c ending pre first) (hl : ∀ e, u.entry e = { s.entry e with latency := l e })
include h hl

theorem State.EndStep.extend_entries (hm : en.mode = .extend) (hroom : first.length < Config.intakeDepth) :
    ∃ t, exec c s = .next t ∧ s.Ended t f ∧ t.log.intake = first ++ [en.doneLog f ending s.time.minute] ∧
      (∀ e, t.entry e = { u.entry e with verify := (s.entry e).verify ||
        (decide (0 < en.count) && (s.entry e).on f && (s.entry e).state == .lost) }) ∧ t.roll f = s.roll f := by
  obtain ⟨t, ht, hended, hlog, hentry, hroll⟩ := h.extend hm hroom
  have hverifies (x : Entry) : en.verifies f ending x = (decide (0 < en.count) && x.on f && x.state == .lost) := by
    rw [Enum.verifies, hm]
    cases x.on f <;> simp
  refine ⟨t, ht, hended, hlog, fun e => ?_, hroll⟩
  rw [hentry e, hverifies, hl e]
  rfl

theorem State.EndStep.fresh_entries (hm : en.mode = .fresh) (hf : ending ≠ .outageOpen)
    (hroom : first.length + (s.pendingFor f).length < Config.intakeDepth) :
    ∃ t, exec c s = .next t ∧ s.Ended t f ∧
      (∀ e, e ∈ s.pendingFor f → t.entry e = { u.entry e with
        state := .lost, pending := none, verify := (s.entry e).verify || (s.entry e).on f
        silentSince := if (s.entry e).state ≠ .lost ∧ (s.entry e).silentSince = 0 then s.time.minute
          else (s.entry e).silentSince }) ∧
      (∀ e, e ∉ s.pendingFor f → t.entry e = { u.entry e with verify := (s.entry e).verify || (s.entry e).on f }) ∧
      (ending ≠ .forgetFailed → (t.roll f).cursor = 0 ∧ (t.roll f).count = (s.roll f).count ∧
        (t.roll f).list = t.cycleList f (s.roll f).count) ∧
      t.log.intake = first ++ ((s.pendingFor f).filterMap fun e => if (s.entry e).state = .lost then none else
        some (AlarmEntry.mk .tapLost .major (.place f (((s.entry e).pending.map (·.pos)).getD 0)) s.time.minute
          (word (t.entry e).silentSince))) ++ [en.doneLog f ending s.time.minute] := by
  have hpending := State.pendingFor_latency hl f
  rw [← hpending] at hroom
  obtain ⟨t, ht, hended, hlog, hentry, hroll⟩ := h.fresh hm hroom
  have hverifies (x : Entry) : en.verifies f ending x = x.on f := by
    simp [Enum.verifies, hm, hf]
  have hlost (e : EntryId) (he : e ∈ s.pendingFor f) : t.entry e = { u.entry e with
      state := .lost, pending := none, verify := (s.entry e).verify || (s.entry e).on f
      silentSince := if (s.entry e).state ≠ .lost ∧ (s.entry e).silentSince = 0 then s.time.minute
        else (s.entry e).silentSince } := by
    have hmem : e ∈ u.pendingFor f := by rwa [hpending]
    rw [hentry e, hverifies, State.foundOrLost, if_pos hmem, State.now, h.inStep.minute, hl e]
    rfl
  refine ⟨t, ht, hended, hlost, fun e he => ?_, fun hff => hroll hff hf, ?_⟩
  · have hmem : e ∉ u.pendingFor f := by rwa [hpending]
    rw [hentry e, hverifies, State.foundOrLost, if_neg hmem, hl e]
    rfl
  · rw [hlog, hpending]
    have hsame : (s.pendingFor f).filterMap (u.notFoundLog f) = (s.pendingFor f).filterMap fun e =>
        if (s.entry e).state = .lost then none else
          some (AlarmEntry.mk .tapLost .major (.place f (((s.entry e).pending.map (·.pos)).getD 0)) s.time.minute
            (word (t.entry e).silentSince)) := by
      refine List.filterMap_congr fun e he => ?_
      rw [State.notFoundLog, hlost e he, h.inStep.minute, hl e]
      rfl
    rw [hsame]

end

/-! ### The outcomes that end it -/

section
variable {s : State} {f : Feeder} {o : Outcome} {en : Enum}

/-- An outcome whose effect is the end of the enumeration, in the state in which it was taken. -/
theorem State.EnumAnswer.endStep {c : Instr} {ending : Ending} {pre : List Task} {first : List AlarmEntry}
    (h : s.EnumAnswer f o en) (mark : Bool)
    (he : exec c s = .next (((s.outcomeTaken f mark).enumEnd f en ending).1.pushCalls
      (pre ++ ((s.outcomeTaken f mark).enumEnd f en ending).2))) (hl : OnlyLogs pre s.time.minute first) :
    s.EndStep (s.outcomeTaken f mark) f en c ending pre first := ⟨h.inStep mark, rfl, he, hl, h.corr⟩

theorem State.EnumAnswer.identifyFailed (h : s.EnumAnswer f o en) (mark : Bool) (hc : o.cmd = .identify) {k : FailKind}
    {ending : Ending} (hres : o.res = .failed k)
    (hk : k = .noAnswer ∧ ending = .complete ∨ k ≠ .noAnswer ∧ ending = .identifyFailed) :
    s.EndStep (s.outcomeTaken f mark) f en (.enumIdentifyOutcome f mark) ending [] [] := by
  refine h.endStep mark (exec_enumIdentifyOutcome mark h hc ?_) .nil
  unfold State.identifyOutcome
  rw [hres]
  rcases hk with ⟨rfl, rfl⟩ | ⟨hk, rfl⟩
  · rfl
  · split
    · next h => exact nomatch h
    · next h => exact absurd (OutRes.failed.inj h) hk
    · rfl

theorem State.EnumAnswer.assignFailed (h : s.EnumAnswer f o en) (mark : Bool) (hc : o.cmd = .assign)
    (hres : (∃ k, o.res = .failed k) ∨
      ∃ lat a b d pl, o.res = .ok lat a b d pl ∧ (charAt pl 0).toNat ≠ en.pos) :
    s.EndStep (s.outcomeTaken f mark) f en (.assignOutcome f mark) .assignFailed [] [] := by
  refine h.endStep mark (exec_assignOutcome mark h hc ?_) .nil
  unfold State.assignOutcome
  rcases hres with ⟨k, hres⟩ | ⟨lat, a, b, d, pl, hres, hpos⟩ <;> rw [hres]
  · rfl
  · exact if_neg hpos

theorem State.EnumAnswer.forgetFailed (h : s.EnumAnswer f o en) (mark : Bool) (hc : o.cmd = .forget) {k : FailKind}
    (hres : o.res = .failed k) :
    s.EndStep (s.outcomeTaken f mark) f en (.forgetOutcome f mark) .forgetFailed [] [] := by
  refine h.endStep mark (exec_forgetOutcome mark h hc ?_) .nil
  unfold State.forgetOutcome
  rw [hres]
  rfl

theorem State.choiceStands_congr {s t : State} (h : ∀ e, t.entry e = s.entry e) (serial : Word) (c : EntryId × Pick) :
    t.choiceStands serial c = s.choiceStands serial c := by
  unfold State.choiceStands
  rw [State.entryOfSerial_congr h, h]

theorem State.finalChoice_congr {s t : State} (h : ∀ e, t.entry e = s.entry e) (en : Enum) :
    t.finalChoice en = s.finalChoice en := by
  simp only [State.finalChoice, State.choiceStands_congr h, State.chooseEntry_congr h]

/-- A choice that is lost is made anew. -/
theorem State.finalChoice_lost (h : ∀ y, en.choice = some y → s.choiceStands en.serial y = false) :
    s.finalChoice en = s.chooseEntry en.serial := by
  unfold State.finalChoice
  split
  · next y hy => exact if_neg (Bool.eq_false_iff.1 (h y hy))
  · rfl

theorem State.EnumAnswer.assignNotAdmitted (h : s.EnumAnswer f o en) (mark : Bool) (hc : o.cmd = .assign) {lat : Nat}
    {a b d : Bool} {pl : List Byte} (hres : o.res = .ok lat a b d pl) (hpos : (charAt pl 0).toNat = en.pos)
    (hlost : ∀ y, en.choice = some y → s.choiceStands en.serial y = false) (hnone : s.chooseEntry en.serial = none) :
    s.EndStep (s.outcomeTaken f mark) f en (.assignOutcome f mark) .notAdmitted [notAdmitted f en.serial]
      [AlarmEntry.mk .tapNotAdmitted .critical (.feeder f) s.time.minute en.serial] := by
  have hfinal : (s.outcomeTaken f mark).finalChoice en = none :=
    (State.finalChoice_congr (s := s) (t := s.outcomeTaken f mark) (fun _ => rfl) en).trans
      ((State.finalChoice_lost hlost).trans hnone)
  refine h.endStep mark (exec_assignOutcome mark h hc ?_) (.alarm ..)
  unfold State.assignOutcome
  rw [hres]
  dsimp only
  rw [if_pos hpos, State.assigned, hfinal]
  rfl

/-- An answer whose serial ends the enumeration, the choices of the enumeration showing it. -/
theorem State.EnumAnswer.identifiedEnd (h : s.EnumAnswer f o en) (mark : Bool) (hc : o.cmd = .identify) {lat : Nat}
    {a b d : Bool} {pl : List Byte} {ending : Ending} {last : Task} {entry : AlarmEntry} (hres : o.res = .ok lat a b d pl)
    (hid : ∀ v : State, (∀ e, v.entry e = s.latencyStored (serialOfChars pl) lat e) →
      v.identified f en (serialOfChars pl) = ((v.enumEnd f en ending).1, last :: (v.enumEnd f en ending).2))
    (hlast : OnlyLogs [last] s.time.minute [entry]) :
    ∃ u pre, s.EndStep u f en (.enumIdentifyOutcome f mark) ending pre [entry] ∧
      ∀ e, u.entry e = s.latencyStored (serialOfChars pl) lat e := by
  obtain ⟨pool, ts, hstore, hentry, hlogs⟩ := s.outcomeTaken_latencyStored f mark (serialOfChars pl) lat
  have heffect := State.identifyOutcome_ok (s := s.outcomeTaken f mark) (f := f) (en := en) hres
  rw [hstore] at heffect
  dsimp only at heffect
  rw [hid _ hentry] at heffect
  dsimp only at heffect
  rw [List.append_cons] at heffect
  exact ⟨_, ts ++ [last], ⟨(h.inStep mark).withPool pool, rfl, exec_enumIdentifyOutcome mark h hc heffect, hlogs.append hlast,
    h.corr⟩, hentry⟩

theorem State.EnumAnswer.identifyNotAdmitted (h : s.EnumAnswer f o en) (mark : Bool) (hc : o.cmd = .identify) {lat : Nat}
    {a b d : Bool} {pl : List Byte} (hres : o.res = .ok lat a b d pl) (hnone : s.chooseEntry (serialOfChars pl) = none) :
    ∃ u pre, s.EndStep u f en (.enumIdentifyOutcome f mark) .notAdmitted pre
        [AlarmEntry.mk .tapNotAdmitted .critical (.feeder f) s.time.minute (serialOfChars pl)] ∧
      ∀ e, u.entry e = s.latencyStored (serialOfChars pl) lat e := by
  refine h.identifiedEnd mark hc hres (fun v hv => ?_) (.alarm ..)
  unfold State.identified
  rw [(State.chooseEntry_latency hv _).trans hnone]
  rfl

theorem State.EnumAnswer.identifyFull (h : s.EnumAnswer f o en) (mark : Bool) (hc : o.cmd = .identify) {lat : Nat}
    {a b d : Bool} {pl : List Byte} (hres : o.res = .ok lat a b d pl)
    (hsome : (s.chooseEntry (serialOfChars pl)).isSome = true) (hpos : 62 < s.choosePos f en (serialOfChars pl)) :
    ∃ u pre, s.EndStep u f en (.enumIdentifyOutcome f mark) .feederFull pre
        [AlarmEntry.mk .feederFull .critical (.feeder f) s.time.minute (serialOfChars pl)] ∧
      ∀ e, u.entry e = s.latencyStored (serialOfChars pl) lat e := by
  refine h.identifiedEnd mark hc hres (fun v hv => ?_) (.alarm ..)
  obtain ⟨c, hch⟩ := Option.isSome_iff_exists.1 hsome
  unfold State.identified
  rw [(State.chooseEntry_latency hv _).trans hch]
  exact if_pos (hpos.trans_le (State.choosePos_latency hv f en _).ge)

end

end Sys2Proof.Machine
end

section
/-! An ASSIGN answered with its position (O49): the tap placed, new or moved or found again, and the next call (R91). -/

open Sys2Proof

namespace Sys2Proof.Machine

section
variable {s : State} {f : Feeder}

/-- A READ passed over changes the roll call of its feeder and its timer. -/
theorem State.passDue_reformed (s : State) (f : Feeder) (e : EntryId) :
    ∃ rolls pacing, s.passDue f e = s.reformed s.dir.pool rolls pacing := by
  have hadvance (r : Feeder) : ∃ rolls pacing, s.advanceRoll r true = s.reformed s.dir.pool rolls pacing := by
    unfold State.advanceRoll
    dsimp only
    split
    · exact ⟨_, _, rfl⟩
    · rw [State.endCycle_notDue]
      exact ⟨_, _, rfl⟩
  unfold State.passDue
  split
  · split
    · exact hadvance f
    · exact ⟨s.dir.rolls, s.time.pacing, rfl⟩
  · exact ⟨s.dir.rolls, s.time.pacing, rfl⟩

/-- The enumeration with one tap more placed. -/
def Enum.placedOne (en : Enum) : Enum := { en with next := en.next + 1, count := en.count + 1, choice := none }

/-- What the Tap Directory says of where a tap comes from: TAP NEW, or its old place vacated with TAP MOVED (R91). -/
def Entry.cameFrom (x : Entry) (new : Bool) (serial : Word) (e : EntryId) (f : Feeder) (pos now : Nat) : List Task :=
  if new then [tapAlarm .tapNew .info f pos serial] else x.movedTasks e f pos now

/-- The entry that an ASSIGN places: the chosen one, cleared where its tap is new (R91). -/
def State.assignEntry (s : State) (e : EntryId) (new : Bool) : Entry := if new then Entry.free else s.entry e

/-- The entry once it is placed, its due READ at the old place passed over (R83, R91). -/
def State.entryPlaced (s : State) (f : Feeder) (e : EntryId) (x y : Entry) : State :=
  match x.place with
  | some pl => if pl.feeder = f then s.setEntry e y else (s.setEntry e y).passDue pl.feeder e
  | none => s.setEntry e y

theorem State.entryPlaced_reformed (s : State) (f : Feeder) (e : EntryId) (x y : Entry) :
    ∃ rolls pacing, s.entryPlaced f e x y = s.reformed (s.setEntry e y).dir.pool rolls pacing := by
  unfold State.entryPlaced
  split
  · split
    · exact ⟨s.dir.rolls, s.time.pacing, rfl⟩
    · exact (s.setEntry e y).passDue_reformed _ e
  · exact ⟨s.dir.rolls, s.time.pacing, rfl⟩

theorem State.assigned_some {en : Enum} {e : EntryId} {pick : Pick} {new : Bool} {lat : Nat} {a b : Bool}
    (hf : s.finalChoice en = some (e, pick)) (hnew : (pick != .held) = new) : s.assigned f en lat a b =
      (let x := s.assignEntry e new
       let u := s.entryPlaced f e x (x.placed en.serial f en.pos s.now lat a b en.mode)
       (u.setEng f { u.eng f with enum := some en.placedOne },
        x.cameFrom new en.serial e f en.pos s.now ++ flagAlarm .tapTamper f en.pos x.tamper a ++
          flagAlarm .tapLowSupply f en.pos x.low b ++ (if new then [] else x.assignBack e f en.pos s.now) ++
          [.burst .directory (.mirror e), .beginCall f .identify])) := by
  unfold State.assigned
  rw [hf, ← hnew]
  rfl

end

section
variable {s : State} {f : Feeder} {o : Outcome} {en : Enum} {lat : Nat} {a b d : Bool} {pl : List Byte} {e : EntryId}
  {pick : Pick} {new : Bool}

theorem State.assignOutcome_ok (hres : o.res = .ok lat a b d pl) (hpos : (charAt pl 0).toNat = en.pos) :
    s.assignOutcome f en o = s.assigned f en lat a b := by
  unfold State.assignOutcome
  rw [hres]
  exact if_pos hpos

/-- One hand-off at the most to each block. -/
structure AtMostOne (ts : List Task) (minute : Nat) : Prop where
  handOff : ∀ t ∈ ts, t.HandOff
  order : (ts.flatMap Task.orderPart).length ≤ 1
  corr : (ts.flatMap Task.corrPart).length ≤ 1
  log : (ts.flatMap (Task.logPart minute)).length ≤ 1

theorem AtMostOne.stepRoom {ts us : List Task} {l : List AlarmEntry} (h : AtMostOne ts s.time.minute)
    (hl : OnlyLogs us s.time.minute l) (hc : s.corr.reports.length < Config.corrReportDepth) (hlen : l.length ≤ 2) :
    s.StepRoom (ts ++ us) := by
  obtain ⟨hand, horder, hcorr, hlog⟩ := h
  refine ⟨List.forall_mem_append.2 ⟨hand, hl.handOff⟩, ?_, ?_, ?_⟩ <;> rw [List.flatMap_append, List.length_append]
  · rw [hl.order]
    exact horder.trans (by decide)
  · rw [hl.corr, List.length_nil]
    omega
  · rw [hl.log]
    exact (Nat.add_le_add hlog hlen).trans (by decide)

/-- An answered ASSIGN of an entry that is not LOST, or cleared: the entry placed, and what is handed on. -/
theorem State.EnumAnswer.assigned (h : s.EnumAnswer f o en) (mark : Bool) (hc : o.cmd = .assign)
    (hres : o.res = .ok lat a b d pl) (hpos : (charAt pl 0).toNat = en.pos) (hf : s.finalChoice en = some (e, pick))
    (hnew : (pick != .held) = new) (hl : (s.assignEntry e new).state ≠ .lost) {ts : List Task}
    (hts : (s.assignEntry e new).cameFrom new en.serial e f en.pos s.time.minute = ts) (hone : AtMostOne ts s.time.minute) :
    ∃ (t : State) (x : Engine), exec (.assignOutcome f mark) s = .next t ∧
      t.eng f = x.calling en.placedOne .identify s.cfg.attempts ∧
      t.entry e = (s.assignEntry e new).placed en.serial f en.pos s.time.minute lat a b en.mode ∧
      (∀ g, g ≠ e → t.entry g = s.entry g) ∧ t.order.reports = ts.flatMap Task.orderPart ∧
      t.corr.reports = s.corr.reports ++ ts.flatMap Task.corrPart ∧
      (∀ y ∈ ts.flatMap (Task.logPart s.time.minute), y ∈ t.log.intake) ∧ SameMemory s t := by
  have htasks (us vs : List Task) (x y : Task) : ts ++ us ++ vs ++ [] ++ [x, y] = ts ++ (us ++ vs ++ [x]) ++ [y] := by
    simp only [List.append_assoc, List.append_nil, List.cons_append, List.nil_append]
  have hback : (if new = true then [] else (s.assignEntry e new).assignBack e f en.pos s.time.minute) = [] := by
    split
    · rfl
    · exact if_neg hl
  have hfinal := (State.finalChoice_congr (s := s) (t := s.outcomeTaken f mark) (fun _ => rfl) en).trans hf
  obtain ⟨rolls, pacing, hu⟩ := (s.outcomeTaken f mark).entryPlaced_reformed f e (s.assignEntry e new)
    ((s.assignEntry e new).placed en.serial f en.pos s.time.minute lat a b en.mode)
  have hx : (s.outcomeTaken f mark).assignEntry e new = s.assignEntry e new := rfl
  have hnow : (s.outcomeTaken f mark).now = s.time.minute := rfl
  have heffect := (State.assignOutcome_ok (s := s.outcomeTaken f mark) (f := f) hres hpos).trans
    (State.assigned_some (lat := lat) (a := a) (b := b) hfinal hnew)
  dsimp only at heffect
  rw [hx, hnow, hu, hts, hback, htasks] at heffect
  have hlogs : OnlyLogs (flagAlarm .tapTamper f en.pos (s.assignEntry e new).tamper a ++
      flagAlarm .tapLowSupply f en.pos (s.assignEntry e new).low b ++ [.burst .directory (.mirror e)]) s.time.minute
      (flagLog .tapTamper f en.pos s.time.minute (s.assignEntry e new).tamper a ++
        flagLog .tapLowSupply f en.pos s.time.minute (s.assignEntry e new).low b) :=
    ((OnlyLogs.flag ..).append (.flag ..)).thenBurst ..
  obtain ⟨t, ht, heng, hdone⟩ := (((h.inStep mark).reformed _ rolls pacing).withEnum (some en.placedOne)).calls
    (hone.stepRoom hlogs h.corr (by
      rw [List.length_append]
      exact Nat.add_le_add (flagLog_length ..) (flagLog_length ..))) .identify
  refine ⟨t, _, (exec_assignOutcome mark h hc heffect).trans (congrArg _ ht), heng, (hdone.entry e).trans ?_,
    fun g hg => (hdone.entry g).trans ?_, ?_, ?_, fun y hy => ?_, hdone.mem⟩
  · exact ((s.outcomeTaken f mark).entry_setEntry e e _).trans (if_pos rfl)
  · exact ((s.outcomeTaken f mark).entry_setEntry e g _).trans (if_neg hg.symm)
  · rw [hdone.order, List.flatMap_append, hlogs.order, List.append_nil]
  · rw [hdone.corr, List.flatMap_append, hlogs.corr, List.append_nil]
  · rw [hdone.intake, List.flatMap_append]
    exact List.mem_append_left _ hy

end

/-! ### The choice at the ASSIGN (R89) -/

section
variable {s : State} {f : Feeder} {o : Outcome} {en : Enum} {lat : Nat} {a b d : Bool} {pl : List Byte} {e : EntryId}
  {pick : Pick}

theorem State.finalChoice_stands {c : EntryId × Pick} (h : en.choice = some c) (hs : s.choiceStands en.serial c = true) :
    s.finalChoice en = some c := by
  unfold State.finalChoice
  rw [h]
  exact if_pos hs

theorem State.finalChoice_held (hch : en.choice = some (e, .held)) (hserial : (s.entry e).serial = en.serial)
    (hstate : (s.entry e).state ≠ .free) : s.finalChoice en = some (e, .held) :=
  State.finalChoice_stands hch (Bool.and_eq_true_iff.2 ⟨bne_iff_ne.2 hstate, beq_iff_eq.2 hserial⟩)

/-- An entry chosen for a serial that none holds is a new one. -/
theorem State.chooseEntry_new {serial : Word} (hs : s.entryOfSerial serial = none)
    (hch : s.chooseEntry serial = some (e, pick)) : (pick != .held) = true := by
  unfold State.chooseEntry at hch
  rw [hs] at hch
  dsimp only at hch
  split at hch
  · cases hch
    rfl
  · obtain ⟨x, -, hx⟩ := Option.map_eq_some_iff.1 hch
    cases hx
    rfl

theorem State.finalChoice_new (hs : s.entryOfSerial en.serial = none)
    (hch : en.choice = some (e, .free) ∧ (s.entry e).state = .free ∨
      en.choice = some (e, .reused) ∧ (s.entry e).reusable = true ∨
      (∀ y, en.choice = some y → s.choiceStands en.serial y = false) ∧ ∃ pick, s.chooseEntry en.serial = some (e, pick)) :
    ∃ pick, s.finalChoice en = some (e, pick) ∧ (pick != .held) = true := by
  have hnobody : (s.entryOfSerial en.serial).isNone = true := by rw [hs]; rfl
  rcases hch with ⟨hch, hfree⟩ | ⟨hch, hspare⟩ | ⟨hlost, pick, hch⟩
  · exact ⟨.free, State.finalChoice_stands hch (Bool.and_eq_true_iff.2 ⟨beq_iff_eq.2 hfree, hnobody⟩), rfl⟩
  · exact ⟨.reused, State.finalChoice_stands hch (Bool.and_eq_true_iff.2 ⟨hspare, hnobody⟩), rfl⟩
  · exact ⟨pick, (State.finalChoice_lost hlost).trans hch, State.chooseEntry_new hs hch⟩

/-! ### The three taps that an ASSIGN can place (R91) -/

theorem State.EnumAnswer.assignedNew (h : s.EnumAnswer f o en) (mark : Bool) (hc : o.cmd = .assign)
    (hres : o.res = .ok lat a b d pl) (hpos : (charAt pl 0).toNat = en.pos) (hf : s.finalChoice en = some (e, pick))
    (hnew : (pick != .held) = true) :
    ∃ t x, exec (.assignOutcome f mark) s = .next t ∧ (t.eng f).txn = some x ∧ x.cmd = .identify ∧
      t.entry e = { Entry.free with
        state := .present, serial := en.serial, place := some { feeder := f, pos := en.pos }
        lastAnswer := s.time.minute, latency := lat, tamper := a, low := b
        ports := if en.mode = .extend then
          Entry.free.ports.map fun p => { p with applied := some PortState.off, reapply := true }
          else Entry.free.ports } ∧
      (∃ y, (t.eng f).enum = some y ∧ y.count = en.count + 1 ∧ y.next = en.next + 1) ∧
      AlarmEntry.mk .tapNew .info (.place f en.pos) s.time.minute en.serial ∈ t.log.intake ∧
      (∀ g, g ≠ e → t.entry g = s.entry g) ∧ SameMemory s t := by
  obtain ⟨t, x, ht, heng, hentry, hothers, -, -, hlog, hmem⟩ := h.assigned (new := true) mark hc hres hpos hf hnew
    (fun hl => nomatch hl) rfl ⟨List.forall_mem_singleton.2 (.alarm ..), Nat.zero_le _, Nat.zero_le _, Nat.le_refl 1⟩
  exact ⟨t, _, ht, congrArg Engine.txn heng, rfl, hentry, ⟨_, congrArg Engine.enum heng, rfl, rfl⟩,
    hlog _ List.mem_cons_self, hothers, hmem⟩

theorem State.EnumAnswer.assignedPending (h : s.EnumAnswer f o en) (mark : Bool) (hc : o.cmd = .assign)
    (hres : o.res = .ok lat a b d pl) (hpos : (charAt pl 0).toNat = en.pos) (hch : en.choice = some (e, .held))
    (hserial : (s.entry e).serial = en.serial) (hstate : (s.entry e).state = .present ∨ (s.entry e).state = .silent)
    (hplace : (s.entry e).place = none) (hpending : (s.entry e).pending.map (·.feeder) = some f) :
    ∃ t x, exec (.assignOutcome f mark) s = .next t ∧ (t.eng f).txn = some x ∧ x.cmd = .identify ∧
      t.entry e = { s.entry e with
        state := .present, misses := 0, silentSince := 0, lastAnswer := s.time.minute, latency := lat, tamper := a
        low := b, place := some { feeder := f, pos := en.pos }, pending := none
        ports := if en.mode = .extend then
          (s.entry e).ports.map fun p => { p with applied := some PortState.off, reapply := true }
          else (s.entry e).ports } ∧
      (∃ y, (t.eng f).enum = some y ∧ y.count = en.count + 1) ∧ t.order.reports = [] ∧
      t.corr.reports = s.corr.reports ∧ (∀ g, g ≠ e → t.entry g = s.entry g) ∧ SameMemory s t := by
  have hlive : (s.entry e).state ≠ .free ∧ (s.entry e).state ≠ .lost := by
    rcases hstate with hst | hst <;> rw [hst] <;> decide
  have hcame : (s.assignEntry e false).cameFrom false en.serial e f en.pos s.time.minute = [] := by
    obtain ⟨old, hold, rfl⟩ := Option.map_eq_some_iff.1 hpending
    show (s.entry e).movedTasks e old.feeder en.pos s.time.minute = []
    unfold Entry.movedTasks
    rw [hplace, hold]
    exact if_pos rfl
  obtain ⟨t, x, ht, heng, hentry, hothers, horder, hcorr, -, hmem⟩ := h.assigned (new := false) mark hc hres hpos
    (State.finalChoice_held hch hserial hlive.1) rfl hlive.2 hcame
    ⟨fun _ ht => (nomatch ht), Nat.zero_le _, Nat.zero_le _, Nat.zero_le _⟩
  refine ⟨t, _, ht, congrArg Engine.txn heng, rfl, hentry.trans ?_, ⟨_, congrArg Engine.enum heng, rfl⟩, horder,
    hcorr.trans (List.append_nil _), hothers, hmem⟩
  rw [← hserial]
  rfl

theorem State.EnumAnswer.assignedMoved {old : Place} (h : s.EnumAnswer f o en) (mark : Bool) (hc : o.cmd = .assign)
    (hres : o.res = .ok lat a b d pl) (hpos : (charAt pl 0).toNat = en.pos) (hch : en.choice = some (e, .held))
    (hserial : (s.entry e).serial = en.serial) (hstate : (s.entry e).state = .present)
    (hplace : (s.entry e).place = some old) (hother : old.feeder ≠ f) :
    ∃ t x, exec (.assignOutcome f mark) s = .next t ∧ (t.eng f).txn = some x ∧ x.cmd = .identify ∧
      (t.entry e).place = some { feeder := f, pos := en.pos } ∧ (t.entry e).state = .present ∧
      t.order.reports = [.lostTap e] ∧
      t.corr.reports = s.corr.reports ++ [.vacate e old.feeder old.pos s.time.minute false] ∧
      AlarmEntry.mk .tapMoved .minor (.place f en.pos) s.time.minute (placeValue (some old)) ∈ t.log.intake ∧
      (∀ g, g ≠ e → t.entry g = s.entry g) ∧ SameMemory s t := by
  have hcame : (s.assignEntry e false).cameFrom false en.serial e f en.pos s.time.minute =
      [.orderReport (.lostTap e), .corrReport (.vacate e old.feeder old.pos s.time.minute false),
        tapAlarm .tapMoved .minor f en.pos (placeValue (some old))] := by
    show (s.entry e).movedTasks e f en.pos s.time.minute = _
    unfold Entry.movedTasks
    rw [hplace, hstate]
    exact if_neg hother
  have hone : AtMostOne [.orderReport (.lostTap e), .corrReport (.vacate e old.feeder old.pos s.time.minute false),
      tapAlarm .tapMoved .minor f en.pos (placeValue (some old))] s.time.minute := by
    refine ⟨?_, Nat.le_refl 1, Nat.le_refl 1, Nat.le_refl 1⟩
    simp only [List.forall_mem_cons]
    exact ⟨.orderReport _, .corrReport _, .alarm .., fun t ht => nomatch ht⟩
  have hfinal := State.finalChoice_held hch hserial (by rw [hstate]; decide)
  obtain ⟨t, x, ht, heng, hentry, hothers, horder, hcorr, hlog, hmem⟩ := h.assigned (new := false) mark hc hres hpos hfinal rfl
    (fun hl => nomatch hstate.symm.trans hl) hcame hone
  exact ⟨t, _, ht, congrArg Engine.txn heng, rfl, congrArg Entry.place hentry, congrArg Entry.state hentry, horder, hcorr,
    hlog _ List.mem_cons_self, hothers, hmem⟩

end

end Sys2Proof.Machine
end

section
/-! The steps of an enumeration (O49), put together (R87–R92). -/

open Sys2Proof

namespace Sys2Proof.Machine

section
variable {s : State} {f : Feeder} {o : Outcome} {en : Enum}

/-- The latency of an answer whose serial has no entry is stored nowhere (R64). -/
theorem State.latencyStored_nobody {serial : Word} (h : s.entryOfSerial serial = none) (lat : Nat) (e : EntryId) :
    s.latencyStored serial lat e = s.entry e := by
  rw [s.latencyStored_eq, h]
  rfl

theorem State.EnumAnswer.identifiedNew {lat : Nat} {a b d : Bool} {pl : List Byte} (h : s.EnumAnswer f o en) (mark : Bool)
    (hc : o.cmd = .identify) (hres : o.res = .ok lat a b d pl) (hnobody : s.entryOfSerial (serialOfChars pl) = none)
    (hagain : en.again = false) (hsome : (s.chooseEntry (serialOfChars pl)).isSome = true)
    (hpos : s.choosePos f en (serialOfChars pl) ≤ 62) :
    ∃ t x, exec (.enumIdentifyOutcome f mark) s = .next t ∧ (t.eng f).txn = some x ∧ x.cmd = .assign ∧
      x.chars = callChars 0 .assign (assignPayload (s.choosePos f en (serialOfChars pl)) (serialOfChars pl)) ∧
      (∃ y, (t.eng f).enum = some y ∧ y.choice = s.chooseEntry (serialOfChars pl) ∧ y.count = en.count ∧
        y.pos = s.choosePos f en (serialOfChars pl) ∧ y.serial = serialOfChars pl) ∧
      (∀ e, t.entry e = s.entry e) ∧ SameMemory s t := by
  obtain ⟨c, hch⟩ := Option.isSome_iff_exists.1 hsome
  obtain ⟨t, x, ht, heng, hentry, hmem⟩ := h.identified mark hc hres hch hpos
  rw [hagain] at heng
  exact ⟨t, _, ht, congrArg Engine.txn heng, rfl, rfl, ⟨_, congrArg Engine.enum heng, hch.symm, rfl, rfl, rfl⟩,
    fun e => (hentry e).trans (State.latencyStored_nobody hnobody lat e), hmem⟩

theorem State.EnumAnswer.identifiedKnown {lat : Nat} {a b d : Bool} {pl : List Byte} {e : EntryId}
    (h : s.EnumAnswer f o en) (mark : Bool) (hc : o.cmd = .identify) (hres : o.res = .ok lat a b d pl)
    (hknown : s.entryOfSerial (serialOfChars pl) = some e) (hagain : en.again = false)
    (hpos : s.choosePos f en (serialOfChars pl) ≤ 62) :
    ∃ t x, exec (.enumIdentifyOutcome f mark) s = .next t ∧ (t.eng f).txn = some x ∧ x.cmd = .assign ∧
      x.chars = callChars 0 .assign (assignPayload (s.choosePos f en (serialOfChars pl)) (serialOfChars pl)) ∧
      (∃ y, (t.eng f).enum = some y ∧ y.choice = some (e, .held) ∧ y.count = en.count) ∧
      t.entry e = { s.entry e with latency := lat } ∧ (∀ g, g ≠ e → t.entry g = s.entry g) ∧ SameMemory s t := by
  obtain ⟨t, x, ht, heng, hentry, hmem⟩ := h.identified mark hc hres (State.chooseEntry_held hknown) hpos
  rw [hagain] at heng
  refine ⟨t, _, ht, congrArg Engine.txn heng, rfl, rfl, ⟨_, congrArg Engine.enum heng, rfl, rfl⟩, (hentry e).trans ?_,
    fun g hg => (hentry g).trans ?_, hmem⟩
  · rw [s.latencyStored_eq, if_pos hknown]
  · rw [s.latencyStored_eq, hknown, if_neg fun he => hg (Option.some.inj he).symm]

theorem State.EnumAnswer.identifiedAgain {lat : Nat} {a b d : Bool} {pl : List Byte} (h : s.EnumAnswer f o en) (mark : Bool)
    (hc : o.cmd = .identify) (hres : o.res = .ok lat a b d pl) (hagain : en.again = true)
    (hsome : (s.chooseEntry (serialOfChars pl)).isSome = true) (hpos : s.choosePos f en (serialOfChars pl) ≤ 62) :
    ∃ t x, exec (.enumIdentifyOutcome f mark) s = .next t ∧ (t.eng f).txn = some x ∧ x.cmd = .identify ∧
      (∃ y, (t.eng f).enum = some y ∧ y.again = false ∧ y.count = en.count ∧ y.next = en.next ∧ y.mode = en.mode) ∧
      (∀ e, (t.entry e).place = (s.entry e).place) ∧ SameMemory s t := by
  obtain ⟨c, hch⟩ := Option.isSome_iff_exists.1 hsome
  obtain ⟨t, x, ht, heng, hentry, hmem⟩ := h.identified mark hc hres hch hpos
  rw [hagain] at heng
  refine ⟨t, _, ht, congrArg Engine.txn heng, rfl, ⟨_, congrArg Engine.enum heng, rfl, rfl, rfl, rfl⟩, fun e => ?_, hmem⟩
  rw [hentry e, State.latencyStored]

theorem State.EnumAnswer.forgetFailed_done {k : FailKind} (h : s.EnumAnswer f o en) (mark : Bool) (hc : o.cmd = .forget)
    (hres : o.res = .failed k) (hnone : s.pendingFor f = []) :
    ∃ t, exec (.forgetOutcome f mark) s = .next t ∧ (t.eng f).state = .ready ∧ (t.eng f).enum = none ∧
      t.log.intake = [AlarmEntry.mk .enumerationDone .minor (.feeder f) s.time.minute
        (word (countField en.count + 2 ^ 8 * Ending.forgetFailed.code))] ∧
      (∀ e, (t.entry e).place = (s.entry e).place ∧ (t.entry e).state = (s.entry e).state) ∧ SameMemory s t := by
  have hend := h.forgetFailed mark hc hres
  have hl (e : EntryId) : (s.outcomeTaken f mark).entry e = { s.entry e with latency := (s.entry e).latency } := rfl
  cases hm : en.mode with
  | extend =>
    obtain ⟨t, ht, hended, hlog, hentry, -⟩ := hend.extend_entries hl hm (by decide)
    refine ⟨t, ht, hended.state, hended.enum, hlog, fun e => ?_, hended.mem⟩
    rw [hentry e]
    exact ⟨rfl, rfl⟩
  | fresh =>
    obtain ⟨t, ht, hended, -, hentry, -, hlog⟩ := hend.fresh_entries hl hm (by decide) (by rw [hnone]; decide)
    rw [hnone] at hlog hentry
    refine ⟨t, ht, hended.state, hended.enum, hlog, fun e => ?_, hended.mem⟩
    rw [hentry e List.not_mem_nil]
    exact ⟨rfl, rfl⟩

/-! ### The ends (R89–R92) -/

/-- The outcomes that end an enumeration: the ending, what is logged before it, and the entries as the answer leaves them. -/
def State.EndsBy (s : State) (f : Feeder) (en : Enum) (o : Outcome) (mark : Bool) (c : Instr) (ending : Ending)
    (first : List AlarmEntry) (x : EntryId → Entry) : Prop :=
  c = .enumIdentifyOutcome f mark ∧ o.cmd = .identify ∧
      (o.res = .failed .noAnswer ∧ ending = .complete ∧ first = [] ∧ x = s.entry ∨
       (∃ k, k ≠ .noAnswer ∧ o.res = .failed k) ∧ ending = .identifyFailed ∧ first = [] ∧ x = s.entry ∨
       (∃ lat a b d pl, o.res = .ok lat a b d pl ∧ s.chooseEntry (serialOfChars pl) = none ∧
         ending = .notAdmitted ∧ x = s.entry ∧ first = [AlarmEntry.mk .tapNotAdmitted .critical (.feeder f)
           s.time.minute (serialOfChars pl)]) ∨
       ∃ lat a b d pl, o.res = .ok lat a b d pl ∧ (s.chooseEntry (serialOfChars pl)).isSome = true ∧
         62 < s.choosePos f en (serialOfChars pl) ∧ ending = .feederFull ∧
         x = (fun e => if s.entryOfSerial (serialOfChars pl) = some e then { s.entry e with latency := lat }
           else s.entry e) ∧
         first = [AlarmEntry.mk .feederFull .critical (.feeder f) s.time.minute (serialOfChars pl)]) ∨
    c = .assignOutcome f mark ∧ o.cmd = .assign ∧ x = s.entry ∧
      (((∃ k, o.res = .failed k) ∨ ∃ lat a b d pl, o.res = .ok lat a b d pl ∧ (charAt pl 0).toNat ≠ en.pos) ∧
         ending = .assignFailed ∧ first = [] ∨
       (∃ lat a b d pl, o.res = .ok lat a b d pl ∧ (charAt pl 0).toNat = en.pos) ∧
         (∀ y, en.choice = some y → s.choiceStands en.serial y = false) ∧ s.chooseEntry en.serial = none ∧
         ending = .notAdmitted ∧ first = [AlarmEntry.mk .tapNotAdmitted .critical (.feeder f) s.time.minute
           en.serial])

/-- A state of an ending step: its entries are those given, and differ from those at the step's start by latencies alone. -/
structure State.LeavesEntries (s u : State) (x : EntryId → Entry) : Prop where
  entry : ∀ e, u.entry e = x e
  latency : ∃ l : EntryId → Nat, ∀ e, u.entry e = { s.entry e with latency := l e }

theorem State.leavesEntries_taken (s : State) (f : Feeder) (mark : Bool) : s.LeavesEntries (s.outcomeTaken f mark) s.entry :=
  ⟨fun _ => rfl, fun e => (s.entry e).latency, fun _ => rfl⟩

theorem State.EnumAnswer.endSteps {mark : Bool} {c : Instr} {ending : Ending} {first : List AlarmEntry} {x : EntryId → Entry}
    (h : s.EnumAnswer f o en) (hends : s.EndsBy f en o mark c ending first x) :
    (∃ u pre, s.EndStep u f en c ending pre first ∧ s.LeavesEntries u x) ∧
      ending ≠ .forgetFailed ∧ ending ≠ .outageOpen ∧ first.length ≤ 1 := by
  have htaken := s.leavesEntries_taken f mark
  rcases hends with ⟨rfl, hc, ⟨hres, rfl, rfl, rfl⟩ | ⟨⟨k, hk, hres⟩, rfl, rfl, rfl⟩ |
      ⟨lat, a, b, d, pl, hres, hnone, rfl, rfl, rfl⟩ | ⟨lat, a, b, d, pl, hres, hsome, hpos, rfl, rfl, rfl⟩⟩ |
    ⟨rfl, hc, rfl, ⟨hres, rfl, rfl⟩ | ⟨⟨lat, a, b, d, pl, hres, hpos⟩, hlost, hnone, rfl, rfl⟩⟩
  · exact ⟨⟨_, _, h.identifyFailed mark hc hres (.inl ⟨rfl, rfl⟩), htaken⟩, nofun, nofun, Nat.zero_le 1⟩
  · exact ⟨⟨_, _, h.identifyFailed mark hc hres (.inr ⟨hk, rfl⟩), htaken⟩, nofun, nofun, Nat.zero_le 1⟩
  · obtain ⟨u, pre, hend, hentry⟩ := h.identifyNotAdmitted mark hc hres hnone
    have hnobody := State.latencyStored_nobody (State.entryOfSerial_of_chooseEntry hnone) lat
    exact ⟨⟨u, pre, hend, fun e => (hentry e).trans (hnobody e), _, hentry⟩, nofun, nofun, Nat.le_refl 1⟩
  · obtain ⟨u, pre, hend, hentry⟩ := h.identifyFull mark hc hres hsome hpos
    exact ⟨⟨u, pre, hend, fun e => (hentry e).trans (s.latencyStored_eq _ lat e), _, hentry⟩, nofun, nofun, Nat.le_refl 1⟩
  · exact ⟨⟨_, _, h.assignFailed mark hc hres, htaken⟩, nofun, nofun, Nat.zero_le 1⟩
  · exact ⟨⟨_, _, h.assignNotAdmitted mark hc hres hpos hlost hnone, htaken⟩, nofun, nofun, Nat.le_refl 1⟩

end

/-- Settles O49: the choices, the request taken, the answers that lead on, the ends, and the taps that an ASSIGN places. -/
theorem enumerationSteps : Obligations.EnumerationSteps := by
  unfold Obligations.EnumerationSteps
  refine ⟨⟨fun s f en serial => ⟨State.choosePos_fresh, s.choosePos_spec f en serial⟩, State.chooseEntry_spec⟩,
    fun s f mark hq hr hcorr ho hl => ⟨fun m hs hx hout hg hreq hopen =>
      enumerationRequestTaken_calls mark hq hr hcorr ho hl hs hx hout hg hreq hopen, fun o en hs hout hp hen => ?_⟩⟩
  have h : s.EnumAnswer f o en := ⟨hq.1 .directory, hr, hs, hout, hp, hen, hcorr, ho, hl⟩
  refine ⟨fun lat a b c pl hc hres hrow hroom => h.forgotten mark hc hres hrow hroom,
    fun k hc hres hnone => h.forgetFailed_done mark hc hres hnone,
    fun lat a b c pl hc hres hnobody hagain hsome hpos => h.identifiedNew mark hc hres hnobody hagain hsome hpos,
    fun lat a b c pl e hc hres hknown hagain hpos => h.identifiedKnown mark hc hres hknown hagain hpos,
    fun lat a b c pl hc hres hagain hsome hpos => h.identifiedAgain mark hc hres hagain hsome hpos,
    fun c ending first x hends => ?_, s.mem_pendingFor f, fun lat a b c pl e hc hres hpos hnobody hch => ?_,
    fun lat a b c pl e hc hres hpos hch hserial hstate hplace hpending =>
      h.assignedPending mark hc hres hpos hch hserial hstate hplace hpending,
    fun lat a b c pl e old hc hres hpos hch hserial hstate hplace hother =>
      h.assignedMoved mark hc hres hpos hch hserial hstate hplace hother⟩
  · intro done ended
    obtain ⟨⟨u, pre, hend, hentries, l, hlat⟩, hforget, hopen, hlen⟩ := h.endSteps hends
    refine ⟨fun hm => ?_, fun hm hroom => ?_⟩
    · obtain ⟨t, ht, ⟨hready, henum, hreports, horders, hmem⟩, hlog, hentry, hroll⟩ :=
        hend.extend_entries hlat hm (hlen.trans_lt (by decide))
      refine ⟨t, ht, ⟨hready, henum, hreports, horders, hmem⟩, hlog, fun e => ?_, hroll⟩
      rw [hentry e, hentries e]
    · obtain ⟨t, ht, ⟨hready, henum, hreports, horders, hmem⟩, hin, hout', hroll, hlog⟩ :=
        hend.fresh_entries hlat hm hopen hroom
      obtain ⟨hcursor, hcount, hlist⟩ := hroll hforget
      refine ⟨t, ht, ⟨hready, henum, hreports, horders, hmem⟩, fun e he => ?_, fun e he => ?_, hcursor, hcount, hlist, hlog⟩
      · rw [hin e he, hentries e]
      · rw [hout' e he, hentries e]
  · obtain ⟨pick, hf, hnew⟩ := State.finalChoice_new hnobody hch
    exact h.assignedNew mark hc hres hpos hf hnew

end Sys2Proof.Machine
end

section
/-! The alarm log: its lines, its writer and its consumer (R108–R110, R113–R115). -/

open Sys2Proof

namespace Sys2Proof.Machine

/-! ### The attention line, the escalation and the contact (R113–R115) -/

/-- The escalation and the contact stand as their conditions have them. -/
def State.Escalates (s : State) : Prop := s.log.escalated = s.escalationDue ∧ s.log.contact = s.contactDue

/-- So do the attention line and these. -/
def State.LinesFollow (s : State) : Prop := s.log.attention = s.attentionDue ∧ s.Escalates

section
variable (s : State)

theorem State.attentionDue_iff : s.attentionDue = true ↔ s.run.part ≠ .idle ∧ s.log.loaded = true ∧
    (s.cfg.attention ≤ (s.log.producer + 65536 - s.log.consumer) % 65536 ∨ s.log.critical ≠ []) := by
  by_cases hl : s.log.loaded = true
  · simp [State.attentionDue, AlarmLog.unconsumed, hl]
  · simp [State.attentionDue, hl]

theorem State.escalationDue_iff :
    s.escalationDue = true ↔ ∃ i m rest, s.log.critical = (i, m) :: rest ∧ m + s.cfg.escalation < s.time.minute := by
  unfold State.escalationDue
  cases s.log.critical with
  | nil => simp
  | cons x rest =>
    obtain ⟨i, m⟩ := x
    constructor
    · exact fun h => ⟨i, m, rest, rfl, of_decide_eq_true h⟩
    · rintro ⟨_, _, _, heq, h⟩
      cases heq
      exact decide_eq_true h

theorem State.contactDue_iff :
    s.contactDue = true ↔ s.run.part ≠ .idle ∧ (s.log.escalated = true ∨ s.time.silent = true) := by
  simp [State.contactDue]

theorem State.evalEscalation_escalates : s.evalEscalation.Escalates := ⟨rfl, rfl⟩

theorem State.evalEscalation_attention : s.evalEscalation.log.attention = s.log.attention := rfl

theorem State.evalLog_follows : s.evalLog.LinesFollow := ⟨rfl, rfl, rfl⟩

end

section
variable {s : State} (r : Requester) (b : Burst)

/-- The conditions do not depend on the bursts that wait. -/
theorem State.Escalates.ask (h : s.Escalates) : (s.ask r b).Escalates := by
  rw [State.ask_eq]
  exact h

theorem State.LinesFollow.ask (h : s.LinesFollow) : (s.ask r b).LinesFollow := by
  rw [State.ask_eq]
  exact h

end

/-! ### A submission taken, and the log writer (R107, R108, R110) -/

section
variable {s : State}

/-- A submission of the correlator that has waited enters the intake with the minute it was made at. -/
theorem exec_submissionTaken {k : AlarmKind} {sv : Severity} {sj : Subject} {v : Word} {m : Nat} (hp : s.run.part ≠ .idle)
    (hw : s.corr.work = [.alarm k sv sj v (some m)]) (hroom : s.log.intake.length < Config.intakeDepth) :
    exec (.alarmSubmissionTaken .correlator) s = .next { s with
      log := { s.log with intake := s.log.intake ++ [AlarmEntry.mk k sv sj m v] }, corr := { s.corr with work := [] } } := by
  have he : exec (.alarmSubmissionTaken .correlator) s = .next (doAlarmSubmissionTaken .correlator s) := rfl
  have hwork : s.workOf .correlator = [.alarm k sv sj v (some m)] := hw
  have hturn : s.keepOrderTurn .correlator = s := rfl
  have hdo : s.doTask (.alarm k sv sj v (some m)) = s.submit k sv sj v (some m) := rfl
  rcases s.submit_spec k sv sj v (some m) with ⟨hi, -⟩ | ⟨-, -, hs⟩ | ⟨-, hf, -⟩
  · exact absurd hi hp
  · rw [he, doAlarmSubmissionTaken, if_pos hroom, hwork]
    simp only [reduceCtorEq, if_false]
    rw [State.resumeWork, hwork, hturn, State.runTasks_go _ _ _ _ _ (hdo.trans hs)]
    rfl
  · exact absurd hroom hf

theorem AlarmLog.ready_iff (l : AlarmLog) : l.ready = true ↔ l.loaded = true ∧ l.writing = none := by
  simp [AlarmLog.ready]

/-- The oldest entry is taken for writing while the log has room and nothing was dropped. -/
theorem exec_logWrite {a : AlarmEntry} {rest : List AlarmEntry} (hi : s.log.intake = a :: rest) (hr : s.log.ready = true)
    (hroom : s.log.unconsumed < s.map.s) (hd : s.log.dropped = 0) : exec .logWrite s = .next
      (State.ask { s with log := { s.log with intake := rest, writing := some a } } .alarm .logEntry) := by
  have he : exec .logWrite s = .next (doLogWrite s) := rfl
  rw [he, doLogWrite, hi]
  simp [hr, hroom, hd]

/-- With the log full the oldest entry is dropped and counted. -/
theorem exec_logDrop {a : AlarmEntry} {rest : List AlarmEntry} (hi : s.log.intake = a :: rest) (hr : s.log.ready = true)
    (hfull : s.map.s ≤ s.log.unconsumed) : exec .logDrop s = .next { s with
      log := { s.log with intake := rest, dropped := min 65535 (s.log.dropped + 1) } } := by
  have he : exec .logDrop s = .next (doLogDrop s) := rfl
  rw [he, doLogDrop, hi]
  simp [hr, hfull, satAdd]

/-- With room again the count of the dropped entries is written first. -/
theorem exec_logOverflowed (hr : s.log.ready = true) (hd : 0 < s.log.dropped) (hroom : s.log.unconsumed < s.map.s) :
    exec .logOverflowed s = .next (State.ask { s with log := { s.log with
      dropped := 0, writing := some (AlarmEntry.mk .logOverflowed .major .none s.time.minute (word s.log.dropped)) } }
      .alarm .logEntry) := by
  have he : exec .logOverflowed s = .next (doLogOverflowed s) := rfl
  rw [he, doLogOverflowed]
  simp only [hr, hd, hroom, decide_true, Bool.and_self, if_true]
  rfl

end

/-! ### An entry written (R108, R112–R114) -/

/-- The log when the burst of an entry has ended. -/
def AlarmLog.entered (l : AlarmLog) (size : Nat) (a : AlarmEntry) : AlarmLog :=
  { l with
    writing := none, producer := (l.producer + 1) % 65536, slot := if l.slot + 1 = size then 0 else l.slot + 1
    critical := l.critical ++ (if a.sev = .critical then [(l.producer, a.minute)] else []) }

section
variable {s : State} {a : AlarmEntry} {n : Nat} {ws : List Word}

/-- The state when the burst of an entry has ended, before the anchor's is asked for. -/
def State.entered (s : State) (n : Nat) (ws : List Word) (a : AlarmEntry) : State :=
  State.evalLog { s.endBurst n ws with log := s.log.entered s.map.s a }

theorem State.logWritten_eq (h : s.log.writing = some a) :
    s.logWritten = (State.evalLog { s with log := s.log.entered s.map.s a }).ask .alarm .logAnchor := by
  rw [State.logWritten, h, AlarmLog.entered]
  by_cases hc : a.sev = .critical
  · simp only [hc, if_true]
  · simp only [hc, if_false, List.append_nil]

theorem exec_logEntryWritten (hq : s.quiet) (hw : s.log.writing = some a)
    (hp : s.path.port = .burst .alarm .logEntry n ws false) :
    exec .logEntryWritten s = .next ((s.entered n ws a).ask .alarm .logAnchor) := by
  have he : exec .logEntryWritten s = .next (doLogEntryWritten s) := rfl
  have hend : (s.endBurst n ws).burstEnded .logEntry = (s.entered n ws a).ask .alarm .logAnchor :=
    State.logWritten_eq (s := s.endBurst n ws) hw
  have hstill : ((s.endBurst n ws).burstEnded .logEntry).quiet := by
    rw [hend, State.ask_eq]
    exact State.quiet_congr hq rfl rfl rfl rfl rfl rfl rfl rfl
  rw [he, doLogEntryWritten, hp]
  exact congrArg _ ((State.completeBurst_quiet hp (by simp) hstill).trans hend)

end

/-! ### The bursts of the log at their grant (R108, R177) -/

theorem AlarmKind.code_lt (k : AlarmKind) : k.code < 2 ^ 8 := by cases k <;> decide

theorem Severity.code_lt (sv : Severity) : sv.code < 2 ^ 2 := by cases sv <;> decide

theorem Subject.typeCode_lt (sj : Subject) : sj.typeCode < 2 ^ 3 := by
  cases sj <;> simp [Subject.typeCode]

/-- The fields of an entry's first word. -/
theorem AlarmEntry.head_fields (a : AlarmEntry) {idx : Nat} (h : idx < 65536) :
    let w := word (a.kind.code + 2 ^ 8 * a.sev.code + 2 ^ 12 * a.subject.typeCode + 2 ^ 16 * idx)
    bits w 0 8 = a.kind.code ∧ bits w 8 2 = a.sev.code ∧ bits w 12 3 = a.subject.typeCode ∧ bits w 16 16 = idx := by
  have hk := a.kind.code_lt
  have hsv := a.sev.code_lt
  have hsj := a.subject.typeCode_lt
  simp only [bits, word, BitVec.toNat_ofNat, Nat.shiftRight_eq_div_pow]
  omega

section
variable {s : State}

/-- The oldest burst that the log has asked for is granted with the words as they stand. -/
theorem exec_memoryPortGrant_alarm {b : Burst} {rest : List Burst} (hp : s.path.port = .free) (hc : s.path.cycle = none)
    (hr : s.nextRequester = some .alarm) (ht : ∀ q, s.readTurn .alarm ≠ some (0, q))
    (hl : s.path.line .alarm = b :: rest) : exec .memoryPortGrant s = .next (s.grantBurst .alarm b rest) := by
  have he : exec .memoryPortGrant s = .next s.grant := rfl
  rw [he, State.grant, if_pos hp, hc, hr]
  exact congrArg _ (State.grantPart_burst s .alarm b rest hl ht)

theorem State.burstWords_logEntry {a : AlarmEntry} (h : s.log.writing = some a) :
    s.burstWords .logEntry = (s.map.log + 4 * s.log.slot, a.words s.log.producer) := by
  simp [State.burstWords, h]

end

/-! ### The consumer (R109) -/

section
variable {l : AlarmLog} {v : Nat}

theorem AlarmLog.takeConsumer_accepted (h : (v + 65536 - l.consumer) % 65536 ≤ l.unconsumed) :
    l.takeConsumer v = { l with
      consumer := v, result := .accepted
      critical := l.critical.filter fun x =>
        decide ((v + 65536 - l.consumer) % 65536 ≤ (x.1 + 65536 - l.consumer) % 65536) } := if_pos h

theorem AlarmLog.takeConsumer_refused (h : l.unconsumed < (v + 65536 - l.consumer) % 65536) :
    l.takeConsumer v = { l with result := .indexRange } := if_neg (Nat.not_le.2 h)

end

section
variable {s : State} {w : Word} (h : s.first .logConsumer w)
include h

theorem exec_logConsumer_idle (hp : s.run.part = .idle) :
    exec (.logConsumer w) s = .next { s.popped with log := { s.log with result := .notRunning } } := by
  have he : exec (.logConsumer w) s = .next (doLogConsumer w s) := rfl
  rw [he, doLogConsumer, State.arrive_spec _ _ _ _ h]
  exact congrArg _ (if_pos hp)

theorem exec_logConsumer_waits (hp : s.run.part ≠ .idle) (hl : s.log.loaded = false) :
    exec (.logConsumer w) s = .next { s.popped with log := { s.log with waiting := s.log.waiting ++ [bits w 0 16] } } := by
  have he : exec (.logConsumer w) s = .next (doLogConsumer w s) := rfl
  rw [he, doLogConsumer, State.arrive_spec _ _ _ _ h]
  exact congrArg _ ((if_neg hp).trans (if_neg (by simp [hl])))

theorem exec_logConsumer_loaded (hp : s.run.part ≠ .idle) (hl : s.log.loaded = true) :
    exec (.logConsumer w) s = .next (State.evalLog { s.popped with log := s.log.takeConsumer (bits w 0 16) }) := by
  have he : exec (.logConsumer w) s = .next (doLogConsumer w s) := rfl
  rw [he, doLogConsumer, State.arrive_spec _ _ _ _ h]
  exact congrArg _ ((if_neg hp).trans (if_pos hl))

end

end Sys2Proof.Machine
end

section
/-! The alarm log (O51): the minute events and time sets that its lines follow, and the whole. -/

open Sys2Proof

namespace Sys2Proof.Machine

/-! ### What leaves the attention line as it is -/

section
variable {s : State}

/-- A hand-off does not evaluate the attention line. -/
theorem State.doTask_attention {t : Task} (h : t.HandOff) : (s.doTask t).1.log.attention = s.log.attention := by
  cases h with
  | orderReport r =>
    by_cases hr : s.order.reports.length < Config.orderReportDepth
    · rw [State.doTask_orderReport r hr]
      rfl
    · rw [show s.doTask (.orderReport r) = (s, some (.orderReport r)) from if_neg hr]
  | corrReport r =>
    by_cases hr : s.corr.reports.length < Config.corrReportDepth
    · rw [State.doTask_corrReport r hr]
      rfl
    · rw [show s.doTask (.corrReport r) = (s, some (.corrReport r)) from if_neg hr]
  | alarm kind sev subject value =>
    rw [show s.doTask (.alarm kind sev subject value none) = s.submit kind sev subject value none from rfl]
    rcases s.submit_spec kind sev subject value none with ⟨-, hs⟩ | ⟨-, -, hs⟩ | ⟨-, -, hs⟩ <;> rw [hs]
  | burst r b => exact congrArg AlarmLog.attention (s.ask_log r b)

@[simp] theorem State.setWork_log (b : Blk) (ts : List Task) : (s.setWork b ts).log = s.log := by cases b <;> rfl

theorem State.runTasks_attention (b : Blk) {ts : List Task} (h : ∀ t ∈ ts, t.HandOff) :
    (State.runTasks b ts s).log.attention = s.log.attention := by
  induction ts generalizing s with
  | nil => simp
  | cons t ts ih =>
    have ht : (s.doTask t).1.log.attention = s.log.attention := State.doTask_attention (h t List.mem_cons_self)
    rcases hd : s.doTask t with ⟨s1, _ | w⟩ <;> rw [hd] at ht
    · rw [State.runTasks_go _ _ _ _ _ hd, ih fun u hu => h u (List.mem_cons_of_mem t hu), ht]
    · rw [State.runTasks_wait _ _ _ _ _ _ hd, State.setWork_log, ht]

theorem State.push_attention (b : Blk) {ts : List Task} (h : ∀ t ∈ ts, t.HandOff) :
    (s.push b ts).log.attention = s.log.attention := by
  unfold State.push
  split
  · exact State.runTasks_attention b h
  · rw [State.setWork_log]

/-- The tasks of the schedule check are hand-offs (R42). -/
theorem State.scheduleCheck_handOff (s : State) : ∀ t ∈ s.scheduleCheck.2, t.HandOff := by
  intro t ht
  obtain ⟨k, -, ht⟩ := List.mem_flatMap.1 ht
  rcases List.mem_append.1 ht with ht | ht
  · split at ht
    · rw [List.mem_singleton.1 ht]
      exact .orderReport _
    · exact absurd ht List.not_mem_nil
  · rw [List.mem_singleton.1 ht]
    exact .burst _ _

theorem State.scheduleCheck_log (s : State) : s.scheduleCheck.1.log = s.log := by
  refine (foldl_keeps (·.log) State.noteWord5 (fun _ _ => rfl) _ _).trans ?_
  split <;> rfl

theorem State.runSchedule_attention (s : State) : s.runSchedule.log.attention = s.log.attention := by
  unfold State.runSchedule
  split
  · rw [State.push_attention _ s.scheduleCheck_handOff, State.scheduleCheck_log]
  · rfl

theorem State.epochCheck_attention (s : State) : s.epochCheck.log.attention = s.log.attention := by
  unfold State.epochCheck
  split
  · split
    · rw [State.ask_log]
      rfl
    · refine State.push_attention _ fun t ht => ?_
      rw [List.mem_singleton.1 ht]
      exact .alarm _ _ _ _
  · rfl

theorem State.updateBuyers_log (s : State) : s.updateBuyers.log = s.log := by
  unfold State.updateBuyers
  split
  · exact (State.asks_log _ _ _).trans
      ((foldl_keeps (·.log) State.noteWord5 (fun _ _ => rfl) _ _).trans s.takeBuyers_log)
  · rfl

theorem State.runLoss_log (s : State) : s.runLoss.log = s.log := by
  unfold State.runLoss State.countLoss
  split
  · split
    · rfl
    · refine foldl_keeps (fun s : State => s.log) _ (fun a k => ?_) _ _
      exact State.ask_log _ _ _
  · rfl

theorem State.writeLastAlive_log (s : State) : s.writeLastAlive.log = s.log := by
  unfold State.writeLastAlive
  split
  · exact State.ask_log _ _ _
  · rfl

theorem State.Escalates.writeLastAlive (h : s.Escalates) : s.writeLastAlive.Escalates := by
  unfold State.writeLastAlive
  split
  · exact h.ask _ _
  · exact h

end

/-! ### Minute events and time sets (R114, R115, R161–R163) -/

section
variable {s : State}

/-- A minute event evaluates the escalation and the contact, and leaves the attention line as it is. -/
theorem exec_minuteEvent_escalates (hs : s.time.clockSet = true) (hh : s.time.half = 119)
    (hm : s.time.minute ≠ Config.minuteTop) :
    ∃ t, exec .minuteEvent s = .next t ∧ t.log.attention = s.log.attention ∧ t.Escalates := by
  have he : exec .minuteEvent s = .next (doMinuteEvent s) := rfl
  have hdue : s.minuteDue = true := by simp [State.minuteDue, State.clockHeld, hs, hh, hm]
  rw [he, doMinuteEvent, if_pos hdue]
  refine ⟨_, rfl, ?_, (State.evalEscalation_escalates _).writeLastAlive⟩
  rw [State.writeLastAlive_log, State.evalEscalation_attention, State.runLoss_log, State.updateBuyers_log,
    State.epochCheck_attention, State.runSchedule_attention]

/-- A time set that is accepted does so too. -/
theorem exec_timeSet_escalates {w : Word} (h : s.first .timeSet w) (hp : s.run.part ≠ .starting)
    (hw : s.run.part = .idle ∨ s.time.minute ≤ w.toNat) : ∃ t, exec (.timeSet w) s = .next t ∧ t.Escalates := by
  have he : exec (.timeSet w) s = .next (doTimeSet w s) := rfl
  rw [he, doTimeSet, State.arrive_spec _ _ _ _ h]
  refine ⟨_, rfl, ?_⟩
  rw [State.popped_run, State.popped_time]
  split
  · exact State.evalEscalation_escalates _
  · next hstart => exact absurd hstart hp
  · next hidle _ =>
    rw [if_neg (Nat.not_lt.2 (hw.resolve_left hidle))]
    split
    · exact State.evalEscalation_escalates _
    · exact (State.evalEscalation_escalates _).writeLastAlive

end

/-! ### The statement -/

/-- Settles O51: the intake and the log writer, the bursts of the log, the consumer, and the lines that follow. -/
theorem logEntriesAndConsumer : Obligations.LogEntriesAndConsumer := by
  unfold Obligations.LogEntriesAndConsumer
  refine ⟨fun s => ⟨fun k sv sj v m => exec_submissionTaken, fun a rest hi hl hw => ?_, fun hl hw hd hroom => ?_,
    fun a n ws hq hw hp => ?_, fun hp hc hr ht => ⟨fun a rest hline hw hprod => ?_, fun rest hline => ?_⟩⟩,
    fun w s h => ⟨exec_logConsumer_idle h, exec_logConsumer_waits h, fun hp hl => ⟨fun hin => ?_, fun hout => ?_⟩⟩,
    fun s => ⟨s.attentionDue_iff, s.escalationDue_iff, s.contactDue_iff⟩,
    fun s => ⟨fun a n ws hq hw hp => ?_, fun w h hp hl => ?_, exec_minuteEvent_escalates,
      fun w h hp hw => exec_timeSet_escalates h hp hw⟩⟩
  · have hready := s.log.ready_iff.2 ⟨hl, hw⟩
    refine ⟨fun hroom hd => ⟨_, exec_logWrite hi hready hroom hd, State.ask_log _ _ _, State.ask_line_behind _ _ _ rfl, ?_⟩,
      exec_logDrop hi hready⟩
    exact fun x => by rw [State.ask_mem]
  · refine ⟨_, exec_logOverflowed (s.log.ready_iff.2 ⟨hl, hw⟩) hd hroom, ?_, ?_, ?_, State.ask_line_behind _ _ _ rfl, ?_⟩
    · rw [State.ask_log]
    · rw [State.ask_log]
    · rw [State.ask_log]
    · exact fun x => by rw [State.ask_mem]
  · refine ⟨_, exec_logEntryWritten hq hw hp, State.ask_mem _ _ _, ?_, ?_, ?_, ?_, ?_, State.ask_line_behind _ _ _ rfl,
      State.ask_port _ _ _⟩
    all_goals rw [State.ask_log]; rfl
  · refine ⟨_, _, exec_memoryPortGrant_alarm hp hc hr ht hline, rfl, fun _ => rfl, ?_, a.head_fields hprod⟩
    show PortUse.burst _ _ _ _ _ = _
    rw [State.burstWords_logEntry hw]
    rfl
  · exact ⟨_, exec_memoryPortGrant_alarm hp hc hr ht hline, rfl, rfl⟩
  · refine ⟨_, exec_logConsumer_loaded h hp hl, ?_⟩
    rw [AlarmLog.takeConsumer_accepted hin]
    exact ⟨rfl, rfl, rfl, rfl, rfl, fun _ => rfl⟩
  · refine ⟨_, exec_logConsumer_loaded h hp hl, ?_⟩
    rw [AlarmLog.takeConsumer_refused hout]
    exact ⟨rfl, rfl, rfl, fun _ => rfl⟩
  · exact ⟨_, exec_logEntryWritten hq hw hp, (State.evalLog_follows _).ask _ _⟩
  · exact ⟨_, exec_logConsumer_loaded h hp hl, State.evalLog_follows _⟩

end Sys2Proof.Machine
end

section
/-! Reports to the correlator: the oldest one taken in a part where no block has work, and what it hands on (R98). -/

open Sys2Proof

namespace Sys2Proof.Machine

/-! ### The hand-offs of a report, waiting or not -/

/-- What a task hands to the Billing Unit. -/
def Task.noticePart : Task → List QEntry
  | .notice q => [q]
  | _ => []

/-- What a task submits to the log, at `minute` or at the minute it is stamped with. -/
def Task.submitted (minute : Nat) : Task → List AlarmEntry
  | .alarm kind sev subject value stamp => [AlarmEntry.mk kind sev subject (stamp.getD minute) value]
  | _ => []

/-- The part of the state that hand-offs of the correlator can change, and its work list. -/
def State.correlated (s : State) (p : MemPath) (q : List QEntry) (it : List AlarmEntry) (ws : List Task) : State :=
  { s with
    path := p, bill := { s.bill with queue := q }, log := { s.log with intake := it }, corr := { s.corr with work := ws } }

section
variable {s : State} {t : Task} {ts : List Task}

/-- A hand-off of the correlator lengthens the Notice Queue or the intake, or waits. -/
theorem State.doTask_correlated (h : t.OfRebuild) : ∃ p q it, (s.doTask t).1 = s.correlated p q it s.corr.work ∧
    ∀ w, (s.doTask t).2 = some w → w.OfRebuild := by
  have hself : s = s.correlated s.path s.bill.queue s.log.intake s.corr.work := rfl
  cases h with
  | notice q =>
    by_cases hr : s.bill.queue.length < Config.noticeDepth
    · rw [State.doTask_notice q hr]
      exact ⟨(s.noticed q).path, s.bill.queue ++ [q], s.log.intake, rfl, by simp⟩
    · have hwait : s.doTask (.notice q) = (s, some (.notice q)) := if_neg hr
      rw [hwait]
      exact ⟨_, _, _, hself, fun w hw => Option.some.inj hw ▸ .notice q⟩
  | alarm kind sev subject value stamp =>
    have hdo : s.doTask (.alarm kind sev subject value stamp) = s.submit kind sev subject value stamp := rfl
    rw [hdo]
    rcases s.submit_spec kind sev subject value stamp with ⟨-, hs⟩ | ⟨-, -, hs⟩ | ⟨-, -, hs⟩ <;> rw [hs]
    · exact ⟨_, _, _, hself, by simp⟩
    · exact ⟨s.path, s.bill.queue, _, rfl, by simp⟩
    · exact ⟨_, _, _, hself, fun w hw => Option.some.inj hw ▸ .alarm ..⟩

theorem State.runTasks_correlated (h : ∀ t ∈ ts, t.OfRebuild) : ∃ p q it ws,
    State.runTasks .correlator ts s = s.correlated p q it ws ∧ ∀ t ∈ ws, t.OfRebuild := by
  induction ts generalizing s with
  | nil => exact ⟨s.path, s.bill.queue, s.log.intake, [], rfl, by simp⟩
  | cons t ts ih =>
    have hts : ∀ u ∈ ts, u.OfRebuild := fun u hu => h u (List.mem_cons_of_mem t hu)
    obtain ⟨p, q, it, hstep, hleft⟩ := State.doTask_correlated (s := s) (h t List.mem_cons_self)
    rcases hd : s.doTask t with ⟨s1, _ | w⟩ <;> rw [hd] at hstep hleft <;> dsimp only at hstep <;> subst hstep
    · rw [State.runTasks_go _ _ _ _ _ hd]
      obtain ⟨p', q', it', ws, he, hws⟩ := ih (s := s.correlated p q it s.corr.work) hts
      exact ⟨p', q', it', ws, he, hws⟩
    · rw [State.runTasks_wait _ _ _ _ _ _ hd]
      exact ⟨p, q, it, w :: ts, rfl, List.forall_mem_cons.2 ⟨hleft w rfl, hts⟩⟩

/-- A hand-off that finds room is made. -/
theorem State.doTask_submits (h : t.OfRebuild) (hp : s.run.part ≠ .idle)
    (hq : t.noticePart ≠ [] → s.bill.queue.length + t.noticePart.length ≤ Config.noticeDepth)
    (hl : s.log.intake.length + (t.submitted s.time.minute).length ≤ Config.intakeDepth) :
    ∃ p, s.doTask t = (s.correlated p (s.bill.queue ++ t.noticePart) (s.log.intake ++ t.submitted s.time.minute) s.corr.work,
      none) := by
  cases h with
  | notice q =>
    refine ⟨(s.noticed q).path, (State.doTask_notice q (hq (List.cons_ne_nil _ _))).trans ?_⟩
    simp only [Task.submitted, List.append_nil]
    rfl
  | alarm kind sev subject value stamp =>
    have hdo : s.doTask (.alarm kind sev subject value stamp) = s.submit kind sev subject value stamp := rfl
    rw [hdo]
    rcases s.submit_spec kind sev subject value stamp with ⟨hi, -⟩ | ⟨-, -, hs⟩ | ⟨-, hf, -⟩
    · exact absurd hi hp
    · refine ⟨s.path, hs.trans ?_⟩
      simp only [Task.noticePart, List.append_nil]
      rfl
    · exact absurd hl hf

/-- Hand-offs that all find room leave the correlator without work. -/
theorem State.runTasks_submits (h : ∀ t ∈ ts, t.OfRebuild) (hp : s.run.part ≠ .idle)
    (hq : ts.flatMap Task.noticePart ≠ [] →
      s.bill.queue.length + (ts.flatMap Task.noticePart).length ≤ Config.noticeDepth)
    (hl : s.log.intake.length + (ts.flatMap (Task.submitted s.time.minute)).length ≤ Config.intakeDepth) :
    ∃ p, State.runTasks .correlator ts s = s.correlated p (s.bill.queue ++ ts.flatMap Task.noticePart)
      (s.log.intake ++ ts.flatMap (Task.submitted s.time.minute)) [] := by
  induction ts generalizing s with
  | nil => exact ⟨s.path, by simp [State.correlated, State.setWork]⟩
  | cons t ts ih =>
    rw [List.flatMap_cons, List.length_append] at hq hl
    have hhead : t.noticePart ≠ [] → s.bill.queue.length + t.noticePart.length ≤ Config.noticeDepth := by
      intro hne
      have := hq (List.append_ne_nil_of_left_ne_nil hne _)
      omega
    have htail : ts.flatMap Task.noticePart ≠ [] →
        (s.bill.queue ++ t.noticePart).length + (ts.flatMap Task.noticePart).length ≤ Config.noticeDepth := by
      intro hne
      have := hq (List.append_ne_nil_of_right_ne_nil _ hne)
      rw [List.length_append]
      omega
    have hintake : (s.log.intake ++ t.submitted s.time.minute).length +
        (ts.flatMap (Task.submitted s.time.minute)).length ≤ Config.intakeDepth := by
      rw [List.length_append]
      omega
    obtain ⟨p, hd⟩ := State.doTask_submits (h t List.mem_cons_self) hp hhead (by omega)
    obtain ⟨p', hr⟩ := ih (s := s.correlated p (s.bill.queue ++ t.noticePart) (s.log.intake ++ t.submitted s.time.minute)
      s.corr.work) (fun u hu => h u (List.mem_cons_of_mem t hu)) hp htail hintake
    refine ⟨p', ?_⟩
    rw [State.runTasks_go _ _ _ _ _ hd, hr, List.flatMap_cons, List.flatMap_cons, ← List.append_assoc, ← List.append_assoc]
    rfl

end

/-! ### Notices and log entries of a changed list -/

/-- What a changed list hands to the Billing Unit are notices. -/
def CorrWork.Notes (w : CorrWork) : Prop := ∀ t ∈ w.notices, ∃ q, t = .notice q

theorem CorrWork.tasks_ofRebuild {w : CorrWork} (hn : w.Notes) (hl : w.Logs) : ∀ t ∈ w.tasks, t.OfRebuild := by
  intro t ht
  rcases List.mem_append.1 ht with ht | ht
  · obtain ⟨q, rfl⟩ := hn t ht
    exact .notice q
  · obtain ⟨_, _, _, _, _, rfl⟩ := hl t ht
    constructor

theorem CorrWork.Notes.noticePart {w : CorrWork} (hn : w.Notes) :
    (w.notices.flatMap Task.noticePart).map Task.notice = w.notices := by
  rw [List.map_flatMap]
  refine (List.flatMap_congr (g := fun t => [t]) fun t ht => ?_).trans (List.flatMap_singleton' _)
  obtain ⟨q, rfl⟩ := hn t ht
  rfl

theorem CorrWork.Notes.submitted {w : CorrWork} (hn : w.Notes) (minute : Nat) :
    w.notices.flatMap (Task.submitted minute) = [] := by
  rw [List.flatMap_eq_nil_iff]
  intro t ht
  obtain ⟨q, rfl⟩ := hn t ht
  rfl

theorem CorrWork.Logs.noticePart {w : CorrWork} (hl : w.Logs) : w.alarms.flatMap Task.noticePart = [] := by
  rw [List.flatMap_eq_nil_iff]
  intro t ht
  obtain ⟨_, _, _, _, _, rfl⟩ := hl t ht
  rfl

theorem CorrWork.Logs.length_submitted {w : CorrWork} (hl : w.Logs) (minute : Nat) :
    (w.alarms.flatMap (Task.submitted minute)).length = w.alarms.length := by
  rw [List.length_flatMap, List.map_congr_left (g := fun _ => 1), List.map_const', List.sum_replicate_nat, Nat.mul_one]
  intro t ht
  obtain ⟨_, _, _, _, _, rfl⟩ := hl t ht
  rfl

section
variable (s : State) (kind : NoticeKind) (minute : Nat)

theorem State.mem_tapNotices (e : EntryId) (t : Task) : t ∈ s.tapNotices e kind minute ↔
    ∃ p sub, (s.tapPort e p).claim = some sub ∧ t = .notice (.notice sub kind minute) := by
  simp [State.tapNotices, List.mem_filterMap, eq_comm]

theorem State.mem_rowNotices (row : Row) (t : Task) : t ∈ s.rowNotices row kind minute ↔
    ∃ x ∈ row, ∃ p sub, (s.tapPort x.2 p).claim = some sub ∧ t = .notice (.notice sub kind minute) := by
  simp only [State.rowNotices, List.mem_flatMap, State.mem_tapNotices]

theorem State.tapNotices_notice (e : EntryId) : ∀ t ∈ s.tapNotices e kind minute, ∃ q, t = .notice q := by
  intro t ht
  obtain ⟨_, _, -, rfl⟩ := (s.mem_tapNotices kind minute e t).1 ht
  exact ⟨_, rfl⟩

theorem State.rowNotices_notice (row : Row) : ∀ t ∈ s.rowNotices row kind minute, ∃ q, t = .notice q := by
  intro t ht
  obtain ⟨_, -, _, _, -, rfl⟩ := (s.mem_rowNotices kind minute row t).1 ht
  exact ⟨_, rfl⟩

end

/-! ### The state that a report leaves -/

/-- The report has left the queue. -/
def State.corrTaken (s : State) (rest : List CorrReport) : State := { s with corr := { s.corr with reports := rest } }

/-- The changed list stored, and its hand-offs made as far as there is room. -/
def State.reportDone (s : State) (w : CorrWork) : State := ((s.storeCorr w).push .correlator w.tasks).settle

/-- The hand-offs of a report, all made: notices in the Notice Queue, entries in the intake. -/
def State.Handed (s t : State) (ns : List Task) (as : List AlarmEntry) : Prop :=
  t.bill.queue.map Task.notice = s.bill.queue.map Task.notice ++ ns ∧ t.log.intake = s.log.intake ++ as ∧
    t.dir = s.dir ∧ SameMemory s t

/-- Where no block's work waits for a report queue or a burst, none goes on. -/
theorem State.settle_still {s : State} (h : ∀ b, s.mayGoOn b = false) : s.settle = s := by
  unfold State.settle
  induction allBlocks with
  | nil => rfl
  | cons b bs ih => rw [List.foldl_cons, h b]; exact ih

section
variable {s : State}

theorem State.quiet_withCorr {k : Correlator} (hq : s.quiet) (hk : k.work = []) : ({ s with corr := k } : State).quiet := by
  refine ⟨fun b => ?_, hq.2⟩
  cases b with
  | correlator => exact hk
  | engine f => exact hq.1 (.engine f)
  | orderUnit => exact hq.1 .orderUnit
  | billing => exact hq.1 .billing
  | lineUp => exact hq.1 .lineUp
  | directory => exact hq.1 .directory
  | scanner => exact hq.1 .scanner
  | timeBase => exact hq.1 .timeBase

/-- Hand-offs of the correlator that wait do so for room in the Notice Queue or the intake. -/
theorem State.correlated_still (hq : s.quiet) {p : MemPath} {q : List QEntry} {it : List AlarmEntry} {ws : List Task}
    (hw : ∀ t ∈ ws, t.OfRebuild) : (s.correlated p q it ws).settle = s.correlated p q it ws := by
  refine State.settle_still fun b => ?_
  by_cases hb : b = .correlator
  · subst hb
    have hwork : (s.correlated p q it ws).workOf .correlator = ws := rfl
    rw [State.mayGoOn, hwork]
    cases ws with
    | nil => rfl
    | cons t ts => cases hw t List.mem_cons_self <;> rfl
  · have hwork : (s.correlated p q it ws).workOf b = [] := by
      rw [← hq.1 b]
      cases b with
      | correlator => exact absurd rfl hb
      | _ => rfl
    rw [State.mayGoOn, hwork]

variable {w : CorrWork}

/-- A report that changes nothing of the list. -/
theorem State.reportDone_same (hq : s.quiet) : s.reportDone s.corrWork = s := by
  have hstore : s.storeCorr s.corrWork = s := rfl
  have htasks : s.corrWork.tasks = [] := rfl
  rw [State.reportDone, hstore, htasks, State.push_idle _ _ _ (hq.1 .correlator), State.runTasks_nil,
    State.setWork_nil (hq.1 .correlator), State.settle_quiet _ hq]

/-- What a report leaves, whether or not its hand-offs wait. -/
theorem State.reportDone_leaves (hq : s.quiet) (hn : w.Notes) (hl : w.Logs) :
    (∃ ws, (s.reportDone w).corr =
      { s.corr with outages := w.outages, nextId := w.nextId, listFull := w.full, work := ws }) ∧
      (s.reportDone w).dir = s.dir ∧ SameMemory s (s.reportDone w) := by
  have hq1 : (s.storeCorr w).quiet := State.quiet_withCorr hq (hq.1 .correlator)
  obtain ⟨p, q, it, ws, hrun, hws⟩ := State.runTasks_correlated (s := s.storeCorr w) (CorrWork.tasks_ofRebuild hn hl)
  rw [State.reportDone, State.push_idle _ _ _ (hq1.1 .correlator), hrun, State.correlated_still hq1 hws]
  exact ⟨⟨ws, rfl⟩, rfl, fun _ => rfl⟩

/-- What a report leaves when its hand-offs find room. -/
theorem State.reportDone_hands (hq : s.quiet) (hp : s.run.part ≠ .idle) (hn : w.Notes) (hl : w.Logs)
    (hroom : w.notices ≠ [] → s.bill.queue.length + w.notices.length ≤ Config.noticeDepth)
    (hlog : s.log.intake.length + 2 ≤ Config.intakeDepth) (hfew : w.alarms.length ≤ 2) :
    (s.reportDone w).corr = { s.corr with outages := w.outages, nextId := w.nextId, listFull := w.full } ∧
      s.Handed (s.reportDone w) w.notices (w.alarms.flatMap (Task.submitted s.time.minute)) := by
  have hq1 : (s.storeCorr w).quiet := State.quiet_withCorr hq (hq.1 .correlator)
  have hwork : s.corr.work = [] := hq.1 .correlator
  have hnotices : w.tasks.flatMap Task.noticePart = w.notices.flatMap Task.noticePart := by
    rw [CorrWork.tasks, List.flatMap_append, hl.noticePart, List.append_nil]
  have hentries : w.tasks.flatMap (Task.submitted s.time.minute) = w.alarms.flatMap (Task.submitted s.time.minute) := by
    rw [CorrWork.tasks, List.flatMap_append, hn.submitted, List.nil_append]
  have hlen : (w.notices.flatMap Task.noticePart).length = w.notices.length := by
    rw [← List.length_map (f := Task.notice), hn.noticePart]
  obtain ⟨p, hrun⟩ := State.runTasks_submits (s := s.storeCorr w) (CorrWork.tasks_ofRebuild hn hl) hp
    (fun hne => by
      rw [hnotices, hlen]
      exact hroom fun hnil => hne (by rw [hnotices, hnil]; rfl))
    (by
      rw [State.storeCorr_time, hentries, hl.length_submitted]
      exact (Nat.add_le_add_left hfew _).trans hlog)
  rw [State.storeCorr_time, hnotices, hentries] at hrun
  rw [State.reportDone, State.push_idle _ _ _ (hq1.1 .correlator), hrun, State.correlated_still hq1 (by simp)]
  refine ⟨?_, ?_, rfl, rfl, fun _ => rfl⟩
  · rw [← hwork]
    rfl
  · show (s.bill.queue ++ _).map _ = _
    rw [List.map_append, hn.noticePart]

end

/-! ### The reports (R98) -/

section
variable {s s1 : State} {rest : List CorrReport} {w : CorrWork}

/-- The oldest report is taken. -/
theorem State.takeCorr_eq {g : CorrReport → State → Option (State × CorrWork)} {r : CorrReport} (hq : s.quiet)
    (hr : s.corr.reports = r :: rest) (hg : g r (s.corrTaken rest) = some (s1, w)) : s.takeCorr g = s1.reportDone w := by
  have hwork : s.corr.work.isEmpty = true := List.isEmpty_iff.2 (hq.1 .correlator)
  have hg' : g r { s with corr := { s.corr with reports := rest } } = some (s1, w) := hg
  rw [State.takeCorr, hr]
  simp only [hwork, if_true, hg']
  rfl

theorem State.corrTaken_quiet (hq : s.quiet) : (s.corrTaken rest).quiet := State.quiet_withCorr hq (hq.1 .correlator)

variable {f : Feeder} {e : EntryId} {pos minute : Nat}

theorem exec_lostReport {since : Nat} (hq : s.quiet) (hr : s.corr.reports = .lost e f pos since :: rest) :
    exec .lostReport s = .next ((s.corrTaken rest).reportDone ((s.corrTaken rest).corrLost e)) := by
  have he : exec .lostReport s = .next (doLostReport s) := rfl
  rw [he, doLostReport, State.takeCorr_eq hq hr rfl]

theorem exec_returnReport (hq : s.quiet) (hr : s.corr.reports = .back e f pos minute :: rest) :
    exec .returnReport s = .next ((s.corrTaken rest).reportDone ((s.corrTaken rest).corrReturn e f pos minute)) := by
  have he : exec .returnReport s = .next (doReturnReport s) := rfl
  rw [he, doReturnReport, State.takeCorr_eq hq hr rfl]

theorem exec_vacateReport {lost : Bool} (hq : s.quiet) (hr : s.corr.reports = .vacate e f pos minute lost :: rest) :
    exec .vacateReport s = .next ((s.corrTaken rest).reportDone ((s.corrTaken rest).corrVacate e f pos minute lost)) := by
  have he : exec .vacateReport s = .next (doVacateReport s) := rfl
  rw [he, doVacateReport, State.takeCorr_eq hq hr rfl]

theorem exec_enumerationStartReport (hq : s.quiet) (hr : s.corr.reports = .enumStart f :: rest) :
    exec .enumerationStartReport s = .next { s with
      corr := { s.corr with reports := rest, enumerating := s.corr.enumerating.set f true } } := by
  have he : exec .enumerationStartReport s = .next (doEnumerationStartReport s) := rfl
  rw [he, doEnumerationStartReport, State.takeCorr_eq hq hr rfl]
  exact congrArg _ (State.reportDone_same (State.quiet_withCorr hq (hq.1 .correlator)))

theorem exec_supplyClearReport (hq : s.quiet) (hr : s.corr.reports = .supplyClear f :: rest) :
    exec .supplyClearReport s = .next { s with
      corr := { s.corr with reports := rest, lowSupply := s.corr.lowSupply.set f (s.corr.lowSupply[f] - 1) } } := by
  have he : exec .supplyClearReport s = .next (doSupplyClearReport s) := rfl
  rw [he, doSupplyClearReport, State.takeCorr_eq hq hr rfl]
  exact congrArg _ (State.reportDone_same (State.quiet_withCorr hq (hq.1 .correlator)))

/-- The state in which the runs of a feeder whose enumeration has ended are examined. -/
def State.enumEnded (s : State) (rest : List CorrReport) (f : Feeder) : State := (s.corrTaken rest).setEnumerating f false

/-- The state in which the runs of a feeder are examined whose count of low supplies has gone up. -/
def State.supplyLowed (s : State) (rest : List CorrReport) (f : Feeder) : State :=
  (s.corrTaken rest).setLowSupply f (min 8 (s.corr.lowSupply[f] + 1))

theorem exec_enumerationEndReport (hq : s.quiet) (hr : s.corr.reports = .enumEnd f :: rest) :
    exec .enumerationEndReport s = .next ((s.enumEnded rest f).reportDone
      ((s.enumEnded rest f).fullWalk ((s.enumEnded rest f).examineAll (s.enumEnded rest f).corrWork f))) := by
  have he : exec .enumerationEndReport s = .next (doEnumerationEndReport s) := rfl
  rw [he, doEnumerationEndReport, State.takeCorr_eq hq hr rfl]
  rfl

theorem exec_supplyLowReport (hq : s.quiet) (hr : s.corr.reports = .supplyLow f :: rest) :
    exec .supplyLowReport s = .next ((s.supplyLowed rest f).reportDone (if s.corr.lowSupply[f] = 0 then
      (s.supplyLowed rest f).fullWalk ((s.supplyLowed rest f).examineUndeclared (s.supplyLowed rest f).corrWork f)
      else (s.supplyLowed rest f).corrWork)) := by
  have he : exec .supplyLowReport s = .next (doSupplyLowReport s) := rfl
  rw [he, doSupplyLowReport, State.takeCorr_eq hq hr rfl]
  rfl

end

end Sys2Proof.Machine
end

section
/-! What the examinations and the walk of a freed record make of the Outage List (R96, R97, R99, R102). -/

open Sys2Proof

namespace Sys2Proof.Machine

/-! ### Coverage and runs (R96) -/

theorem Outage.covers_iff (o : Outage) (f : Feeder) (pos : Nat) :
    o.covers f pos = true ↔ o.feeder = f ∧ o.first ≤ pos ∧ pos ≤ o.last := by
  simp [Outage.covers, and_assoc]

section
variable {w : CorrWork} {f : Feeder} {run : Row}

theorem CorrWork.covering_eq_nil :
    w.covering f run = [] ↔ ∀ o ∈ w.outages, ∀ x ∈ run, o.covers f x.1 = false := by
  simp [CorrWork.covering, List.filter_eq_nil_iff]

theorem CorrWork.covering_ne_nil :
    w.covering f run ≠ [] ↔ ∃ o ∈ w.outages, ∃ x ∈ run, o.covers f x.1 = true := by
  simp [CorrWork.covering_eq_nil]

/-- A record with the span of a run covers its first tap. -/
theorem Outage.covers_run {o : Outage} (hf : o.feeder = f) (hfirst : o.first = Row.firstPos run)
    (hlast : o.last = Row.lastPos run) (hne : run ≠ []) (hle : Row.firstPos run ≤ Row.lastPos run) :
    ∃ x ∈ run, o.covers f x.1 = true := by
  obtain ⟨x, hx, heq⟩ := Row.firstPos_mem hne
  refine ⟨x, hx, (o.covers_iff f x.1).2 ⟨hf, ?_, ?_⟩⟩
  · rw [hfirst, heq]
  · rw [hlast, ← heq]
    exact hle

end

section
variable {s : State} {f : Feeder} {run : Row}

/-- The division of a row gathers no empty run. -/
theorem State.runStep_ne_nil (s : State) (l : Row) : ∀ r ∈ (l.foldr s.runStep ([], [])).2, r ≠ [] := by
  induction l with
  | nil => simp
  | cons x l ih =>
    rw [List.foldr_cons, State.runStep]
    split
    · exact ih
    · intro r hr
      rcases mem_closedRuns.1 hr with ⟨rfl, hne⟩ | hr
      · exact hne
      · exact ih r hr

theorem State.ne_nil_of_mem_runs (h : run ∈ s.runs f) : run ≠ [] := by
  rw [State.runs_eq] at h
  rcases mem_closedRuns.1 h with ⟨heq, hne⟩ | h
  · rw [heq]
    exact hne
  · exact s.runStep_ne_nil _ run h

theorem State.mem_runs_of_runAt {pos : Nat} (h : s.runAt f pos = some run) : run ∈ s.runs f := by
  rw [State.runAt] at h
  exact List.mem_of_find?_eq_some h

end

/-! ### Ids, and records put in their place (R97) -/

theorem CorrWork.newId_free {w : CorrWork} (h : ∀ x ∈ w.outages, x.id ≠ w.nextId) : w.newId = w.nextId := by
  have hfree : ¬ (w.outages.map (·.id)).contains w.nextId = true := by
    simpa [List.contains_iff_mem] using h
  rw [CorrWork.newId, freeId, if_neg hfree]

theorem mem_insertOutage {o x : Outage} {os : List Outage} : x ∈ insertOutage o os ↔ x = o ∨ x ∈ os := by
  induction os with
  | nil => simp [insertOutage]
  | cons y ys ih =>
    rw [insertOutage]
    split
    · exact List.mem_cons
    · rw [List.mem_cons, ih, List.mem_cons]
      exact or_left_comm

section
variable {w : CorrWork} {o : Outage} {before after : List Outage}

/-- The record found by its id alone is changed. -/
theorem CorrWork.change_at (g : Outage → Outage) (ho : w.outages = before ++ o :: after)
    (hid : ∀ x ∈ before ++ after, x.id ≠ o.id) : w.change o.id g = { w with outages := before ++ g o :: after } := by
  have hsame : ∀ l : List Outage, (∀ x ∈ l, x.id ≠ o.id) → l.map (fun x => if x.id = o.id then g x else x) = l := by
    intro l hl
    exact (List.map_congr_left fun x hx => if_neg (hl x hx)).trans (List.map_id' l)
  obtain ⟨hb, ha⟩ := List.forall_mem_append.1 hid
  rw [CorrWork.change, ho, List.map_append, List.map_cons, hsame before hb, hsame after ha, if_pos rfl]

/-- It is removed. -/
theorem CorrWork.remove_at (ho : w.outages = before ++ o :: after) (hid : ∀ x ∈ before ++ after, x.id ≠ o.id) :
    w.remove o.id = { w with outages := before ++ after, removed := true } := by
  have hsame : ∀ l : List Outage, (∀ x ∈ l, x.id ≠ o.id) → l.filter (fun x => x.id != o.id) = l :=
    fun l hl => List.filter_eq_self.2 fun x hx => by simpa using hl x hx
  obtain ⟨hb, ha⟩ := List.forall_mem_append.1 hid
  have hgone : ¬ (o.id != o.id) = true := by simp
  rw [CorrWork.remove, ho, List.filter_append, List.filter_cons, hsame before hb, hsame after ha, if_neg hgone]

end

/-! ### The examination of a run (R99) -/

/-- The record that a run is declared with. -/
def State.record (s : State) (id : Nat) (f : Feeder) (run : Row) : Outage :=
  { id := id, feeder := f, first := Row.firstPos run, last := Row.lastPos run, start := s.startOf s.time.minute run,
    declared := s.time.minute }

/-- OUTAGE OPEN of a run. -/
def openingOf (id : Nat) (f : Feeder) (run : Row) : Task :=
  .alarm .outageOpen .critical (.outage id) (word (f.val + 2 ^ 8 * Row.firstPos run + 2 ^ 16 * Row.lastPos run)) none

/-- The list with a run declared under the next id, its begins and OUTAGE OPEN. -/
def State.declared (s : State) (w : CorrWork) (f : Feeder) (run : Row) : CorrWork :=
  { w with
    outages := insertOutage (s.record w.nextId f run) w.outages, nextId := if w.nextId = 65535 then 1 else w.nextId + 1
    notices := w.notices ++ s.rowNotices run (.outageBegin w.nextId) s.time.minute
    alarms := w.alarms ++ [openingOf w.nextId f run] }

/-- An outage with the span of a run, its start no later than the silence of the taps it gains. -/
def State.stretched (s : State) (o : Outage) (f : Feeder) (run : Row) : Outage :=
  { o with
    first := Row.firstPos run, last := Row.lastPos run
    start := s.earliest (run.filter fun x => !o.covers f x.1) o.start }

section
variable {s : State} {w : CorrWork} {f : Feeder} {run : Row} {o : Outage}

theorem State.declare_eq (hid : ∀ x ∈ w.outages, x.id ≠ w.nextId) :
    s.declare w f run s.now true = s.declared w f run := by
  rw [State.declared, ← CorrWork.newId_free hid]
  cases run <;> rfl

theorem State.examine_declares (hcov : w.covering f run = []) (hthr : s.threshold f ≤ run.length)
    (hroom : w.outages.length < Config.outageDepth) (hid : ∀ x ∈ w.outages, x.id ≠ w.nextId) :
    s.examine s.now true f w run = s.declared w f run := by
  rw [State.examine, hcov]
  exact (if_pos hthr).trans ((if_pos hroom).trans (State.declare_eq hid))

theorem State.examine_full (hcov : w.covering f run = []) (hthr : s.threshold f ≤ run.length)
    (hfull : Config.outageDepth ≤ w.outages.length) : s.examine s.now true f w run = w.noteFull f run := by
  rw [State.examine, hcov]
  exact (if_pos hthr).trans (if_neg (Nat.not_lt.2 hfull))

theorem State.examine_short (hcov : w.covering f run = []) (hthr : run.length < s.threshold f) :
    s.examine s.now true f w run = w := by
  rw [State.examine, hcov]
  exact if_neg (Nat.not_le.2 hthr)

/-- OUTAGE LIST FULL of a run. -/
def fullAlarm (f : Feeder) (run : Row) : Task :=
  .alarm .outageListFull .critical (.place f (Row.firstPos run)) (word run.length) none

theorem CorrWork.noteFull_eq (w : CorrWork) (f : Feeder) (run : Row) :
    w.noteFull f run = { w with full := true, alarms := w.alarms ++ if w.full then [] else [fullAlarm f run] } := by
  cases hf : w.full with
  | false => simp [CorrWork.noteFull, hf, CorrWork.logs, fullAlarm]
  | true =>
    obtain ⟨_, _, full, _, _, _⟩ := w
    subst hf
    simp [CorrWork.noteFull]

/-- The one outage grows over the run. -/
theorem State.examine_grows (ho : w.outages = [o]) (hcov : w.covering f run = [o]) :
    s.examine s.now true f w run = { w with
      outages := [s.stretched o f run]
      notices := w.notices ++ s.rowNotices (run.filter fun x => !o.covers f x.1) (.outageBegin o.id) s.time.minute } := by
  rw [State.examine, hcov]
  simp [State.grow, CorrWork.change, CorrWork.notes, ho, State.stretched, State.now]

/-- Of two outages that a run covers, `keep` takes it and `gone` is merged into it. -/
def State.merged (s : State) (w : CorrWork) (f : Feeder) (run : Row) (keep gone : Outage) : CorrWork :=
  { w with
    outages := [s.stretched keep f run], removed := true
    notices := w.notices ++ s.rowNotices (run.filter fun x => !w.outages.any fun o => o.covers f x.1)
      (.outageBegin keep.id) s.time.minute
    alarms := w.alarms ++ [.alarm .outageMerged .info (.outage gone.id) (word keep.id) none] }

theorem State.examine_merges {a b : Outage} (ho : w.outages = [a, b]) (hcov : w.covering f run = [a, b])
    (hid : a.id < b.id) : s.examine s.now true f w run =
      s.merged w f run (if b.start < a.start then b else a) (if b.start < a.start then a else b) := by
  have hne : a.id ≠ b.id := Nat.ne_of_lt hid
  rw [State.examine, hcov]
  by_cases hlt : b.start < a.start
  · have holder : a.older b = b := if_pos (.inl hlt)
    simp [holder, hlt, hne, hne.symm, State.grow, State.merged, CorrWork.change, CorrWork.remove, CorrWork.logs, CorrWork.notes,
      ho, State.stretched, State.now]
  · have holder : a.older b = a := if_neg (by omega)
    simp [holder, hlt, hne, hne.symm, State.grow, State.merged, CorrWork.change, CorrWork.remove, CorrWork.logs, CorrWork.notes,
      ho, State.stretched, State.now]

end

/-! ### Runs examined one after another (R102, R105) -/

theorem foldl_stays {α β : Type} {g : α → β → α} {a : α} {l : List β} (h : ∀ x ∈ l, g a x = a) :
    l.foldl g a = a := by
  induction l with
  | nil => rfl
  | cons x l ih => rw [List.foldl_cons, h x List.mem_cons_self, ih fun y hy => h y (List.mem_cons_of_mem x hy)]

/-- Where one element alone leads on, and nothing leads on from there, a fold leads there. -/
theorem foldl_once {α β : Type} {g : α → β → α} {a c : α} {b : β} {l : List β} (hmem : b ∈ l) (hstep : g a b = c)
    (hother : ∀ x ∈ l, x ≠ b → g a x = a) (hstays : ∀ x ∈ l, g c x = c) : l.foldl g a = c := by
  induction l with
  | nil => exact absurd hmem List.not_mem_nil
  | cons x l ih =>
    obtain ⟨-, hstays'⟩ := List.forall_mem_cons.1 hstays
    rw [List.foldl_cons]
    by_cases hx : x = b
    · rw [hx, hstep]
      exact foldl_stays hstays'
    · rw [hother x List.mem_cons_self hx]
      exact ih ((List.mem_cons.1 hmem).resolve_left (Ne.symm hx)) (fun y hy => hother y (List.mem_cons_of_mem x hy)) hstays'

section
variable {s : State} {w : CorrWork} {f : Feeder} {run : Row}

theorem State.fullWalk_kept (h : w.removed = false) : s.fullWalk w = w := by
  rw [State.fullWalk, h]
  exact if_neg (by simp)

/-- A covered run is passed over. -/
theorem State.examineUndeclared_stays (h : ∀ r ∈ s.runs f, w.covering f r ≠ []) : s.examineUndeclared w f = w := by
  unfold State.examineUndeclared
  split
  · rfl
  · exact foldl_stays fun r hr => if_neg (by simpa using h r hr)

theorem State.runWaits_covered (h : ∀ f, ∀ r ∈ s.runs f, w.covering f r ≠ []) : s.runWaits w = false := by
  simp only [State.runWaits, State.qualifies, List.any_eq_false, Bool.and_eq_true, List.any_eq_true, List.isEmpty_iff]
  rintro f - ⟨-, r, hr, hcov, -⟩
  exact h f r hr hcov

/-- The walk finds every run covered, and clears the list-full flag. -/
theorem State.fullWalk_covered (hr : w.removed = true) (h : ∀ f, ∀ r ∈ s.runs f, w.covering f r ≠ []) :
    s.fullWalk w = { w with full := false } := by
  have hwalk : (List.finRange 8).foldl s.examineUndeclared w = w := foldl_stays fun f _ => State.examineUndeclared_stays (h f)
  rw [State.fullWalk, if_pos hr, hwalk]
  exact if_neg (by rw [State.runWaits_covered h]; simp)

/-- Of the runs of a feeder the one that no outage covers is declared. -/
theorem State.examineUndeclared_declares (henum : s.corr.enumerating[f] = false) (hrun : run ∈ s.runs f)
    (hcov : w.covering f run = []) (hthr : s.threshold f ≤ run.length) (hroom : w.outages.length < Config.outageDepth)
    (hid : ∀ x ∈ w.outages, x.id ≠ w.nextId) (hother : ∀ r ∈ s.runs f, r ≠ run → w.covering f r ≠ [])
    (hafter : ∀ r ∈ s.runs f, (s.declared w f run).covering f r ≠ []) :
    s.examineUndeclared w f = s.declared w f run := by
  rw [State.examineUndeclared, henum]
  refine foldl_once hrun ?_ (fun r hr hne => if_neg (by simpa using hother r hr hne)) fun r hr =>
    if_neg (by simpa using hafter r hr)
  rw [hcov]
  exact State.examine_declares hcov hthr hroom hid

/-- The walk declares the one run that has waited for a record, and clears the list-full flag. -/
theorem State.fullWalk_declares (hr : w.removed = true) (henum : s.corr.enumerating[f] = false) (hrun : run ∈ s.runs f)
    (hle : Row.firstPos run ≤ Row.lastPos run) (hcov : w.covering f run = []) (hthr : s.threshold f ≤ run.length)
    (hroom : w.outages.length < Config.outageDepth) (hid : ∀ x ∈ w.outages, x.id ≠ w.nextId)
    (hother : ∀ g r, r ∈ s.runs g → (g, r) ≠ (f, run) → w.covering g r ≠ []) :
    s.fullWalk w = { s.declared w f run with full := false } := by
  have hafter : ∀ g, ∀ r ∈ s.runs g, (s.declared w f run).covering g r ≠ [] := by
    intro g r hgr
    rw [CorrWork.covering_ne_nil]
    by_cases hsame : (g, r) = (f, run)
    · cases hsame
      exact ⟨_, mem_insertOutage.2 (.inl rfl), Outage.covers_run rfl rfl rfl (State.ne_nil_of_mem_runs hrun) hle⟩
    · obtain ⟨x, hx, hxr⟩ := CorrWork.covering_ne_nil.1 (hother g r hgr hsame)
      exact ⟨x, mem_insertOutage.2 (.inr hx), hxr⟩
  have hwalk : (List.finRange 8).foldl s.examineUndeclared w = s.declared w f run := by
    refine foldl_once (List.mem_finRange f) (State.examineUndeclared_declares henum hrun hcov hthr hroom hid
      (fun r hr hne => hother f r hr (by simpa using hne)) (hafter f)) (fun g _ hne => ?_) fun g _ =>
      State.examineUndeclared_stays (hafter g)
    exact State.examineUndeclared_stays fun r hr => hother g r hr (by simp [hne])
  rw [State.fullWalk, if_pos hr, hwalk]
  exact if_neg (by rw [State.runWaits_covered hafter]; simp)

end

/-! ### A lost report (R100) -/

theorem State.corrLost_eq {s : State} {e : EntryId} {f : Feeder} {pos : Nat} {run : Row} (hst : (s.entry e).state = .lost)
    (hpl : (s.entry e).place = some { feeder := f, pos := pos }) (henum : s.corr.enumerating[f] = false)
    (hrun : s.runAt f pos = some run) : s.corrLost e = s.fullWalk (s.examine s.now true f s.corrWork run) := by
  rw [State.corrLost, hst, hpl]
  simp only [State.examineAt, henum, hrun, Bool.false_eq_true, if_false]

end Sys2Proof.Machine
end

section
/-! Lost reports, and runs examined at the end of an enumeration or at a first low supply (R99, R100, R104, R105). -/

open Sys2Proof

namespace Sys2Proof.Machine

/-! ### Hand-offs as they stand in a changed list -/

theorem CorrWork.Logs.of_nil {w : CorrWork} (h : w.alarms = []) : w.Logs := by
  intro t ht
  rw [h] at ht
  exact absurd ht List.not_mem_nil

theorem CorrWork.Logs.of_single {w : CorrWork} {kind : AlarmKind} {sev : Severity} {subject : Subject} {value : Word}
    (h : w.alarms = [.alarm kind sev subject value none]) : w.Logs := by
  intro t ht
  rw [h] at ht
  exact ⟨_, _, _, _, _, List.mem_singleton.1 ht⟩

/-! ### One run examined -/

/-- The list when a report has had a run examined, with the walk of a record that this has freed. -/
def State.examined (s : State) (f : Feeder) (run : Row) : CorrWork := s.fullWalk (s.examine s.now true f s.corrWork run)

section
variable {s : State} {f : Feeder} {run : Row} {o : Outage}

theorem State.covering_none (s : State) (ho : s.corr.outages = []) (f : Feeder) (run : Row) :
    s.corrWork.covering f run = [] := by
  rw [CorrWork.covering, show s.corrWork.outages = [] from ho]
  rfl

/-- The report of a run that is the first to be declared. -/
theorem State.examined_declares (ho : s.corr.outages = []) (hthr : s.threshold f ≤ run.length) :
    s.examined f run = s.declared s.corrWork f run := by
  have hnone : s.corrWork.outages = [] := ho
  rw [State.examined, State.examine_declares (s.covering_none ho f run) hthr (by rw [hnone]; decide) (by simp [hnone])]
  exact State.fullWalk_kept rfl

theorem State.examined_short (ho : s.corr.outages = []) (hthr : run.length < s.threshold f) :
    s.examined f run = s.corrWork := by
  rw [State.examined, State.examine_short (s.covering_none ho f run) hthr]
  exact State.fullWalk_kept rfl

theorem State.declared_outages (ho : s.corr.outages = []) :
    (s.declared s.corrWork f run).outages = [s.record s.corr.nextId f run] := by
  rw [State.declared, show s.corrWork.outages = [] from ho]
  rfl

/-- What the declaration of a run leaves where none is open, whether or not its hand-offs wait. -/
theorem State.declared_leaves (hq : s.quiet) (ho : s.corr.outages = []) :
    let t := s.reportDone (s.declared s.corrWork f run)
    t.corr.outages = [s.record s.corr.nextId f run] ∧
      t.corr.nextId = (if s.corr.nextId = 65535 then 1 else s.corr.nextId + 1) ∧ t.dir = s.dir ∧ SameMemory s t := by
  obtain ⟨⟨ws, hcorr⟩, hdir, hmem⟩ := State.reportDone_leaves (w := s.declared s.corrWork f run) hq
    (s.rowNotices_notice _ _ run) (.of_single rfl)
  exact ⟨by rw [hcorr]; exact s.declared_outages ho, by rw [hcorr]; rfl, hdir, hmem⟩

/-- What it leaves with its hand-offs made. -/
theorem State.declared_hands {id : Nat} (hq : s.quiet) (hp : s.run.part ≠ .idle)
    (hlog : s.log.intake.length + 2 ≤ Config.intakeDepth) (ho : s.corr.outages = []) (hid : s.corr.nextId = id)
    (hroom : s.bill.queue.length + (s.rowNotices run (.outageBegin id) s.time.minute).length ≤ Config.noticeDepth) :
    let t := s.reportDone (s.declared s.corrWork f run)
    t.corr = { s.corr with
      outages := [s.record id f run], nextId := if id = 65535 then 1 else id + 1 } ∧
      s.Handed t (s.rowNotices run (.outageBegin id) s.time.minute)
        [AlarmEntry.mk .outageOpen .critical (.outage id) s.time.minute
          (word (f.val + 2 ^ 8 * Row.firstPos run + 2 ^ 16 * Row.lastPos run))] := by
  subst hid
  obtain ⟨hcorr, hhand⟩ := State.reportDone_hands (w := s.declared s.corrWork f run) hq hp
    (s.rowNotices_notice _ _ run) (.of_single rfl) (fun _ => hroom) hlog (Nat.le_succ 1)
  rw [s.declared_outages ho] at hcorr
  exact ⟨hcorr, hhand⟩

/-- What the growth of the one outage leaves with its hand-offs made. -/
theorem State.grown_hands (hq : s.quiet) (hp : s.run.part ≠ .idle) (hlog : s.log.intake.length + 2 ≤ Config.intakeDepth)
    (ho : s.corr.outages = [o]) (hcov : s.corrWork.covering f run = [o])
    (hroom : s.bill.queue.length +
      (s.rowNotices (run.filter fun x => !o.covers f x.1) (.outageBegin o.id) s.time.minute).length ≤ Config.noticeDepth) :
    let t := s.reportDone (s.examined f run)
    t.corr = { s.corr with outages := [s.stretched o f run] } ∧
      s.Handed t (s.rowNotices (run.filter fun x => !o.covers f x.1) (.outageBegin o.id) s.time.minute) [] := by
  rw [State.examined, State.examine_grows ho hcov, State.fullWalk_kept rfl]
  exact State.reportDone_hands hq hp (s.rowNotices_notice _ _ _) (.of_nil rfl) (fun _ => hroom) hlog (Nat.zero_le 2)

/-- A run that finds the list full while the flag is set changes nothing (R102). -/
theorem State.full_same (hq : s.quiet) (h16 : 16 ≤ s.corr.outages.length) (hcov : s.corrWork.covering f run = [])
    (hthr : s.threshold f ≤ run.length) (hfull : s.corr.listFull = true) : s.reportDone (s.examined f run) = s := by
  have hnoted : s.corrWork.noteFull f run = s.corrWork := if_pos hfull
  rw [State.examined, State.examine_full hcov hthr h16, hnoted, State.fullWalk_kept rfl, State.reportDone_same hq]

/-- One that finds it full while the flag is clear sets it, with OUTAGE LIST FULL (R102). -/
theorem State.full_hands (hq : s.quiet) (hp : s.run.part ≠ .idle) (hlog : s.log.intake.length + 2 ≤ Config.intakeDepth)
    (h16 : 16 ≤ s.corr.outages.length) (hcov : s.corrWork.covering f run = []) (hthr : s.threshold f ≤ run.length)
    (hfull : s.corr.listFull = false) :
    let t := s.reportDone (s.examined f run)
    t.corr = { s.corr with listFull := true } ∧ s.Handed t []
      [AlarmEntry.mk .outageListFull .critical (.place f (Row.firstPos run)) s.time.minute (word run.length)] := by
  have hclear : s.corrWork.full = false := hfull
  rw [State.examined, State.examine_full hcov hthr h16, CorrWork.noteFull_eq, State.fullWalk_kept rfl, hclear]
  exact State.reportDone_hands hq hp (by simp [CorrWork.Notes, State.corrWork]) (.of_single rfl) (absurd rfl) hlog
    (Nat.le_succ 1)

end

/-! ### Two outages merged (R99) -/

section
variable {s : State} {f : Feeder} {run : Row}

/-- What the merging of the two outages that a run covers leaves, no other run being there. -/
theorem State.merged_hands {a b : Outage} (hq : s.quiet) (hp : s.run.part ≠ .idle)
    (hlog : s.log.intake.length + 2 ≤ Config.intakeDepth) (ho : s.corr.outages = [a, b])
    (hcov : s.corrWork.covering f run = [a, b]) (hid : a.id < b.id) (hruns : s.runs f = [run])
    (hothers : ∀ g, g ≠ f → s.runs g = []) (hle : Row.firstPos run ≤ Row.lastPos run) :
    let keep := if b.start < a.start then b else a
    let gone := if b.start < a.start then a else b
    let joined := s.rowNotices (run.filter fun x => !(a.covers f x.1 || b.covers f x.1)) (.outageBegin keep.id) s.time.minute
    s.bill.queue.length + joined.length ≤ Config.noticeDepth →
      let t := s.reportDone (s.examined f run)
      t.corr = { s.corr with outages := [s.stretched keep f run], listFull := false } ∧
        s.Handed t joined [AlarmEntry.mk .outageMerged .info (.outage gone.id) s.time.minute (word keep.id)] := by
  intro keep gone joined hroom
  have hlist : s.corrWork.outages = [a, b] := ho
  have hjoined : s.rowNotices (run.filter fun x => !s.corrWork.outages.any fun o => o.covers f x.1)
      (.outageBegin keep.id) s.time.minute = joined := by
    simp [hlist, joined]
  have hrun : run ∈ s.runs f := by rw [hruns]; exact List.mem_singleton_self run
  have hkeep : keep.feeder = f := by
    have hin : keep ∈ s.corrWork.covering f run := by
      rw [hcov]
      show (if b.start < a.start then b else a) ∈ [a, b]
      split <;> simp
    obtain ⟨x, -, hx⟩ := List.any_eq_true.1 (List.mem_filter.1 hin).2
    exact ((keep.covers_iff f x.1).1 hx).1
  have hcovered : ∀ g, ∀ r ∈ s.runs g, (s.merged s.corrWork f run keep gone).covering g r ≠ [] := by
    intro g r hr
    by_cases hg : g = f
    · subst hg
      rw [hruns] at hr
      rw [List.mem_singleton.1 hr, CorrWork.covering_ne_nil]
      exact ⟨_, List.mem_singleton_self _, Outage.covers_run hkeep rfl rfl (State.ne_nil_of_mem_runs hrun) hle⟩
    · rw [hothers g hg] at hr
      exact absurd hr List.not_mem_nil
  have hnotices : (s.merged s.corrWork f run keep gone).notices = joined := hjoined
  rw [State.examined, State.examine_merges hlist hcov hid, State.fullWalk_covered rfl hcovered]
  obtain ⟨hcorr, hhand⟩ := State.reportDone_hands (w := { s.merged s.corrWork f run keep gone with full := false }) hq hp
    (s.rowNotices_notice _ _ _) (.of_single rfl) (fun _ => by rw [hnotices]; exact hroom) hlog (Nat.le_succ 1)
  rw [hnotices] at hhand
  exact ⟨hcorr, hhand⟩

end

/-! ### The end of an enumeration, and a first low supply (R104, R105) -/

section
variable {s : State} {f : Feeder} {run : Row} {w : CorrWork} {rest : List CorrReport}

theorem State.examineAll_nil (h : s.runs f = []) : s.examineAll w f = w := by
  rw [State.examineAll, h]
  exact ite_self w

theorem State.examineUndeclared_nil (h : s.runs f = []) : s.examineUndeclared w f = w := by
  rw [State.examineUndeclared, h]
  exact ite_self w

theorem State.examineAll_single (henum : s.corr.enumerating[f] = false) (h : s.runs f = [run]) :
    s.examineAll w f = s.examine s.now true f w run := by
  rw [State.examineAll, henum, h]
  rfl

theorem State.examineUndeclared_single (henum : s.corr.enumerating[f] = false) (h : s.runs f = [run]) :
    s.examineUndeclared w f = if (w.covering f run).isEmpty then s.examine s.now true f w run else w := by
  rw [State.examineUndeclared, henum, h]
  rfl

theorem State.enumEnded_enumerating : (s.enumEnded rest f).corr.enumerating[f] = false := Vector.getElem_set_self ..

theorem State.threshold_normal (h : s.corr.lowSupply[f] = 0) : s.threshold f = s.cfg.nmin := if_neg (by rw [h]; decide)

theorem State.threshold_low (h : 0 < s.corr.lowSupply[f]) : s.threshold f = 1 := if_pos h

theorem State.supplyLowed_threshold : (s.supplyLowed rest f).threshold f = 1 := by
  refine State.threshold_low ?_
  have hcount : (s.supplyLowed rest f).corr.lowSupply[f] = min 8 (s.corr.lowSupply[f] + 1) := Vector.getElem_set_self ..
  rw [hcount]
  omega

theorem exec_enumerationEndReport_nil (hq : s.quiet) (hr : s.corr.reports = .enumEnd f :: rest) (hruns : s.runs f = []) :
    exec .enumerationEndReport s = .next (s.enumEnded rest f) := by
  have hnil : (s.enumEnded rest f).runs f = [] := hruns
  rw [exec_enumerationEndReport hq hr, State.examineAll_nil hnil, State.fullWalk_kept rfl]
  exact congrArg _ (State.reportDone_same (State.quiet_withCorr hq (hq.1 .correlator)))

theorem exec_supplyLowReport_nil (hq : s.quiet) (hr : s.corr.reports = .supplyLow f :: rest)
    (h : s.corr.lowSupply[f] ≠ 0 ∨ s.runs f = []) : exec .supplyLowReport s = .next (s.supplyLowed rest f) := by
  have hsame : (s.supplyLowed rest f).reportDone (s.supplyLowed rest f).corrWork = s.supplyLowed rest f :=
    State.reportDone_same (State.quiet_withCorr hq (hq.1 .correlator))
  rw [exec_supplyLowReport hq hr]
  rcases h with h | hruns
  · rw [if_neg h, hsame]
  · have hnil : (s.supplyLowed rest f).runs f = [] := hruns
    rw [State.examineUndeclared_nil hnil, State.fullWalk_kept rfl, ite_self, hsame]

end

/-- The reports that have every run of a feeder examined, at `least` taps, with the correlator's counts and marks `v`: of a first
low supply the runs that no outage covers, of the end of an enumeration all. -/
def State.Examines (s : State) (c : Instr) (f : Feeder) (rest : List CorrReport) (least : Nat) (v : Correlator) : Prop :=
  c = .supplyLowReport ∧ s.corr.reports = .supplyLow f :: rest ∧ s.corr.lowSupply[f] = 0 ∧ least = 1 ∧
      s.corr.enumerating[f] = false ∧ v = { (s.corrTaken rest).corr with lowSupply := s.corr.lowSupply.set f 1 } ∨
    c = .enumerationEndReport ∧ s.corr.reports = .enumEnd f :: rest ∧ least = s.threshold f ∧
      v = { (s.corrTaken rest).corr with enumerating := s.corr.enumerating.set f false }

section
variable {s : State} {f : Feeder} {run : Row} {rest : List CorrReport} {c : Instr} {v : Correlator} {least : Nat}

theorem State.Examines.counts (h : s.Examines c f rest least v) : v.outages = s.corr.outages ∧ v.nextId = s.corr.nextId ∧
    v.work = s.corr.work ∧ ({ s with corr := v } : State).threshold f = least := by
  rcases h with ⟨-, -, h0, rfl, -, rfl⟩ | ⟨-, -, rfl, rfl⟩
  · exact ⟨rfl, rfl, rfl, State.threshold_low (by simp)⟩
  · exact ⟨rfl, rfl, rfl, rfl⟩

theorem State.supplyLowed_first (h0 : s.corr.lowSupply[f] = 0) : s.supplyLowed rest f =
    { s with corr := { (s.corrTaken rest).corr with lowSupply := s.corr.lowSupply.set f 1 } } := by
  rw [State.supplyLowed, h0]
  rfl

/-- A first low supply has the one run of the feeder examined if no outage covers it. -/
theorem exec_supplyLowReport_single (hq : s.quiet) (hr : s.corr.reports = .supplyLow f :: rest)
    (h0 : s.corr.lowSupply[f] = 0) (henum : s.corr.enumerating[f] = false) (hruns : s.runs f = [run]) :
    exec .supplyLowReport s = .next ((s.supplyLowed rest f).reportDone ((s.supplyLowed rest f).fullWalk
      (if (s.corrWork.covering f run).isEmpty then
        (s.supplyLowed rest f).examine s.now true f (s.supplyLowed rest f).corrWork run
      else (s.supplyLowed rest f).corrWork))) := by
  rw [exec_supplyLowReport hq hr, if_pos h0, State.examineUndeclared_single (s := s.supplyLowed rest f) henum hruns]
  rfl

/-- The one run of the feeder is examined. -/
theorem State.Examines.exec_eq (hq : s.quiet) (hruns : s.runs f = [run]) (h : s.Examines c f rest least v)
    (hcov : c = .supplyLowReport → s.corrWork.covering f run = []) :
    exec c s = .next (State.reportDone { s with corr := v } (State.examined { s with corr := v } f run)) := by
  rcases h with ⟨rfl, hr, h0, -, henum, rfl⟩ | ⟨rfl, hr, -, rfl⟩
  · rw [exec_supplyLowReport_single hq hr h0 henum hruns, hcov rfl, State.supplyLowed_first h0]
    rfl
  · rw [exec_enumerationEndReport hq hr,
      State.examineAll_single (s := s.enumEnded rest f) State.enumEnded_enumerating hruns]
    rfl

/-- A covered run is left alone at a first low supply. -/
theorem State.Examines.exec_covered (hq : s.quiet) (hruns : s.runs f = [run]) (h : s.Examines c f rest least v)
    (hc : c = .supplyLowReport) (hcov : s.corrWork.covering f run ≠ []) : exec c s = .next { s with corr := v } := by
  rcases h with ⟨-, hr, h0, -, henum, rfl⟩ | ⟨he, -⟩
  · rw [hc, exec_supplyLowReport_single hq hr h0 henum hruns, if_neg (by simpa using hcov), State.fullWalk_kept rfl,
      ← State.supplyLowed_first h0]
    exact congrArg _ (State.reportDone_same (State.quiet_withCorr hq (hq.1 .correlator)))
  · exact absurd (hc.symm.trans he) (by simp)

end

end Sys2Proof.Machine
end


section
/-! Covered taps that return or are vacated (R101, R103): what is left of their outage. -/

open Sys2Proof

namespace Sys2Proof.Machine

/-! ### The outage of a tap -/

/-- The report of a tap that has returned, or has been vacated. -/
def State.Leaving (s : State) (c : Instr) (e : EntryId) (f : Feeder) (pos minute : Nat) (rest : List CorrReport) : Prop :=
  c = .returnReport ∧ s.corr.reports = .back e f pos minute :: rest ∧ (s.entry e).state ≠ .lost ∧
      (s.entry e).place = some { feeder := f, pos := pos } ∨
    ∃ lost, c = .vacateReport ∧ s.corr.reports = .vacate e f pos minute lost :: rest

/-- The list with OUTAGE END for a tap's claims. -/
def State.tapEnded (s : State) (e : EntryId) (o : Outage) (minute : Nat) : CorrWork :=
  s.corrWork.notes (s.tapNotices e (.outageEnd o.id) minute)

section
variable {s : State} {w : CorrWork} {o : Outage} {before after : List Outage} {f : Feeder} {pos minute : Nat}

theorem CorrWork.outageAt_eq (ho : w.outages = before ++ o :: after) (hb : ∀ x ∈ before, x.covers f pos = false)
    (hc : o.covers f pos = true) : w.outageAt f pos = some o := by
  have hnone : before.find? (fun x => x.covers f pos) = none :=
    List.find?_eq_none.2 fun x hx => by rw [hb x hx]; exact Bool.false_ne_true
  rw [CorrWork.outageAt, ho, List.find?_append, hnone, List.find?_cons_of_pos (p := fun x : Outage => x.covers f pos) hc]
  rfl

/-- The only outage covers the tap. -/
theorem CorrWork.outageAt_only (ho : w.outages = [o]) (hc : o.covers f pos = true) : w.outageAt f pos = some o :=
  CorrWork.outageAt_eq (before := []) (after := []) ho (by simp) hc

theorem spanWord_of_le {later earlier : Nat} (h : earlier ≤ later) : spanWord later earlier = word (later - earlier) :=
  if_pos h

theorem CorrWork.closeOutage_at (ho : w.outages = before ++ o :: after) (hid : ∀ x ∈ before ++ after, x.id ≠ o.id) :
    w.closeOutage o minute = { w with
      outages := before ++ after, removed := true
      alarms := w.alarms ++ [.alarm .outageClosed .info (.outage o.id) (spanWord minute o.start) none] } := by
  rw [CorrWork.closeOutage, CorrWork.remove_at ho hid]
  rfl

/-- The record of the upper part of an outage that is split. -/
def State.upperPart (s : State) (id : Nat) (o : Outage) (above : Row) : Outage :=
  { id := id, feeder := o.feeder, first := Row.firstPos above, last := o.last, start := o.start, declared := s.time.minute }

/-- The only outage is split under the next id (R101). -/
theorem State.splitOutage_splits (ho : w.outages = [o]) (hid : o.id < w.nextId) (below above : Row) :
    s.splitOutage w o below above minute = { w with
      outages := [{ o with last := Row.lastPos below }, s.upperPart w.nextId o above]
      nextId := if w.nextId = 65535 then 1 else w.nextId + 1
      alarms := w.alarms ++ [.alarm .outageSplit .info (.outage o.id) (word w.nextId) none] } := by
  have hchange := CorrWork.change_at (w := w) (before := []) (after := []) (fun o => { o with last := Row.lastPos below }) ho
    (by simp)
  have hfresh : CorrWork.newId { w with outages := [{ o with last := Row.lastPos below }] } = w.nextId :=
    CorrWork.newId_fresh (by simpa using hid)
  have hlast : insertOutage (s.upperPart w.nextId o above) [{ o with last := Row.lastPos below }] =
      [{ o with last := Row.lastPos below }, s.upperPart w.nextId o above] :=
    insertOutage_last (by simpa [State.upperPart] using hid)
  rw [State.splitOutage, hchange]
  refine (if_pos (show 1 < Config.outageDepth by decide)).trans ?_
  rw [List.nil_append, CorrWork.add, hfresh, ← hlast]
  rfl

/-- With 16 outages open the upper part is given up (R102). -/
theorem State.splitOutage_full (ho : w.outages = before ++ o :: after) (hid : ∀ x ∈ before ++ after, x.id ≠ o.id)
    (h16 : w.outages.length = 16) (below above : Row) :
    s.splitOutage w o below above minute = { w with
      outages := before ++ { o with last := Row.lastPos below } :: after, full := true
      notices := w.notices ++ s.rowNotices above (.outageEnd o.id) minute
      alarms := w.alarms ++ if w.full then [] else [fullAlarm o.feeder above] } := by
  have hfull : ¬ (before ++ { o with last := Row.lastPos below } :: after).length < Config.outageDepth := by
    rw [ho] at h16
    simp only [List.length_append, List.length_cons] at h16 ⊢
    rw [h16]
    decide
  rw [State.splitOutage, CorrWork.change_at _ ho hid]
  exact (if_neg hfull).trans (CorrWork.noteFull_eq ..)

end

/-! ### The report taken -/

section
variable {s : State} {c : Instr} {e : EntryId} {f : Feeder} {pos minute : Nat} {rest : List CorrReport} {o : Outage}

/-- The report of a covered tap, by what is left of its outage's run below and above it. -/
theorem State.Leaving.exec_eq (hq : s.quiet) (h : s.Leaving c e f pos minute rest)
    (hat : s.corrWork.outageAt f pos = some o) : ∃ v, exec c s = .next ((s.corrTaken rest).reportDone v) ∧
      ((s.corrTaken rest).partsOf o pos = ([], []) →
        v = (s.corrTaken rest).fullWalk (((s.corrTaken rest).tapEnded e o minute).closeOutage o minute)) ∧
      (∀ x xs, (s.corrTaken rest).partsOf o pos = ([], x :: xs) →
        v = ((s.corrTaken rest).tapEnded e o minute).change o.id fun o => { o with first := x.1 }) ∧
      (∀ x xs, (s.corrTaken rest).partsOf o pos = (x :: xs, []) →
        v = ((s.corrTaken rest).tapEnded e o minute).change o.id fun o => { o with last := Row.lastPos (x :: xs) }) ∧
      (∀ x xs y ys, (s.corrTaken rest).partsOf o pos = (x :: xs, y :: ys) →
        (c = .vacateReport → v = (s.corrTaken rest).tapEnded e o minute) ∧
        (c = .returnReport → v = (s.corrTaken rest).splitOutage ((s.corrTaken rest).tapEnded e o minute) o (x :: xs) (y :: ys)
          minute)) := by
  have hat' : (s.corrTaken rest).corrWork.outageAt f pos = some o := hat
  rcases h with ⟨rfl, hr, hst, hpl⟩ | ⟨lost, rfl, hr⟩
  · have hhere : ¬ (((s.corrTaken rest).entry e).state = .lost ∨
        ((s.corrTaken rest).entry e).place ≠ some { feeder := f, pos := pos }) := fun h => h.elim hst fun h => h hpl
    refine ⟨_, exec_returnReport hq hr, fun hp => ?_, fun x xs hp => ?_, fun x xs hp => ?_, fun x xs y ys hp =>
      ⟨by simp, fun _ => ?_⟩⟩
    all_goals
      rw [State.corrReturn, if_neg hhere]
      simp only [hat', hp]
      rfl
  · refine ⟨_, exec_vacateReport hq hr, fun hp => ?_, fun x xs hp => ?_, fun x xs hp => ?_, fun x xs y ys hp =>
      ⟨fun _ => ?_, by simp⟩⟩
    all_goals
      rw [State.corrVacate]
      simp only [hat', hp]
      rfl

end

/-! ### What the report leaves -/

section
variable {s : State} {e : EntryId} {minute : Nat} {o : Outage} {before after : List Outage}

/-- The list when the last tap of the only outage has left, and no run waits. -/
theorem State.tapEnded_closes (ho : s.corr.outages = [o]) (hruns : ∀ g, s.runs g = []) :
    s.fullWalk ((s.tapEnded e o minute).closeOutage o minute) = { s.tapEnded e o minute with
      outages := [], removed := true, full := false
      alarms := [.alarm .outageClosed .info (.outage o.id) (spanWord minute o.start) none] } := by
  rw [CorrWork.closeOutage_at (before := []) (after := []) ho (by simp),
    State.fullWalk_covered rfl fun g r hr => absurd (hruns g ▸ hr) List.not_mem_nil]
  rfl

theorem State.tapEnded_changes (g : Outage → Outage) (ho : s.corr.outages = [o]) :
    (s.tapEnded e o minute).change o.id g = { s.tapEnded e o minute with outages := [g o] } :=
  CorrWork.change_at (before := []) (after := []) g ho (by simp)

theorem State.closed_leaves (hq : s.quiet) (ho : s.corr.outages = [o]) (hruns : ∀ g, s.runs g = []) :
    let t := s.reportDone (s.fullWalk ((s.tapEnded e o minute).closeOutage o minute))
    t.corr.outages = [] ∧ t.corr.listFull = false ∧ t.corr.nextId = s.corr.nextId ∧ t.dir = s.dir ∧ SameMemory s t := by
  rw [State.tapEnded_closes ho hruns]
  obtain ⟨⟨ws, hcorr⟩, hdir, hmem⟩ := State.reportDone_leaves (w := { s.tapEnded e o minute with
    outages := [], removed := true, full := false
    alarms := [.alarm .outageClosed .info (.outage o.id) (spanWord minute o.start) none] }) hq
    (s.tapNotices_notice _ _ e) (.of_single rfl)
  exact ⟨by rw [hcorr], by rw [hcorr], by rw [hcorr]; rfl, hdir, hmem⟩

variable (hq : s.quiet) (hp : s.run.part ≠ .idle) (hlog : s.log.intake.length + 2 ≤ Config.intakeDepth)
include hq hp hlog

section
variable (hroom : s.bill.queue.length + (s.tapNotices e (.outageEnd o.id) minute).length ≤ Config.noticeDepth)
include hroom

theorem State.closed_hands (ho : s.corr.outages = [o]) (hruns : ∀ g, s.runs g = []) (hle : o.start ≤ minute) :
    let t := s.reportDone (s.fullWalk ((s.tapEnded e o minute).closeOutage o minute))
    t.corr.outages = [] ∧ s.Handed t (s.tapNotices e (.outageEnd o.id) minute)
      [AlarmEntry.mk .outageClosed .info (.outage o.id) s.time.minute (word (minute - o.start))] := by
  rw [State.tapEnded_closes ho hruns, spanWord_of_le hle]
  obtain ⟨hcorr, hhand⟩ := State.reportDone_hands (w := { s.tapEnded e o minute with
    outages := [], removed := true, full := false
    alarms := [.alarm .outageClosed .info (.outage o.id) (word (minute - o.start)) none] }) hq hp
    (s.tapNotices_notice _ _ e) (.of_single rfl) (fun _ => hroom) hlog (Nat.le_succ 1)
  exact ⟨by rw [hcorr], hhand⟩

/-- A tap at an end of its outage leaves it with the span given. -/
theorem State.shrunk_hands (g : Outage → Outage) (ho : s.corr.outages = [o]) :
    let t := s.reportDone ((s.tapEnded e o minute).change o.id g)
    t.corr.outages = [g o] ∧ s.Handed t (s.tapNotices e (.outageEnd o.id) minute) [] := by
  rw [State.tapEnded_changes g ho]
  obtain ⟨hcorr, hhand⟩ := State.reportDone_hands (w := { s.tapEnded e o minute with outages := [g o] }) hq hp
    (s.tapNotices_notice _ _ e) (.of_nil rfl) (fun _ => hroom) hlog (Nat.zero_le 2)
  exact ⟨by rw [hcorr], hhand⟩

/-- One between others that is vacated leaves the outage as it is. -/
theorem State.kept_hands : let t := s.reportDone (s.tapEnded e o minute)
    t.corr = s.corr ∧ s.Handed t (s.tapNotices e (.outageEnd o.id) minute) [] :=
  State.reportDone_hands (w := s.tapEnded e o minute) hq hp (s.tapNotices_notice _ _ e) (.of_nil rfl) (fun _ => hroom) hlog
    (Nat.zero_le 2)

theorem State.split_hands (ho : s.corr.outages = [o]) (hid : o.id < s.corr.nextId) (below above : Row) :
    let t := s.reportDone (s.splitOutage (s.tapEnded e o minute) o below above minute)
    t.corr.outages = [{ o with last := Row.lastPos below }, s.upperPart s.corr.nextId o above] ∧
      s.Handed t (s.tapNotices e (.outageEnd o.id) minute)
        [AlarmEntry.mk .outageSplit .info (.outage o.id) s.time.minute (word s.corr.nextId)] := by
  have hsplit := State.splitOutage_splits (s := s) (w := s.tapEnded e o minute) (minute := minute) ho hid below above
  obtain ⟨hcorr, hhand⟩ := State.reportDone_hands (w := s.splitOutage (s.tapEnded e o minute) o below above minute) hq hp
    (by rw [hsplit]; exact s.tapNotices_notice _ _ e) (.of_single (by rw [hsplit]; rfl)) (fun _ => by rw [hsplit]; exact hroom)
    hlog (by rw [hsplit]; exact Nat.le_succ 1)
  rw [hsplit] at hcorr hhand ⊢
  exact ⟨by rw [hcorr]; rfl, hhand⟩

end

/-- A tap that returns between others with 16 outages open. -/
theorem State.givenUp_hands (ho : s.corr.outages = before ++ o :: after) (hid : ∀ x ∈ before ++ after, x.id ≠ o.id)
    (h16 : s.corr.outages.length = 16) (below above : Row)
    (hroom : s.bill.queue.length + (s.tapNotices e (.outageEnd o.id) minute ++
      s.rowNotices above (.outageEnd o.id) minute).length ≤ Config.noticeDepth) :
    let t := s.reportDone (s.splitOutage (s.tapEnded e o minute) o below above minute)
    t.corr = { s.corr with
      outages := before ++ { o with last := Row.lastPos below } :: after, listFull := true } ∧
      s.Handed t (s.tapNotices e (.outageEnd o.id) minute ++ s.rowNotices above (.outageEnd o.id) minute)
        (if s.corr.listFull then [] else [AlarmEntry.mk .outageListFull .critical (.place o.feeder (Row.firstPos above))
          s.time.minute (word above.length)]) := by
  have hnotices : ∀ t ∈ s.tapNotices e (.outageEnd o.id) minute ++ s.rowNotices above (.outageEnd o.id) minute,
      ∃ q, t = Task.notice q :=
    List.forall_mem_append.2 ⟨s.tapNotices_notice _ _ e, s.rowNotices_notice _ _ above⟩
  have hfull : (s.tapEnded e o minute).full = s.corr.listFull := rfl
  rw [State.splitOutage_full (w := s.tapEnded e o minute) ho hid h16, hfull]
  cases s.corr.listFull with
  | true =>
    simp only [if_true]
    exact State.reportDone_hands hq hp hnotices (.of_nil rfl) (fun _ => hroom) hlog (Nat.zero_le 2)
  | false =>
    simp only [Bool.false_eq_true, if_false]
    exact State.reportDone_hands hq hp hnotices (.of_single rfl) (fun _ => hroom) hlog (Nat.le_succ 1)

/-- The last tap of an outage returns, and the walk declares the one run that has waited for a record (R102). -/
theorem State.freed_hands {g : Feeder} {run : Row} (ho : s.corr.outages = before ++ o :: after)
    (hid : ∀ x ∈ before ++ after, x.id ≠ o.id) (hle : o.start ≤ minute)
    (henum : s.corr.enumerating[g] = false) (hrun : run ∈ s.runs g) (hthr : s.threshold g ≤ run.length)
    (hspan : Row.firstPos run ≤ Row.lastPos run) (h16 : s.corr.outages.length ≤ 16)
    (hfree : ∀ x ∈ before ++ after, x.id ≠ s.corr.nextId ∧ ∀ y ∈ run, x.covers g y.1 = false)
    (hothers : ∀ h r, r ∈ s.runs h → (h, r) ≠ (g, run) → ∃ x ∈ before ++ after, ∃ y ∈ r, x.covers h y.1 = true)
    (hroom : s.bill.queue.length + (s.tapNotices e (.outageEnd o.id) minute ++
      s.rowNotices run (.outageBegin s.corr.nextId) s.time.minute).length ≤ Config.noticeDepth) :
    let t := s.reportDone (s.fullWalk ((s.tapEnded e o minute).closeOutage o minute))
    t.corr.outages = insertOutage (s.record s.corr.nextId g run) (before ++ after) ∧ t.corr.listFull = false ∧
      s.Handed t (s.tapNotices e (.outageEnd o.id) minute ++ s.rowNotices run (.outageBegin s.corr.nextId) s.time.minute)
        [AlarmEntry.mk .outageClosed .info (.outage o.id) s.time.minute (word (minute - o.start)),
          AlarmEntry.mk .outageOpen .critical (.outage s.corr.nextId) s.time.minute
            (word (g.val + 2 ^ 8 * Row.firstPos run + 2 ^ 16 * Row.lastPos run))] := by
  have hlen : (before ++ after).length < Config.outageDepth := by
    rw [ho] at h16
    simp only [List.length_append, List.length_cons] at h16 ⊢
    exact Nat.lt_of_lt_of_le (Nat.lt_succ_self _) h16
  rw [CorrWork.closeOutage_at ho hid, spanWord_of_le hle, State.fullWalk_declares rfl henum hrun hspan
    (CorrWork.covering_eq_nil.2 fun x hx => (hfree x hx).2) hthr hlen (fun x hx => (hfree x hx).1)
    fun h r hr hne => CorrWork.covering_ne_nil.2 (hothers h r hr hne)]
  obtain ⟨hcorr, hhand⟩ := State.reportDone_hands (w := { s.declared { s.tapEnded e o minute with
    outages := before ++ after, removed := true
    alarms := (s.tapEnded e o minute).alarms ++
      [.alarm .outageClosed .info (.outage o.id) (word (minute - o.start)) none] } g run with full := false }) hq hp
    (List.forall_mem_append.2 ⟨s.tapNotices_notice _ _ e, s.rowNotices_notice _ _ run⟩)
    (((CorrWork.Logs.of_nil (w := s.corrWork) rfl).logs _ _ _ _).logs _ _ _ _) (fun _ => hroom) hlog (Nat.le_refl 2)
  exact ⟨by rw [hcorr]; rfl, by rw [hcorr], hhand⟩

end

end Sys2Proof.Machine
end

section
/-! Reports to the correlator and the sections of an outage (O50). -/

open Sys2Proof

namespace Sys2Proof.Machine

section
variable {s : State} {f : Feeder} {rest : List CorrReport} {e : EntryId} {pos : Nat}

/-- The run of the tap that a lost report names is examined. -/
theorem exec_lostReport_run {since : Nat} {run : Row} (hq : s.quiet) (hr : s.corr.reports = .lost e f pos since :: rest)
    (hst : (s.entry e).state = .lost) (hpl : (s.entry e).place = some { feeder := f, pos := pos })
    (henum : s.corr.enumerating[f] = false) (hrun : s.runAt f pos = some run) :
    exec .lostReport s = .next ((s.corrTaken rest).reportDone ((s.corrTaken rest).examined f run)) := by
  rw [exec_lostReport hq hr, State.corrLost_eq (s := s.corrTaken rest) hst hpl henum hrun]
  rfl

/-- A LOST entry that is vacated leaves the run that it joins as it is where no outage covers it. -/
theorem State.vacateJoin_lost {w : CorrWork} (hcov : ∀ run, w.covering f run = []) : s.vacateJoin w f pos true = w := by
  unfold State.vacateJoin
  cases s.lostNeighbours f pos with
  | none => rfl
  | some q =>
    refine if_pos ?_
    rw [Bool.true_and]
    cases s.runAt f q with
    | none => rfl
    | some run => exact List.isEmpty_iff.2 (hcov run)

theorem State.corrVacate_lost {minute : Nat} (ho : s.corr.outages = []) : s.corrVacate e f pos minute true = s.corrWork := by
  have hat : s.corrWork.outageAt f pos = none := by
    rw [CorrWork.outageAt, show s.corrWork.outages = [] from ho, List.find?_nil]
  rw [State.corrVacate, hat]
  exact State.vacateJoin_lost (s.covering_none ho f)

theorem exec_vacateReport_lost {minute : Nat} (hq : s.quiet) (hr : s.corr.reports = .vacate e f pos minute true :: rest)
    (ho : s.corr.outages = []) : exec .vacateReport s = .next (s.corrTaken rest) := by
  rw [exec_vacateReport hq hr, State.corrVacate_lost (s := s.corrTaken rest) ho, State.reportDone_same (State.corrTaken_quiet hq)]

end

/-! ### Hand-offs made: a lost report -/

section
variable {s : State} {f : Feeder} {rest : List CorrReport} {e : EntryId} {pos since : Nat} {run : Row}
variable (hq : s.quiet) (hp : s.run.part ≠ .idle) (hlog : s.log.intake.length + 2 ≤ Config.intakeDepth)
  (hr : s.corr.reports = .lost e f pos since :: rest) (hst : (s.entry e).state = .lost)
  (hpl : (s.entry e).place = some { feeder := f, pos := pos }) (henum : s.corr.enumerating[f] = false)
  (hrun : s.runAt f pos = some run)
include hq hp hlog hr hst hpl henum hrun

theorem exec_lostReport_declares (ho : s.corr.outages = []) (hthr : s.threshold f ≤ run.length)
    (hroom : s.bill.queue.length + (s.rowNotices run (.outageBegin s.corr.nextId) s.time.minute).length ≤
      Config.noticeDepth) :
    ∃ t o, exec .lostReport s = .next t ∧ t.corr.outages = [o] ∧ (∀ x ∈ run, o.start ≤ (s.entry x.2).silentSince) ∧
      (∃ x ∈ run, o.start = (s.entry x.2).silentSince) ∧
      s.Handed t (s.rowNotices run (.outageBegin s.corr.nextId) s.time.minute)
        [AlarmEntry.mk .outageOpen .critical (.outage s.corr.nextId) s.time.minute
          (word (f.val + 2 ^ 8 * Row.firstPos run + 2 ^ 16 * Row.lastPos run))] := by
  have hexec := exec_lostReport_run hq hr hst hpl henum hrun
  rw [State.examined_declares (s := s.corrTaken rest) ho hthr] at hexec
  obtain ⟨hcorr, hhand⟩ := State.declared_hands (s := s.corrTaken rest) (f := f) (State.corrTaken_quiet hq) hp hlog ho rfl hroom
  obtain ⟨hall, hsome⟩ := s.startOf_spec s.time.minute (State.ne_nil_of_mem_runs (State.mem_runs_of_runAt hrun))
  exact ⟨_, _, hexec, congrArg Correlator.outages hcorr, hall, hsome, hhand⟩

theorem exec_lostReport_full (h16 : 16 ≤ s.corr.outages.length) (hcov : s.corrWork.covering f run = [])
    (hthr : s.threshold f ≤ run.length) :
    (s.corr.listFull = true → exec .lostReport s = .next (s.corrTaken rest)) ∧
      (s.corr.listFull = false → ∃ t, exec .lostReport s = .next t ∧ t.corr.outages = s.corr.outages ∧
        t.corr.listFull = true ∧ t.corr.nextId = s.corr.nextId ∧ s.Handed t []
          [AlarmEntry.mk .outageListFull .critical (.place f (Row.firstPos run)) s.time.minute (word run.length)]) := by
  have hexec := exec_lostReport_run hq hr hst hpl henum hrun
  have hu := State.corrTaken_quiet (rest := rest) hq
  refine ⟨fun hfull => ?_, fun hfull => ?_⟩
  · rw [hexec, State.full_same (s := s.corrTaken rest) hu h16 hcov hthr hfull]
  · obtain ⟨hcorr, hhand⟩ := State.full_hands (s := s.corrTaken rest) hu hp hlog h16 hcov hthr hfull
    exact ⟨_, hexec, by rw [hcorr]; rfl, by rw [hcorr], by rw [hcorr]; rfl, hhand⟩

theorem exec_lostReport_grows {o : Outage} (ho : s.corr.outages = [o]) (hcov : s.corrWork.covering f run = [o])
    (hroom : s.bill.queue.length +
      (s.rowNotices (run.filter fun x => !o.covers f x.1) (.outageBegin o.id) s.time.minute).length ≤ Config.noticeDepth) :
    ∃ t, exec .lostReport s = .next t ∧ t.corr.outages = [s.stretched o f run] ∧ t.corr.nextId = s.corr.nextId ∧
      s.Handed t (s.rowNotices (run.filter fun x => !o.covers f x.1) (.outageBegin o.id) s.time.minute) [] := by
  obtain ⟨hcorr, hhand⟩ := State.grown_hands (s := s.corrTaken rest) (State.corrTaken_quiet hq) hp hlog ho hcov hroom
  exact ⟨_, exec_lostReport_run hq hr hst hpl henum hrun, by rw [hcorr]; rfl, by rw [hcorr]; rfl, hhand⟩

theorem exec_lostReport_merges {a b : Outage} (ho : s.corr.outages = [a, b]) (hcov : s.corrWork.covering f run = [a, b])
    (hid : a.id < b.id) (hruns : s.runs f = [run]) (hothers : ∀ g, g ≠ f → s.runs g = [])
    (hle : Row.firstPos run ≤ Row.lastPos run) :
    let keep := if b.start < a.start then b else a
    let gone := if b.start < a.start then a else b
    let joined := s.rowNotices (run.filter fun x => !(a.covers f x.1 || b.covers f x.1)) (.outageBegin keep.id) s.time.minute
    s.bill.queue.length + joined.length ≤ Config.noticeDepth → ∃ t, exec .lostReport s = .next t ∧
      t.corr.outages = [s.stretched keep f run] ∧ t.corr.listFull = false ∧
      s.Handed t joined [AlarmEntry.mk .outageMerged .info (.outage gone.id) s.time.minute (word keep.id)] := by
  intro keep gone joined hroom
  obtain ⟨hcorr, hhand⟩ := State.merged_hands (s := s.corrTaken rest) (State.corrTaken_quiet hq) hp hlog ho hcov hid hruns
    hothers hle hroom
  exact ⟨_, exec_lostReport_run hq hr hst hpl henum hrun, by rw [hcorr]; rfl, by rw [hcorr], hhand⟩

end

/-! ### Hand-offs made: a covered tap that leaves -/

section
variable {s : State} {c : Instr} {e : EntryId} {f : Feeder} {pos minute : Nat} {rest : List CorrReport} {o : Outage}
variable (hq : s.quiet) (hp : s.run.part ≠ .idle) (hlog : s.log.intake.length + 2 ≤ Config.intakeDepth)

section
variable (ho : s.corr.outages = [o]) (hof : o.feeder = f) (hcov : o.covers f pos = true)
  (hc : s.Leaving c e f pos minute rest)
  (hroom : s.bill.queue.length + (s.tapNotices e (.outageEnd o.id) minute).length ≤ Config.noticeDepth)
include hq hp hlog ho hof hcov hc hroom

/-- The only outage closes, shrinks, splits or stands, by what is left of its run on the two sides of the tap. -/
theorem State.Leaving.hands :
    let ends := s.tapNotices e (.outageEnd o.id) minute
    ((s.corrTaken rest).partsOf o pos = ([], []) → (∀ g, s.runs g = []) → o.start ≤ minute → ∃ t, exec c s = .next t ∧
      t.corr.outages = [] ∧
      s.Handed t ends [AlarmEntry.mk .outageClosed .info (.outage o.id) s.time.minute (word (minute - o.start))]) ∧
    (∀ x xs, (s.corrTaken rest).partsOf o pos = ([], x :: xs) → ∃ t, exec c s = .next t ∧
      t.corr.outages = [{ o with first := x.1 }] ∧ s.Handed t ends []) ∧
    (∀ x xs, (s.corrTaken rest).partsOf o pos = (x :: xs, []) → ∃ t, exec c s = .next t ∧
      t.corr.outages = [{ o with last := Row.lastPos (x :: xs) }] ∧ s.Handed t ends []) ∧
    (∀ x xs y ys, (s.corrTaken rest).partsOf o pos = (x :: xs, y :: ys) →
      (c = .vacateReport → ∃ t, exec c s = .next t ∧ t.corr = (s.corrTaken rest).corr ∧ s.Handed t ends []) ∧
      (c = .returnReport → o.id < s.corr.nextId → ∃ t, exec c s = .next t ∧
        t.corr.outages = [{ o with last := Row.lastPos (x :: xs) },
          { id := s.corr.nextId, feeder := f, first := Row.firstPos (y :: ys), last := o.last, start := o.start,
            declared := s.time.minute }] ∧
        s.Handed t ends [AlarmEntry.mk .outageSplit .info (.outage o.id) s.time.minute (word s.corr.nextId)])) := by
  intro ends
  obtain ⟨v, hexec, hclosed, hfirst, hlast, hboth⟩ :=
    hc.exec_eq hq (CorrWork.outageAt_only ho hcov)
  have hu : (s.corrTaken rest).quiet := State.corrTaken_quiet hq
  refine ⟨fun hparts hruns hle => ?_, fun x xs hparts => ?_, fun x xs hparts => ?_, fun x xs y ys hparts =>
    ⟨fun hvacate => ?_, fun hreturn hid => ?_⟩⟩
  · rw [hclosed hparts] at hexec
    exact ⟨_, hexec, State.closed_hands (s := s.corrTaken rest) hu hp hlog hroom ho hruns hle⟩
  · rw [hfirst x xs hparts] at hexec
    exact ⟨_, hexec, State.shrunk_hands (s := s.corrTaken rest) hu hp hlog hroom _ ho⟩
  · rw [hlast x xs hparts] at hexec
    exact ⟨_, hexec, State.shrunk_hands (s := s.corrTaken rest) hu hp hlog hroom _ ho⟩
  · rw [(hboth x xs y ys hparts).1 hvacate] at hexec
    exact ⟨_, hexec, State.kept_hands (s := s.corrTaken rest) hu hp hlog hroom⟩
  · rw [(hboth x xs y ys hparts).2 hreturn] at hexec
    subst hof
    exact ⟨_, hexec, State.split_hands (s := s.corrTaken rest) hu hp hlog hroom ho hid (x :: xs) (y :: ys)⟩

end

section
variable {before after : List Outage}
variable (hr : s.corr.reports = .back e f pos minute :: rest) (hst : (s.entry e).state ≠ .lost)
  (hpl : (s.entry e).place = some { feeder := f, pos := pos }) (ho : s.corr.outages = before ++ o :: after)
  (hcov : o.covers f pos = true) (hb : ∀ x ∈ before, x.covers f pos = false) (hid : ∀ x ∈ before ++ after, x.id ≠ o.id)
include hq hp hlog hr hst hpl ho hcov hb hid

/-- With 16 outages open a tap that returns between others has the upper part given up. -/
theorem exec_returnReport_givesUp (hof : o.feeder = f) (x : Nat × EntryId) (xs : Row) (y : Nat × EntryId) (ys : Row)
    (hparts : (s.corrTaken rest).partsOf o pos = (x :: xs, y :: ys)) (h16 : s.corr.outages.length = 16)
    (hroom : s.bill.queue.length + (s.tapNotices e (.outageEnd o.id) minute ++
      s.rowNotices (y :: ys) (.outageEnd o.id) minute).length ≤ Config.noticeDepth) :
    ∃ t, exec .returnReport s = .next t ∧ t.corr.listFull = true ∧ t.corr.nextId = s.corr.nextId ∧
      t.corr.outages = before ++ { o with last := Row.lastPos (x :: xs) } :: after ∧
      s.Handed t (s.tapNotices e (.outageEnd o.id) minute ++ s.rowNotices (y :: ys) (.outageEnd o.id) minute)
        (if s.corr.listFull then [] else [AlarmEntry.mk .outageListFull .critical
          (.place f (Row.firstPos (y :: ys))) s.time.minute (word (y :: ys).length)]) := by
  obtain ⟨v, hexec, -, -, -, hboth⟩ :=
    State.Leaving.exec_eq hq (.inl ⟨rfl, hr, hst, hpl⟩) (CorrWork.outageAt_eq ho hb hcov)
  rw [(hboth x xs y ys hparts).2 rfl] at hexec
  obtain ⟨hcorr, hhand⟩ := State.givenUp_hands (s := s.corrTaken rest) (State.corrTaken_quiet hq) hp hlog ho hid h16
    (x :: xs) (y :: ys) hroom
  rw [hof] at hhand
  exact ⟨_, hexec, by rw [hcorr], by rw [hcorr]; rfl, by rw [hcorr], hhand⟩

/-- When an outage closes, the one run that has waited for a record is declared. -/
theorem exec_returnReport_frees (g : Feeder) (run : Row) (hparts : (s.corrTaken rest).partsOf o pos = ([], []))
    (hle : o.start ≤ minute) (henum : s.corr.enumerating[g] = false) (hrun : run ∈ s.runs g)
    (hthr : s.threshold g ≤ run.length) (hspan : Row.firstPos run ≤ Row.lastPos run) (h16 : s.corr.outages.length ≤ 16)
    (hfree : ∀ x ∈ before ++ after, x.id ≠ s.corr.nextId ∧ ∀ y ∈ run, x.covers g y.1 = false)
    (hothers : ∀ h r, r ∈ s.runs h → (h, r) ≠ (g, run) → ∃ x ∈ before ++ after, ∃ y ∈ r, x.covers h y.1 = true)
    (hroom : s.bill.queue.length + (s.tapNotices e (.outageEnd o.id) minute ++
      s.rowNotices run (.outageBegin s.corr.nextId) s.time.minute).length ≤ Config.noticeDepth) :
    ∃ t new, exec .returnReport s = .next t ∧ new.id = s.corr.nextId ∧ new.feeder = g ∧ new.first = Row.firstPos run ∧
      new.last = Row.lastPos run ∧ new.declared = s.time.minute ∧
      (∀ x, x ∈ t.corr.outages ↔ x = new ∨ x ∈ before ++ after) ∧ t.corr.listFull = false ∧
      s.Handed t (s.tapNotices e (.outageEnd o.id) minute ++ s.rowNotices run (.outageBegin s.corr.nextId) s.time.minute)
        [AlarmEntry.mk .outageClosed .info (.outage o.id) s.time.minute (word (minute - o.start)),
          AlarmEntry.mk .outageOpen .critical (.outage s.corr.nextId) s.time.minute
            (word (g.val + 2 ^ 8 * Row.firstPos run + 2 ^ 16 * Row.lastPos run))] := by
  obtain ⟨v, hexec, hclosed, -⟩ :=
    State.Leaving.exec_eq hq (.inl ⟨rfl, hr, hst, hpl⟩) (CorrWork.outageAt_eq ho hb hcov)
  rw [hclosed hparts] at hexec
  obtain ⟨hout, hfull, hhand⟩ := State.freed_hands (s := s.corrTaken rest) (State.corrTaken_quiet hq) hp hlog ho hid hle
    henum hrun hthr hspan h16 hfree hothers hroom
  exact ⟨_, s.record s.corr.nextId g run, hexec, rfl, rfl, rfl, rfl, rfl,
    fun x => by rw [hout]; exact mem_insertOutage, hfull, hhand⟩

end

end

/-! ### Hand-offs made: the runs of a feeder examined -/

section
variable {s : State} {f : Feeder} {run : Row} {rest : List CorrReport} {c : Instr} {v : Correlator} {least : Nat}
variable (hq : s.quiet) (hruns : s.runs f = [run]) (hc : s.Examines c f rest least v)
include hq hruns hc

theorem State.Examines.short (ho : s.corr.outages = []) (hshort : run.length < least) :
    exec c s = .next { s with corr := v } := by
  obtain ⟨hout, -, hwork, hthr⟩ := hc.counts
  have hexec := hc.exec_eq hq hruns fun _ => s.covering_none ho f run
  rw [State.examined_short (hout.trans ho) (hthr ▸ hshort)] at hexec
  exact hexec.trans (congrArg _ (State.reportDone_same (State.quiet_withCorr hq (hwork.trans (hq.1 .correlator)))))

variable (hp : s.run.part ≠ .idle) (hlog : s.log.intake.length + 2 ≤ Config.intakeDepth)
include hp hlog

theorem State.Examines.declares (ho : s.corr.outages = []) (hlong : least ≤ run.length)
    (hroom : s.bill.queue.length + (s.rowNotices run (.outageBegin s.corr.nextId) s.time.minute).length ≤
      Config.noticeDepth) :
    ∃ t o, exec c s = .next t ∧ o.id = s.corr.nextId ∧ o.feeder = f ∧ o.first = Row.firstPos run ∧
      o.last = Row.lastPos run ∧ o.declared = s.time.minute ∧ (∀ x ∈ run, o.start ≤ (s.entry x.2).silentSince) ∧
      (∃ x ∈ run, o.start = (s.entry x.2).silentSince) ∧
      t.corr = { v with outages := [o], nextId := if s.corr.nextId = 65535 then 1 else s.corr.nextId + 1 } ∧
      s.Handed t (s.rowNotices run (.outageBegin s.corr.nextId) s.time.minute)
        [AlarmEntry.mk .outageOpen .critical (.outage s.corr.nextId) s.time.minute
          (word (f.val + 2 ^ 8 * Row.firstPos run + 2 ^ 16 * Row.lastPos run))] := by
  obtain ⟨hout, hnext, hwork, hthr⟩ := hc.counts
  have hexec := hc.exec_eq hq hruns fun _ => s.covering_none ho f run
  rw [State.examined_declares (hout.trans ho) (hthr ▸ hlong)] at hexec
  obtain ⟨hcorr, hhand⟩ := State.declared_hands (s := { s with corr := v }) (f := f)
    (State.quiet_withCorr hq (hwork.trans (hq.1 .correlator))) hp hlog (hout.trans ho) hnext hroom
  have hrun : run ∈ s.runs f := by rw [hruns]; exact List.mem_singleton_self run
  obtain ⟨hall, hsome⟩ := s.startOf_spec s.time.minute (State.ne_nil_of_mem_runs hrun)
  exact ⟨_, s.record s.corr.nextId f run, hexec, rfl, rfl, rfl, rfl, rfl, hall, hsome, hcorr, hhand⟩

/-- The end of an enumeration has a covered run's outage grow. -/
theorem State.Examines.grows {o : Outage} (ho : s.corr.outages = [o]) (hcov : s.corrWork.covering f run = [o])
    (hend : c = .enumerationEndReport)
    (hroom : s.bill.queue.length +
      (s.rowNotices (run.filter fun x => !o.covers f x.1) (.outageBegin o.id) s.time.minute).length ≤ Config.noticeDepth) :
    ∃ t, exec c s = .next t ∧
      s.Handed t (s.rowNotices (run.filter fun x => !o.covers f x.1) (.outageBegin o.id) s.time.minute) [] ∧
      t.corr = { v with outages := [s.stretched o f run] } := by
  obtain ⟨hout, -, hwork, -⟩ := hc.counts
  have hexec := hc.exec_eq hq hruns fun hlow => absurd (hlow.symm.trans hend) (by simp)
  have hsame : State.corrWork { s with corr := v } = { s.corrWork with nextId := v.nextId, full := v.listFull } := by
    rw [State.corrWork, hout]
    rfl
  obtain ⟨hcorr, hhand⟩ := State.grown_hands (s := { s with corr := v }) (f := f) (run := run)
    (State.quiet_withCorr hq (hwork.trans (hq.1 .correlator))) hp hlog (hout.trans ho) (by rw [hsame]; exact hcov) hroom
  exact ⟨_, hexec, hhand, hcorr⟩

end

/-! ### The statement -/

/-- Settles O50: each report by the list it finds, first whether or not its hand-offs wait, then with all of them made. -/
theorem correlatorReports : Obligations.CorrelatorReports := by
  unfold Obligations.CorrelatorReports
  refine ⟨fun s f => ⟨State.threshold_normal, State.threshold_low⟩, fun s f rest hq =>
    ⟨exec_enumerationStartReport hq, exec_enumerationEndReport_nil hq, exec_supplyLowReport_nil hq, exec_supplyClearReport hq,
      fun e pos since run hr hst hpl henum hrun ho => ?_, fun e pos minute o c ho hcov _ hruns hparts hc => ?_,
      fun e pos minute => exec_vacateReport_lost hq⟩,
    fun s f rest hq hp hlog => ⟨fun e pos since run hr hst hpl henum hrun => ⟨
        exec_lostReport_declares hq hp hlog hr hst hpl henum hrun, exec_lostReport_full hq hp hlog hr hst hpl henum hrun,
        fun o => exec_lostReport_grows hq hp hlog hr hst hpl henum hrun,
        fun a b => exec_lostReport_merges hq hp hlog hr hst hpl henum hrun⟩,
      fun e pos minute o c ho hof hcov hc hroom => State.Leaving.hands hq hp hlog ho hof hcov hc hroom,
      fun e pos minute o before after hr hst hpl ho hof hcov hb hid => ⟨
        exec_returnReport_givesUp hq hp hlog hr hst hpl ho hcov hb hid hof,
        fun g run hparts hle hrun henum =>
          exec_returnReport_frees hq hp hlog hr hst hpl ho hcov hb hid g run hparts hle henum hrun⟩,
      fun run c v least hruns hc => ⟨State.Examines.short hq hruns hc, State.Examines.declares hq hruns hc hp hlog,
        fun o ho hcov => ⟨fun hlow => State.Examines.exec_covered hq hruns hc hlow (by rw [hcov]; exact List.cons_ne_nil _ _),
          State.Examines.grows hq hruns hc hp hlog ho hcov⟩⟩,
      Outage.covers_iff, fun row kind minute => s.mem_rowNotices kind minute row⟩⟩
  · have hexec := exec_lostReport_run hq hr hst hpl henum hrun
    have hu := State.corrTaken_quiet (rest := rest) hq
    refine ⟨fun hthr => ?_, fun hthr => ?_⟩
    · rw [State.examined_declares (s := s.corrTaken rest) ho hthr] at hexec
      obtain ⟨hout, hnext, hdir, hmem⟩ := State.declared_leaves (f := f) (run := run) hu ho
      exact ⟨_, _, hexec, hout, rfl, rfl, rfl, rfl, rfl, hnext, hdir, hmem⟩
    · rw [State.examined_short (s := s.corrTaken rest) ho hthr, State.reportDone_same hu] at hexec
      exact hexec
  · obtain ⟨v, hexec, hclosed, -⟩ := State.Leaving.exec_eq hq hc (CorrWork.outageAt_only ho hcov)
    rw [hclosed hparts] at hexec
    exact ⟨_, hexec, State.closed_leaves (State.corrTaken_quiet hq) ho hruns⟩

end Sys2Proof.Machine
end
